-- ==== Sys2Proof/Word.lean ====
section
/-! DEFINITION. The word types of the GV16 model: bytes, 32-bit register words and 64-bit double words
(R11, R64: registers are 32 bits wide, multi-byte values are little-endian). -/

namespace Sys2Proof

/-- One byte of memory. -/
abbrev Byte := BitVec 8
/-- One 32-bit register word (R64). -/
abbrev Word := BitVec 32
/-- One 64-bit word: a register pair, an event counter, a command word (R76, R169, R176). -/
abbrev DWord := BitVec 64

end Sys2Proof
end

