-- ==== Sys2Proof/Syntax.lean ====
section
/-! DEFINITION. The commands of the GV16: one constructor of `Instr` per row of spec/opcode_table.json,
and the small types their operands use. What the environment contributes to a step (a pixel line, a
received flit's fields, a measured temperature, a device's answer) is an operand of its row. -/

namespace Sys2Proof

/-- The four requesters of the register bus (R63). -/
inductive Requester | host | sac | prc0 | prc1
deriving DecidableEq, Repr

/-- A RISC-V core that reaches memory by physical address (R87). -/
inductive CoreId | sac | prc0 | prc1
deriving DecidableEq, Repr

/-- The kind of a core access (R87). -/
inductive AccKind | load | store | fetch
deriving DecidableEq, Repr

/-- The size of an access in bytes. -/
inductive AccSize | b1 | b2 | b4 | b8
deriving DecidableEq, Repr

/-- The number of bytes of an access size. -/
def AccSize.bytes : AccSize → Nat
  | .b1 => 1 | .b2 => 2 | .b4 => 4 | .b8 => 8

/-- What a register read asks for (R64): the address and the size of the access. -/
structure ReadAt where
  addr : BitVec 24
  size : AccSize
deriving DecidableEq, Repr

/-- The size of a write to the register space (R64). An aligned 8-byte access of the host carries its upper four
bytes beside the lower ones. -/
inductive RegSize
  | b1 | b2 | b4
  | b8 (hi : BitVec 32)
deriving DecidableEq, Repr

/-- The units that execute command queues (R24, R165). -/
inductive EngUnit
  | cho (g : Fin 8) | pyr | wrp | ftr | flw | str | dmd | lxe
deriving DecidableEq, Repr

/-- The units of UNIT_FAILED, in its bit order (R307, R481, R488). -/
inductive FailUnit | cho | pyr | wrp | ftr | flw | str | dmd | lxe | ntx
deriving DecidableEq, Repr

/-- The state a storage upset leaves a granule in (R104). -/
inductive Mark | ce | ue | poison
deriving DecidableEq, Repr

/-- A storage upset of the environment: a granule becomes correctable or uncorrectable, or one bit of an
LP5X byte without in-line ECC flips (R95, R104), a stored descriptor word becomes uncorrectable or
correctable (R140), or link ECC corrects an error on the wires to LP5X (R95). -/
inductive Upset
  | granule (pa : Nat) (uncorrectable : Bool)
  | bitFlip (pa : Nat) (bit : Fin 8)
  | desc (handle : BitVec 16) (uncorrectable : Bool)
  | link
deriving DecidableEq, Repr

/-- What the checks of a finished tile found (R297). -/
inductive TileCheck | good | residue | accParity
deriving DecidableEq, Repr

/-- One HSYNC line as the capture stage sees it (R213, R215, R216): the samples of the line with the level
of DE at each, the PCLK cycles for which HSYNC was inactive before it, the place of a sync glitch in PCLK order, if any (0 before the
line, 1 at its beginning, 2 + i at sample i), and the sample at which the capture FIFO was full, if any. -/
structure CapLine where
  samples : List (BitVec 16 × Bool)
  blankBefore : Nat
  glitchAt : Option Nat
  fullAt : Option Nat
deriving DecidableEq, Repr

/-- The payload of a HELLO (R363). -/
structure Hello where
  port : Fin 4
  head : Bool
  topo : Bool
  expectM1 : Fin 8
  pos : BitVec 8
deriving DecidableEq, Repr

/-- The header fields of a received flit that the link layer uses (R354), and the ports that the flit's route still has to take from
this chip on: the source fixes the route and a flit keeps it (R359), but the spec gives no place for it (DESIGN CHOICE: log entry 95). -/
structure FlitHdr where
  vc : BitVec 3
  seq : BitVec 10
  ack : BitVec 10
  cvc : BitVec 3
  ccnt : BitVec 2
  route : List (Fin 4) := []
deriving DecidableEq, Repr

/-- A flit that no rule acts on, by the port that receives it (R355, R356): a MGMT flit of a reserved subtype with its header, or any
other, whose fields count for nothing. -/
structure BadFlit where
  port : Fin 4
  mgmt : Option FlitHdr
deriving DecidableEq, Repr

/-- The payload of a PIECE_HEAD (R367). -/
structure PieceHeadMsg where
  tid : BitVec 12
  piece : BitVec 8
  destEvt : BitVec 8
  srcPos : Fin 8
  dstPos : Fin 8
  etype : BitVec 8
  ndim : BitVec 8
  origin : List (BitVec 32)
  extent : List (BitVec 32)
  vdim : BitVec 8
  epoch : BitVec 8
  xferId : BitVec 16
  nData : BitVec 32
deriving DecidableEq, Repr

/-- The payload of a SIGNAL flit (R368). -/
structure SignalMsg where
  srcPos : Fin 8
  evt : BitVec 8
  inc : BitVec 16
  epoch : BitVec 8
  sigId : BitVec 16
deriving DecidableEq, Repr

/-- The payload of a RESP (R369). -/
structure RespMsg where
  ident : BitVec 16
  status : BitVec 8
  pos : Fin 8
deriving DecidableEq, Repr

/-- A TSYNC flit as this chip sees it (R370): a child's request with its send time t1, or the parent's
answer with t1, t2 and t3. -/
inductive TsyncMsg
  | request (t1 : DWord)
  | answer (t1 t2 t3 : DWord)
deriving DecidableEq, Repr

/-- A TSYNC flit: its header and its message (R354, R370). -/
structure TsyncFlit where
  hdr : FlitHdr
  msg : TsyncMsg
deriving DecidableEq, Repr

/-- How a Carillon transaction ended on the wire (R388): the device's reply came back as it stored it, or
the controller saw no presence, all ones, a bad CRC, a bad length, a conflict or a stuck line. -/
inductive WireEnd | reply | noPresence | noReply | crc | len | conflict | stuck
deriving DecidableEq, Repr

/-- What an environment's I2C target did in a transaction (R417). -/
structure I2cBus where
  addrAck : Bool
  acked : Nat
  read : List Byte
  busError : Bool
  stuck : Bool
deriving DecidableEq, Repr

/-- The kinds of PCI Express reset of R412. -/
inductive PcieReset | flr | hot | perst | linkDown
deriving DecidableEq, Repr

/-- A protection case of R457. -/
inductive ProtCase | junction | coreUv | lampOt
deriving DecidableEq, Repr

/-- The wake sources of R453, in the bit order of WAKE_EN. -/
inductive WakeSrc | uart0 | gpio | pcie | alarm
deriving DecidableEq, Repr

/-- A rail group of R500 and R502. -/
inductive RailGroup | core | hs | io
deriving DecidableEq, Repr

/-- One loop period's measurements (R455, R456, R457): delay-monitor margin in ps, sense voltage in mV,
package power in mW and the eight sensor temperatures in 0.1 °C. -/
structure LoopSense where
  marginPs : BitVec 16
  vsenseMv : BitVec 10
  pkgMw : BitVec 16
  temps : List (BitVec 16)
deriving DecidableEq, Repr

/-- The maker's data a Carillon device answers IDENT with (R391). -/
structure DevIdent where
  cls : BitVec 8
  vendor : BitVec 16
  model : BitVec 16
  fwMajor : BitVec 8
  fwMinor : BitVec 8
  fwPatch : BitVec 8
  serial : DWord
deriving DecidableEq, Repr

/-- What a lamp head measures for LAMP_STATUS (R393). -/
structure LampSense where
  tempDc : BitVec 16
  rating : BitVec 16
  otLimit : BitVec 16
  lineFault : Bool
  ledOpen : Bool
  ledShort : Bool
  wavelength : BitVec 16
deriving DecidableEq, Repr

/-- What a pod controller measures for POD_STATUS (R394). -/
structure PodSense where
  tempDc : BitVec 16
  humidity : BitVec 8
  supplyMv : BitVec 16
  heaterOn : Bool
  windowFault : Bool
  pdNoticeS : BitVec 8
deriving DecidableEq, Repr

/-- The maker's data of a Ledger plate (R396, R397). -/
structure PlateInfo where
  width : BitVec 16
  height : BitVec 16
  bpp : BitVec 8
  driveMs : BitVec 16
deriving DecidableEq, Repr

/-- The cause of a DMA bus error that the fabric reports (R340). -/
inductive BusErr | rood (code : BitVec 8) | hostCpl | poisonRefused
deriving DecidableEq, Repr

/-- An AER error of the endpoint (R424). -/
inductive AerKind | correctable | nonfatal | fatal
deriving DecidableEq, Repr

/-- An AER error with whether it meets an outbound read (R406, R424). -/
structure AerEvent where
  kind : AerKind
  read : Bool
deriving DecidableEq, Repr

/-- The commands of the part: one constructor per row of the table. -/
inductive Instr
  -- the register bus and leases (chapter 3)
  | registerWrite (req : Requester) (addr : BitVec 24) (size : RegSize) (value : Word)
  | loRead (req : Requester) (addr : ReadAt)
  | hiWrite (req : Requester) (addr : BitVec 24) (value : Word)
  | busTimeout (req : Requester) (addr : BitVec 24) (read : Bool)
  | softReset (req : Requester) (page : Fin 4096)
  | softResetDone (page : Fin 4096)
  | irqForce (req : Requester) (page : Fin 4096) (mask : Word)
  | irqRawClear (req : Requester) (page : Fin 4096) (mask hwSet : Word)
  | snapTake (req : Requester) (page : Fin 4096) (groups : BitVec 8)
  | snapRelease (req : Requester) (page : Fin 4096) (groups : BitVec 8)
  | acquire (req : Requester) (page : Fin 4096) (timeoutMs : BitVec 8)
  | renew (req : Requester) (page : Fin 4096) (timeoutMs : BitVec 8)
  | leaseRelease (req : Requester) (page : Fin 4096)
  | leaseTimeout (page : Fin 4096)
  -- memory and the Rood (chapter 4)
  | coreAccess (core : CoreId) (kind : AccKind) (pa : BitVec 48) (size : AccSize) (value : DWord)
  | bar2Access (write : Bool) (offset : BitVec 25) (size : AccSize) (value : DWord)
  | ceWriteBack (pa : BitVec 48)
  | scrubAccess (upsets : List Upset)
  | clsEnable (req : Requester)
  | clsInitDone
  | clsDisable (req : Requester)
  | clsSkewWrite (req : Requester) (n : Fin 64) (value : Word)
  | lp5xEnable (req : Requester)
  | lp5xInitDone
  | lp5xDisable (req : Requester)
  | inval (req : Requester) (ctx : Fin 16)
  | invalDone (ctx : Fin 16)
  | ctxDisable (req : Requester) (ctx : Fin 16)
  | rgnRegister (req : Requester)
  | rgnFree (req : Requester)
  | rgnDone
  | fltPop (req : Requester)
  | lockLeaseTimeout (entry : Fin 64)
  -- descriptors (chapter 5)
  | create (req : Requester)
  | destroy (req : Requester)
  | descRead (req : Requester)
  | descDone
  -- queues, events and the common opcodes (chapters 6 and 7)
  | qtailWrite (req : Requester) (q : Fin 128) (value : Word)
  | doorbell (offset : BitVec 16) (write : Option Word)
  | commandFetch (unit : EngUnit)
  | nop (q : Fin 128)
  | wait (q : Fin 128)
  | waitRetire (q : Fin 128)
  | waitTimeout (q : Fin 128)
  | signal (q : Fin 128)
  | stop (q : Fin 128)
  | copy (q : Fin 128)
  | gather (q : Fin 128)
  | scatter (q : Fin 128)
  | bgather (q : Fin 128)
  | bscatter (q : Fin 128)
  | pieceSend (q : Fin 128)
  | commandRetire (q : Fin 128)
  | skip (req : Requester) (q : Fin 128)
  | drain (req : Requester) (q : Fin 128)
  | queueEnable (req : Requester) (q : Fin 128)
  | queueDisable (req : Requester) (q : Fin 128)
  | evtSig (req : Requester) (inc : BitVec 16) (evt : BitVec 8)
  -- the Choir (chapter 12)
  | conv (q : Fin 128)
  | matmul (q : Fin 128)
  | eltwise (q : Fin 128)
  | pool (q : Fin 128)
  | act (q : Fin 128)
  | tileDeal (g : Fin 8)
  | tileComplete (stall : Fin 32) (check : TileCheck)
  | tileTimeout (stall : Fin 32)
  | remap (g : Fin 8)
  | remapCopyDone
  | retireReq (req : Requester) (mask : Word)
  | suspectClr (req : Requester) (stall : Fin 32)
  -- the vision engines (chapters 10 and 11)
  | pyrBuild (q : Fin 128) (parity : List (Nat × Nat))
  | pyrLaplace (q : Fin 128) (parity : List (Nat × Nat))
  | wrpHomog (q : Fin 128) (parity : List (Nat × Nat))
  | wrpMesh (q : Fin 128) (parity : List (Nat × Nat))
  | ftrDetect (q : Fin 128) (parity : List (Nat × Nat))
  | flwLevel (q : Fin 128) (parity : List (Nat × Nat))
  | strLevel (q : Fin 128) (parity : List (Nat × Nat))
  -- the demodulator and the LIS (chapter 8)
  | dmdPeriod (q : Fin 128)
  | dmdOffline (q : Fin 128)
  | dmdSubframe (port : Fin 4)
  | lisEnable (req : Requester)
  | lisDisable (req : Requester)
  | lisFire (req : Requester) (mask : BitVec 4)
  | triggerAssert (seq : Fin 4)
  | triggerDeassert (seq : Fin 4)
  | strobeRise (seq : Fin 4)
  | strobeFall (seq : Fin 4)
  | stbFault (out : Fin 8)
  -- the Narthex (chapter 9)
  | portEnable (req : Requester) (port : Fin 4)
  | portDisable (req : Requester) (port : Fin 4)
  | frameStart (port : Fin 4) (blankPclk : Nat)
  | trigWindowExpiry (port : Fin 4)
  | lineEnd (port : Fin 4) (line : CapLine)
  | frameEnd (port : Fin 4) (glitch : Bool)
  | clkLost (port : Fin 4)
  | pclkFast (port : Fin 4) (edges : BitVec 16)
  | pipelineLine (parity : List Nat)
  | memFrameStart (port : Fin 4)
  | stripeStart (port : Fin 4)
  | trigSw (req : Requester) (port : Fin 4)
  | trigSwEnd (port : Fin 4)
  | rstAssert (req : Requester) (port : Fin 4) (level : Bool)
  -- the Precentor (chapter 13)
  | graphLoad (req : Requester) (slot : Fin 8)
  | graphLoadDone (slot : Fin 8)
  | graphStart (req : Requester) (slot : Fin 8)
  | graphStop (req : Requester) (slot : Fin 8)
  | stopComplete (slot : Fin 8)
  | graphAbort (req : Requester) (slot : Fin 8)
  | unload (req : Requester) (slot : Fin 8)
  | stepDecision (slot : Fin 8)
  | graphFire (slot : Fin 8)
  | vote (slot : Fin 8)
  | runDecision (slot : Fin 8)
  | framePost (slot : Fin 8)
  | doneSignal (slot : Fin 8)
  | commit (slot : Fin 8)
  | inPost (req : Requester) (slot : Fin 8) (node : BitVec 16)
  | outAck (req : Requester) (slot : Fin 8) (count : BitVec 16)
  | switchStart (slot : Fin 8)
  | switchQuiesce (slot : Fin 8)
  | switchResume (slot : Fin 8)
  | switchRepost (slot : Fin 8)
  -- the DMA engine (chapter 14)
  | dmaStart (req : Requester) (ch : Fin 16)
  | dmaStop (req : Requester) (ch : Fin 16)
  | shadowArm (req : Requester) (ch : Fin 16)
  | dmaBurst (ch : Fin 16)
  | passEnd (ch : Fin 16)
  | dmaBusError (ch : Fin 16) (va : BitVec 39) (write prefetch : Bool) (cause : BusErr)
  -- the Ronsan Link and the chapter (chapter 15)
  | portEn (req : Requester) (port : Fin 4)
  | cdrLock (port : Fin 4) (lane : Bool) (inverted : Bool)
  | markerLock (port : Fin 4) (lane : Bool) (skew : BitVec 6)
  | markerLoss (port : Fin 4) (lane : Bool)
  | cdrLoss (port : Fin 4) (lane : Bool)
  | hello (port : Fin 4) (msg : Hello)
  | trainTimeout (port : Fin 4)
  | flitCrcError (port : BadFlit)
  | nak (port : Fin 4) (hdr : FlitHdr)
  | idleFlit (port : Fin 4) (hdr : FlitHdr)
  | replayTimeout (port : Fin 4)
  | enum (port : Fin 4) (hdr : FlitHdr) (x y : BitVec 8)
  | join (port : Fin 4) (hdr : FlitHdr) (pos : Fin 8)
  | chapterUp (port : Fin 4) (hdr : FlitHdr) (members : BitVec 8)
  | chapterUpTimeout
  | linkMap (port : Fin 4) (hdr : FlitHdr) (map : BitVec 32) (epoch : BitVec 8)
  | fenceLift
  | tsyncExchange
  | tsync (port : Fin 4) (msg : TsyncFlit)
  | pieceHead (port : Fin 4) (hdr : FlitHdr) (msg : PieceHeadMsg)
  | piecePmap (port : Fin 4) (hdr : FlitHdr) (src : Fin 8) (mask : BitVec 512 )
  | pieceData (port : Fin 4) (hdr : FlitHdr) (src : Fin 8) (data : BitVec 512) (parity : BitVec 64)
  | signalFlit (port : Fin 4) (hdr : FlitHdr) (msg : SignalMsg)
  | resp (port : Fin 4) (hdr : FlitHdr) (msg : RespMsg)
  | linkTimeout (q : Fin 128)
  | creditTimeout (port : Fin 4)
  | memberLost (pos : Fin 8)
  | headLost
  | chapterEn (req : Requester) (value : Word)
  -- the Carillon bus and its devices (chapter 16)
  | carGo (req : Requester) (chain : Fin 2)
  | boundarySend (chain : Fin 2)
  | carTxnDone (chain : Fin 2) (wire : WireEnd)
  | txCancel (req : Requester) (chain : Fin 2)
  | longReset (req : Requester) (chain : Fin 2) (presence : Bool)
  | shortReset (req : Requester) (chain : Fin 2) (presence : Bool)
  | chainEn (req : Requester) (chain : Fin 2) (on : Bool)
  | pwrGoodChange (input : Fin 4) (level : Bool)
  | pgStable (input : Fin 4)
  | ident (chain : Fin 2) (dev : Fin 16) (maker : DevIdent)
  | setAddr (chain : Fin 2) (dev : Fin 16)
  | pass (chain : Fin 2) (dev : Fin 16)
  | status (chain : Fin 2) (dev : Fin 16)
  | readReg (chain : Fin 2) (dev : Fin 16)
  | writeReg (chain : Fin 2) (dev : Fin 16)
  | lampSet (chain : Fin 2) (dev : Fin 16) (rating : BitVec 16)
  | lampStatus (chain : Fin 2) (dev : Fin 16) (sense : LampSense)
  | podStatus (chain : Fin 2) (dev : Fin 16) (sense : PodSense)
  | ledgerInfo (chain : Fin 2) (dev : Fin 16) (plate : PlateInfo)
  | ledgerBegin (chain : Fin 2) (dev : Fin 16) (plate : PlateInfo)
  | ledgerData (chain : Fin 2) (dev : Fin 16)
  | ledgerCommit (chain : Fin 2) (dev : Fin 16) (nvmFail : Bool)
  | ledgerDrawDone (chain : Fin 2) (dev : Fin 16)
  | ledgerAbort (chain : Fin 2) (dev : Fin 16)
  | ledgerAck (chain : Fin 2) (dev : Fin 16)
  | ledgerRecovery (chain : Fin 2) (dev : Fin 16)
  | lampOverTemperature (chain : Fin 2) (dev : Fin 16)
  | lampCooled (chain : Fin 2) (dev : Fin 16)
  | podPowerDown (chain : Fin 2)
  -- timebase, GPIO, UARTs, I2C and the host link (chapter 17)
  | tbSet (req : Requester) (hi : Word)
  | ppsEdge
  | ppsLost
  | tbAlarm
  | gpioEdge (pin : Fin 16) (level : Bool)
  | gpioSet (req : Requester) (mask : BitVec 16)
  | gpioClr (req : Requester) (mask : BitVec 16)
  | txdata (req : Requester) (uart : Fin 2) (char : Byte)
  | rxPop (req : Requester) (uart : Fin 2)
  | uartChar (uart : Fin 2) (char : Byte) (pe fe brk : Bool)
  | rxIdle (uart : Fin 2)
  | txEmpty (uart : Fin 2)
  | speed (req : Requester) (i2c : Fin 2) (code : BitVec 2)
  | i2cGo (req : Requester) (i2c : Fin 2)
  | i2cDone (i2c : Fin 2) (bus : I2cBus)
  | stretchTimeout (i2c : Fin 2)
  | irqEoi (req : Requester) (vec : BitVec 6)
  | pcieReset (kind : PcieReset)
  | cplTimeout (dma : Option (Fin 16 × BitVec 39))
  | aerError (kind : AerEvent)
  | linkUp (width : BitVec 3) (speed : BitVec 3)
  | d3hot
  -- boot, firmware and the mailbox (chapter 18)
  | porstNRise (bootMode : Bool) (flash : Option (List (Nat × BitVec 8)))
  | porstNFall
  | bootGo (req : Requester)
  | mbPost
  | getInfo
  | setPolicy
  | getPolicy
  | ctxGrant
  | ctxRelease
  | carTxn
  | pdNotice
  | powerState
  | arbCommit (programmed : Bool)
  | keyRevoke (programmed : Bool)
  | ovr (req : Requester) (value : Word)
  | wakeEvent (src : WakeSrc)
  | controlTick
  | loopPeriod (sense : LoopSense)
  | junctionTrip
  | coreUv (vsenseMv : BitVec 10)
  | policyRaise (req : Requester) (value : BitVec 8)
  | protectionRelease (case : ProtCase)
  | sensorFail (sensor : Fin 8)
  -- the power sequencer and the pins (chapter 20)
  | vrSettled
  | vrSettleTimeout
  | vrDrop
  | shutdown
  | aonPorRelease
  | railOk (grp : RailGroup)
  | railTimeout (grp : RailGroup)
  | railDrop (grp : RailGroup)
  | tapReset
  | tapInstruction (ir : BitVec 8)
  | debugHalt (core : Bool) (halted : Bool)
  -- the Verger (chapter 19)
  | revokeEntry (req : Requester)
  | revokeOwner (req : Requester) (owner : BitVec 4)
  | vrgRelease (req : Requester)
  | holdSet (req : Requester)
  | holdClr (req : Requester)
  | entryParity (sel : BitVec 17)
  | quarantineEnd (sel : BitVec 17)
  | quarStuck (sel : BitVec 17)
  | jrnPop (req : Requester)
  | unitFailSet (req : Requester) (mask : BitVec 9)
  | unitFailed (unit : FailUnit)
  | resetReq (req : Requester) (level : BitVec 2)
  | wdtKick (req : Requester) (value : Word)
  | wdtFire
  | chanFail (channel : Fin 8)
  | pclkReturns (port : Fin 4)
deriving DecidableEq, Repr

end Sys2Proof
end

