-- ==== Sys2Proof/Decode.lean ====
section
/-! DEFINITION. Words of commands. The rows of spec/opcode_table.json give no bits: the part takes register
accesses, pin events and protocol messages, not encoded words. -/

namespace Sys2Proof

/-- The command that a word spells by the table's bits: no row gives any. -/
def decodeTableWord (_nbits _w : Nat) : Option Instr := none

end Sys2Proof
end

