-- ==== Sys2Proof/Config.lean ====
section
/-! DEFINITION. The values the spec leaves open. Each is an opaque function with no body, so that nothing in
Lean can evaluate it: a statement about a free value holds whatever the value is. Most are applied to the
counter `free` of the model's own time state, which advances at each use; the others to the address or the
operands they belong to. -/

namespace Sys2Proof.Config

/-- A free byte for the n-th open value: the content of a destination that a failed command leaves (R184). -/
opaque havocByte : Nat → Byte

/-- A free choice for the n-th open decision between alternatives the spec allows (R75, R101). -/
opaque choice : Nat → Nat

/-- The error of the n-th timestamp capture, before it is brought into the bound of R422. -/
opaque stampError : Nat → Nat

/-- The content of an LP5X byte that nothing has written since the initialisation of the given epoch (R528). -/
opaque lp5xByte : Nat → Nat → Byte

/-- The outcome class of an LP5X granule that nothing has written since the initialisation of the given epoch
(R528): 0 clean, 1 correctable, 2 uncorrectable, 3 poisoned, taken modulo 4. -/
opaque lp5xState : Nat → Nat → Nat

/-- The content of a byte of stall SRAM, boot ROM, Sacristan memory or Precentor memory that nothing has
written since the part was powered or the chip was reset, by the number of such resets (R85 gives none). -/
opaque rawByte : Nat → Nat → Byte

/-- The outcome class of a stall SRAM granule that nothing has written, as for `lp5xState`. -/
opaque rawState : Nat → Nat → Nat

/-- The content of a byte of host memory, by bus address, that the part has not written. -/
opaque hostByte : Nat → Byte

/-- A payload byte of a mailbox response whose fields the spec names without their places (R449): the opcode, the
fields in the order named, and the index of the byte. -/
opaque mbPack : Nat → List Nat → Nat → Byte

/-! The formats of the sections TEMPLATES and INIT of a graph image belong to Clala and the Precentor firmware (R303): what
the firmware makes of them is open. The bindings are GCTX, DESC_SLOT0, EVT_BASE, the arenas and IMG_PA. -/

/-- A command that a template posts (R311, R315): its queue, its four words, the operand slots that name a buffer with the buffer and
whether the command writes it, and for a WAIT on a counter of the graph the counter and the count per frame and at frame 0. -/
structure Posting where
  queue : Nat
  words : List DWord
  binds : List (Nat × Nat × Bool)
  wait : Option (Nat × Nat × Nat)
deriving DecidableEq, Repr, Inhabited

/-- The commands that a template posts: the section, the template, the bindings. -/
opaque template : List Byte → Nat → List Nat → List Posting

/-- CODE_INDEX and FRAME_NUM of a source that another chip captures (R317): the slot, T_0, the frame and the node's NODE_ID. -/
opaque remoteSource : Nat → Nat → Nat → Nat → Nat × Nat

/-- The PFLAGS of the completion records of other chips on a HOST_OUT node's upstream path (R317), with the same arguments. -/
opaque remoteFlags : Nat → Nat → Nat → Nat → Nat

/-- The eight words of a descriptor: the section, its index, the bindings. -/
opaque descTemplate : List Byte → Nat → List Nat → List DWord

/-- The register writes of INIT (address, value). -/
opaque initWrites : List Byte → List (Nat × Word)

/-- The content that INIT gives slot 1 of persistent buffers (R311): the buffer, the offset in its slot, the bytes. -/
opaque initContent : List Byte → List (Nat × Nat × List Byte)

/-- The event counter that the LIS signals for a sequencer's code steps (R18): no register of page 0x027 names it. -/
opaque lisEvent : Nat → Nat

/-- The strobe output, and the sequencer, that drive the lamp head of a chain and an address: the board's wiring, which the
Sacristan firmware knows (R395, R458). -/
opaque lampOutput : Nat → Nat → Nat
opaque lampSeq : Nat → Nat → Nat

/-- The event of a node (R316, R317): the section and the node. -/
opaque nodeEvent : List Byte → Nat → Nat

/-- The bytes of payload that a template writes (R317): the section and the template. -/
opaque payloadBytes : List Byte → Nat → Nat

end Sys2Proof.Config
end

