-- ==== Sys2Proof/Machine/Assoc.lean ====
section
/-! DEFINITION. Sparse data by a natural-number key: a list of key and value pairs whose keys rise strictly.
Registers, memory cells, granule states, regions and descriptors are held this way, so that equal contents
are equal lists. -/

namespace Sys2Proof.Machine

/-- The value at a key. -/
def aget {β : Type} : List (Nat × β) → Nat → Option β
  | [], _ => none
  | (k, v) :: l, x => if k = x then some v else aget l x

/-- The list without a key. -/
def adel {β : Type} (l : List (Nat × β)) (x : Nat) : List (Nat × β) :=
  l.filter fun p => !(p.1 == x)

/-- Insertion at the place the order of keys gives. -/
def ains {β : Type} (x : Nat) (v : β) : List (Nat × β) → List (Nat × β)
  | [] => [(x, v)]
  | (k, w) :: l => if x < k then (x, v) :: (k, w) :: l else (k, w) :: ains x v l

/-- The list with a key set to a value. -/
def aput {β : Type} (l : List (Nat × β)) (x : Nat) (v : β) : List (Nat × β) :=
  ains x v (adel l x)

/-- The list with a key set to a value, or removed. -/
def aset {β : Type} (l : List (Nat × β)) (x : Nat) : Option β → List (Nat × β)
  | some v => aput l x v
  | none => adel l x

/-- Every key of the list lies above a bound, and the keys rise strictly. -/
def arisingFrom {β : Type} : Nat → List (Nat × β) → Bool
  | _, [] => true
  | b, (k, _) :: l => decide (b ≤ k) && arisingFrom (k + 1) l

/-- The keys rise strictly: the canonical form. -/
def arising {β : Type} (l : List (Nat × β)) : Bool := arisingFrom 0 l

end Sys2Proof.Machine
end

