-- ==== Sys2Proof/Machine/RegTable.lean ====
section
/-! DEFINITION. The register tables of the spec as data: one list of rows per kind of page, taken from the
register tables of the chapters (R67, R78, R115-R119, R142, R188, R189, R209, R210, R232-R234, R257, R299,
R300, R325, R326, R346-R349, R377, R378, R405, R425-R430, R462-R465, R487-R490, R521). Each row gives its
first offset, the number of instances, their stride, the field names from high bits to low as the table
lists them, the masks of the field kinds of R72 and the reset value. Bits in no mask are RO, RO-H or
reserved: a write does not change them (R65, R72). -/

namespace Sys2Proof.Machine

/-- One row of a register table (R72). -/
structure RegRow where
  off : Nat
  count : Nat
  stride : Nat
  name : String
  rw : Word
  cnt : Word
  w1c : Word
  w1s : Word
  wp : Word
  reset : Word
deriving DecidableEq, Repr

/-- The common header of every allocated page (R67, R68, R78, R79). -/
def rowsHdr : List RegRow :=
  [⟨0x000, 1, 4, "PAGE_ID", 0x00000000, 0x00000000, 0x00000000, 0x00000000, 0x00000000, 0x00000000⟩,
   ⟨0x004, 1, 4, "PAGE_VER", 0x00000000, 0x00000000, 0x00000000, 0x00000000, 0x00000000, 0x00000100⟩,
   ⟨0x008, 1, 4, "CAPS", 0x00000000, 0x00000000, 0x00000000, 0x00000000, 0x00000000, 0x00000000⟩,
   ⟨0x00C, 1, 4, "SOFT_RESET/ENABLE", 0x00000001, 0x00000000, 0x00000000, 0x00000002, 0x00000000, 0x00000000⟩,
   ⟨0x010, 1, 4, "STATUS", 0x00000000, 0x00000000, 0x00000000, 0x00000000, 0x00000000, 0x00000000⟩,
   ⟨0x014, 1, 4, "IRQ_RAW", 0x00000000, 0x00000000, 0xFFFFFFFF, 0x00000000, 0x00000000, 0x00000000⟩,
   ⟨0x018, 1, 4, "IRQ_EN", 0xFFFFFFFF, 0x00000000, 0x00000000, 0x00000000, 0x00000000, 0x00000000⟩,
   ⟨0x01C, 1, 4, "IRQ_FORCE", 0x00000000, 0x00000000, 0x00000000, 0x00000000, 0xFFFFFFFF, 0x00000000⟩,
   ⟨0x020, 1, 4, "ERR_LOG_LO", 0x00000000, 0x00000000, 0x00000000, 0x00000000, 0x00000000, 0x00000000⟩,
   ⟨0x024, 1, 4, "ERR_LOG_HI", 0x00000000, 0x00000000, 0x00000000, 0x00000000, 0x00000000, 0x00000000⟩,
   ⟨0x028, 1, 4, "EPOCH/TIMEOUT_MS/OWNER/STATE/RENEW_RELEASE_ACQUIRE", 0x00FF0000, 0x00000000, 0x00000000, 0x00000000, 0x00000007, 0x00000000⟩,
   ⟨0x02C, 1, 4, "SNAP_OWNER/SNAP_VALID/SNAP_TAKE", 0x00000000, 0x00000000, 0x0000FF00, 0x00000000, 0x000000FF, 0x00000000⟩,
   ⟨0x030, 1, 4, "SCRATCH", 0xFFFFFFFF, 0x00000000, 0x00000000, 0x00000000, 0x00000000, 0x00000000⟩]

/-- Pages 0x000 (03_register_pages.md). -/
def rowsSys : List RegRow :=
  [⟨0x040, 1, 4, "SYS_ID", 0x00000000, 0x00000000, 0x00000000, 0x00000000, 0x00000000, 0x0A16A100⟩,
   ⟨0x044, 1, 4, "RESET_CAUSE", 0x00000000, 0x00000000, 0x000001FF, 0x00000000, 0x00000000, 0x00000000⟩]

/-- Pages 0x001 (18_firmware_boot_power.md). -/
def rowsClk : List RegRow :=
  [⟨0x040, 1, 4, "CHO_MAX_MHZ/CHO_MIN_MHZ", 0x07FF07FF, 0x00000000, 0x00000000, 0x00000000, 0x00000000, 0x04B00258⟩,
   ⟨0x044, 1, 4, "VEC_MAX_DUTY/VEC_MIN_DUTY", 0x00001F1F, 0x00000000, 0x00000000, 0x00000000, 0x00000000, 0x00001001⟩,
   ⟨0x048, 1, 4, "CHO_TGT_MHZ/VEC_DUTY/FAB_DUTY", 0x00000000, 0x00000000, 0x00000000, 0x00000000, 0x00000000, 0x10100258⟩]

/-- Pages 0x002 (18_firmware_boot_power.md). -/
def rowsPwr : List RegRow :=
  [⟨0x040, 1, 4, "PWR_CAP_MW", 0x0000FFFF, 0x00000000, 0x00000000, 0x00000000, 0x00000000, 0x00007530⟩,
   ⟨0x044, 1, 4, "VSENSE_MV/VCORE_TGT_MV", 0x00000000, 0x00000000, 0x00000000, 0x00000000, 0x00000000, 0x000002EE⟩,
   ⟨0x048, 1, 4, "PKG_MW", 0x00000000, 0x00000000, 0x00000000, 0x00000000, 0x00000000, 0x00000000⟩,
   ⟨0x04C, 1, 4, "AVS_MARGIN_PS", 0x00000000, 0x00000000, 0x00000000, 0x00000000, 0x00000000, 0x00000000⟩,
   ⟨0x050, 1, 4, "POLICY_CONFLICT/CAP_UNMET/PROT_ACTIVE/LAST_REASON", 0x00000000, 0x00000000, 0x80000000, 0x00000000, 0x00000000, 0x00000000⟩,
   ⟨0x054, 1, 4, "POLICY_RAISE", 0x00000000, 0x00000000, 0x00000000, 0x00000000, 0x000000FF, 0x00000000⟩,
   ⟨0x058, 5, 4, "CONFLICTS,CNT_TRIP,CNT_UV,CNT_LAMP_OT,CNT_CLAMPED", 0x00000000, 0xFFFFFFFF, 0x00000000, 0x00000000, 0x00000000, 0x00000000⟩,
   ⟨0x06C, 1, 4, "PSTATE", 0x00000000, 0x00000000, 0x00000000, 0x00000000, 0x00000000, 0x00000000⟩,
   ⟨0x070, 1, 4, "WAKE_EN", 0x0000000F, 0x00000000, 0x00000000, 0x00000000, 0x00000000, 0x00000000⟩,
   ⟨0x074, 1, 4, "WAKE_CAUSE", 0x00000000, 0x00000000, 0x00000000, 0x00000000, 0x00000000, 0x00000000⟩,
   ⟨0x078, 1, 4, "TB_ALARM_LO", 0xFFFFFFFF, 0x00000000, 0x00000000, 0x00000000, 0x00000000, 0x00000000⟩,
   ⟨0x07C, 1, 4, "TB_ALARM_HI", 0xFFFFFFFF, 0x00000000, 0x00000000, 0x00000000, 0x00000000, 0x00000000⟩,
   ⟨0x080, 1, 4, "SEQ_STATE", 0x00000000, 0x00000000, 0x00000000, 0x00000000, 0x00000000, 0x00000000⟩,
   ⟨0x084, 1, 4, "SEQ_FAULT", 0x00000000, 0x00000000, 0x00000000, 0x00000000, 0x00000000, 0x00000000⟩,
   ⟨0x088, 1, 4, "VR_DROPS", 0x00000000, 0xFFFFFFFF, 0x00000000, 0x00000000, 0x00000000, 0x00000000⟩,
   ⟨0x08C, 1, 4, "VR_VID_OUT", 0x00000000, 0x00000000, 0x00000000, 0x00000000, 0x00000000, 0x0000001E⟩]

/-- Pages 0x003 (18_firmware_boot_power.md). -/
def rowsTherm : List RegRow :=
  [⟨0x040, 8, 4, "TEMP_0-TEMP_7", 0x00000000, 0x00000000, 0x00000000, 0x00000000, 0x00000000, 0x00000000⟩,
   ⟨0x060, 1, 4, "TJ_MAX", 0x00000000, 0x00000000, 0x00000000, 0x00000000, 0x00000000, 0x00000000⟩,
   ⟨0x064, 1, 4, "T_LIMIT_DC", 0x0000FFFF, 0x00000000, 0x00000000, 0x00000000, 0x00000000, 0x000003E8⟩,
   ⟨0x068, 1, 4, "T_TRIP_DC", 0x00000000, 0x00000000, 0x00000000, 0x00000000, 0x00000000, 0x000004E2⟩,
   ⟨0x06C, 1, 4, "T_SHUT_DC", 0x00000000, 0x00000000, 0x00000000, 0x00000000, 0x00000000, 0x00000546⟩,
   ⟨0x070, 1, 4, "SENSOR_FAIL", 0x00000000, 0x00000000, 0x00000000, 0x00000000, 0x00000000, 0x00000000⟩]

/-- Pages 0x004 (19_faults_and_recovery.md). -/
def rowsVrga : List RegRow :=
  [⟨0x040, 1, 4, "LV_SEL", 0x0001FFFF, 0x00000000, 0x00000000, 0x00000000, 0x00000000, 0x00000000⟩,
   ⟨0x044, 1, 4, "LV_LO", 0x00000000, 0x00000000, 0x00000000, 0x00000000, 0x00000000, 0x00000000⟩,
   ⟨0x048, 1, 4, "LV_AGE_MS", 0x00000000, 0x00000000, 0x00000000, 0x00000000, 0x00000000, 0x00000000⟩,
   ⟨0x04C, 1, 4, "VRG_CMD", 0x00000000, 0x00000000, 0x00000000, 0x00000000, 0xFFFFFFFF, 0x00000000⟩,
   ⟨0x050, 4, 4, "REVOCATIONS,TIMEOUTS,OWNER_REVOKES,QUAR_STUCK", 0x00000000, 0xFFFFFFFF, 0x00000000, 0x00000000, 0x00000000, 0x00000000⟩,
   ⟨0x060, 1, 4, "LOCKS_HELD", 0x00000000, 0x00000000, 0x00000000, 0x00000000, 0x00000000, 0x00000000⟩]

/-- Pages 0x005 (19_faults_and_recovery.md). -/
def rowsVrgb : List RegRow :=
  [⟨0x040, 1, 4, "JRN_VALID_PAGE", 0x00000000, 0x00000000, 0x00000000, 0x00000000, 0x00000000, 0x00000000⟩,
   ⟨0x044, 1, 4, "JRN_LO", 0x00000000, 0x00000000, 0x00000000, 0x00000000, 0x00000000, 0x00000000⟩,
   ⟨0x048, 1, 4, "JRN_HI", 0x00000000, 0x00000000, 0x00000000, 0x00000000, 0x00000000, 0x00000000⟩,
   ⟨0x04C, 1, 4, "JRN_TB_LO", 0x00000000, 0x00000000, 0x00000000, 0x00000000, 0x00000000, 0x00000000⟩,
   ⟨0x050, 1, 4, "JRN_TB_HI", 0x00000000, 0x00000000, 0x00000000, 0x00000000, 0x00000000, 0x00000000⟩,
   ⟨0x054, 1, 4, "JRN_POP", 0x00000000, 0x00000000, 0x00000000, 0x00000000, 0x00000001, 0x00000000⟩,
   ⟨0x058, 1, 4, "JRN_LEVEL", 0x00000000, 0x00000000, 0x00000000, 0x00000000, 0x00000000, 0x00000000⟩,
   ⟨0x05C, 1, 4, "JRN_OVERFLOW", 0x00000000, 0xFFFFFFFF, 0x00000000, 0x00000000, 0x00000000, 0x00000000⟩,
   ⟨0x060, 1, 4, "UNIT_FAILED", 0x00000000, 0x00000000, 0x00000000, 0x00000000, 0x00000000, 0x00000000⟩,
   ⟨0x064, 1, 4, "UNIT_FAIL_SET", 0x00000000, 0x00000000, 0x00000000, 0x00000000, 0x000001FF, 0x00000000⟩,
   ⟨0x068, 1, 4, "RESET_REQ", 0x00000000, 0x00000000, 0x00000000, 0x00000000, 0xFFFFFFFF, 0x00000000⟩]

/-- Pages 0x008 (18_firmware_boot_power.md). -/
def rowsSacp : List RegRow :=
  [⟨0x040, 16, 4, "MB_REQ_0-MB_REQ_15", 0xFFFFFFFF, 0x00000000, 0x00000000, 0x00000000, 0x00000000, 0x00000000⟩,
   ⟨0x080, 16, 4, "MB_RSP_0-MB_RSP_15", 0x00000000, 0x00000000, 0x00000000, 0x00000000, 0x00000000, 0x00000000⟩,
   ⟨0x0C0, 1, 4, "MB_SEND", 0x00000000, 0x00000000, 0x00000000, 0x00000001, 0x00000000, 0x00000000⟩,
   ⟨0x0C4, 1, 4, "MB_READY/MB_IFACE/MODE/LIMITED_REASON/TAINT", 0x00000000, 0x00000000, 0x00000000, 0x00000000, 0x00000000, 0x00000000⟩,
   ⟨0x0C8, 1, 4, "SAC_FW_VER", 0x00000000, 0x00000000, 0x00000000, 0x00000000, 0x00000000, 0x00000000⟩,
   ⟨0x0CC, 1, 4, "PRC_IMG_VER", 0x00000000, 0x00000000, 0x00000000, 0x00000000, 0x00000000, 0x00000000⟩,
   ⟨0x0D0, 1, 4, "BOOT_CODE/PRC_CODE/BOOT_SRC/SLOT/SECURE", 0x00000000, 0x00000000, 0x00000000, 0x00000000, 0x00000000, 0x00000000⟩,
   ⟨0x0D4, 1, 4, "BOOT_GO", 0x00000000, 0x00000000, 0x00000000, 0x00000001, 0x00000000, 0x00000000⟩,
   ⟨0x0D8, 1, 4, "OVR", 0x00000000, 0x00000000, 0x00000000, 0x00000000, 0xFFFFFFFF, 0x00000000⟩,
   ⟨0x0DC, 1, 4, "OVR_FAILS", 0x00000000, 0xFFFFFFFF, 0x00000000, 0x00000000, 0x00000000, 0x00000000⟩,
   ⟨0x0E0, 1, 4, "RELOAD_PA_LO", 0xFFFFF000, 0x00000000, 0x00000000, 0x00000000, 0x00000000, 0x00000000⟩,
   ⟨0x0E4, 1, 4, "RELOAD_PA_HI", 0x0000FFFF, 0x00000000, 0x00000000, 0x00000000, 0x00000000, 0x00000000⟩,
   ⟨0x100, 1, 4, "WDT_EN/TIMEOUT_MS", 0x800003FF, 0x00000000, 0x00000000, 0x00000000, 0x00000000, 0x800003E8⟩,
   ⟨0x104, 1, 4, "WDT_KICK", 0x00000000, 0x00000000, 0x00000000, 0x00000000, 0xFFFFFFFF, 0x00000000⟩,
   ⟨0x108, 2, 4, "WDT_FIRES,WDT_BADKICK", 0x00000000, 0xFFFFFFFF, 0x00000000, 0x00000000, 0x00000000, 0x00000000⟩,
   ⟨0x110, 1, 4, "WDT_LEFT_MS", 0x00000000, 0x00000000, 0x00000000, 0x00000000, 0x00000000, 0x000003E8⟩]

/-- Pages 0x010 (13_precentor_frame_graph.md). -/
def rowsPrcc : List RegRow :=
  [⟨0x040, 1, 4, "RUN_1,RUN_0", 0x00000003, 0x00000000, 0x00000000, 0x00000000, 0x00000000, 0x00000000⟩,
   ⟨0x044, 1, 4, "HALTED_1,HALTED_0", 0x00000000, 0x00000000, 0x00000000, 0x00000000, 0x00000000, 0x00000000⟩,
   ⟨0x048, 1, 4, "FW_VER", 0x00000000, 0x00000000, 0x00000000, 0x00000000, 0x00000000, 0x00000000⟩,
   ⟨0x04C, 1, 4, "POS", 0x00000000, 0x00000000, 0x00000000, 0x00000000, 0x00000000, 0x00000000⟩,
   ⟨0x100, 64, 16, "SB_THRESH_LO", 0xFFFFFFFF, 0x00000000, 0x00000000, 0x00000000, 0x00000000, 0x00000000⟩,
   ⟨0x104, 64, 16, "SB_THRESH_HI", 0xFFFFFFFF, 0x00000000, 0x00000000, 0x00000000, 0x00000000, 0x00000000⟩,
   ⟨0x108, 64, 16, "SB_HIT/SB_ARM,SB_EVT", 0x000001FF, 0x00000000, 0x00000200, 0x00000000, 0x00000000, 0x00000000⟩]

/-- Pages 0x011 (07_command_lists.md). -/
def rowsPrce : List RegRow :=
  [⟨0x040, 512, 4, "EVT_n_LO,EVT_n_HI", 0x00000000, 0x00000000, 0x00000000, 0x00000000, 0x00000000, 0x00000000⟩,
   ⟨0x840, 1, 4, "EVT_SIG", 0x00000000, 0x00000000, 0x00000000, 0x00000000, 0xFFFFFFFF, 0x00000000⟩]

/-- Pages 0x018-0x01F (13_precentor_frame_graph.md). -/
def rowsGslot : List RegRow :=
  [⟨0x040, 1, 4, "IMG_PA_LO", 0xFFFFF000, 0x00000000, 0x00000000, 0x00000000, 0x00000000, 0x00000000⟩,
   ⟨0x044, 1, 4, "IMG_PA_HI", 0xFFFFFFFF, 0x00000000, 0x00000000, 0x00000000, 0x00000000, 0x00000000⟩,
   ⟨0x048, 1, 4, "ARENA_VA_LO", 0xFFFFFFFF, 0x00000000, 0x00000000, 0x00000000, 0x00000000, 0x00000000⟩,
   ⟨0x04C, 1, 4, "ARENA_VA_HI", 0xFFFFFFFF, 0x00000000, 0x00000000, 0x00000000, 0x00000000, 0x00000000⟩,
   ⟨0x050, 1, 4, "ARENA_SIZE", 0x00FFFFFF, 0x00000000, 0x00000000, 0x00000000, 0x00000000, 0x00000000⟩,
   ⟨0x054, 1, 4, "HOST_VA_LO", 0xFFFFFFFF, 0x00000000, 0x00000000, 0x00000000, 0x00000000, 0x00000000⟩,
   ⟨0x058, 1, 4, "HOST_VA_HI", 0xFFFFFFFF, 0x00000000, 0x00000000, 0x00000000, 0x00000000, 0x00000000⟩,
   ⟨0x05C, 1, 4, "HOST_SIZE", 0x00FFFFFF, 0x00000000, 0x00000000, 0x00000000, 0x00000000, 0x00000000⟩,
   ⟨0x060, 1, 4, "GCTX/DESC_SLOT0/EVT_BASE", 0xFFFF00FF, 0x00000000, 0x00000000, 0x00000000, 0x00000000, 0x00000000⟩,
   ⟨0x064, 1, 4, "NEXT_EN/NEXT_SLOT/FREE", 0x00000F01, 0x00000000, 0x00000000, 0x00000000, 0x00000000, 0x00000000⟩,
   ⟨0x068, 1, 4, "PERIOD_NS", 0xFFFFFFFF, 0x00000000, 0x00000000, 0x00000000, 0x00000000, 0x00000000⟩,
   ⟨0x06C, 1, 4, "FIRE_NS", 0xFFFFFFFF, 0x00000000, 0x00000000, 0x00000000, 0x00000000, 0x00000000⟩,
   ⟨0x070, 1, 4, "T_START_LO", 0xFFFFFFFF, 0x00000000, 0x00000000, 0x00000000, 0x00000000, 0x00000000⟩,
   ⟨0x074, 1, 4, "T_START_HI", 0xFFFFFFFF, 0x00000000, 0x00000000, 0x00000000, 0x00000000, 0x00000000⟩,
   ⟨0x078, 1, 4, "UNLOAD,ABORT,STOP,START,LOAD", 0x00000000, 0x00000000, 0x00000000, 0x00000000, 0x0000001F, 0x00000000⟩,
   ⟨0x07C, 1, 4, "BUSY/CODE", 0x00000000, 0x00000000, 0x00000000, 0x00000000, 0x00000000, 0x00000000⟩,
   ⟨0x080, 1, 4, "HEAD/ACTIVE_PLACE/GSTATE", 0x00000000, 0x00000000, 0x00000000, 0x00000000, 0x00000000, 0x00000000⟩,
   ⟨0x084, 1, 4, "STEPS", 0x00000000, 0xFFFFFFFF, 0x00000000, 0x00000000, 0x00000000, 0x00000000⟩,
   ⟨0x088, 1, 4, "ADMITTED", 0x00000000, 0xFFFFFFFF, 0x00000000, 0x00000000, 0x00000000, 0x00000000⟩,
   ⟨0x08C, 1, 4, "COMMITTED", 0x00000000, 0x00000000, 0x00000000, 0x00000000, 0x00000000, 0x00000000⟩,
   ⟨0x090, 1, 4, "ABANDONED", 0x00000000, 0xFFFFFFFF, 0x00000000, 0x00000000, 0x00000000, 0x00000000⟩,
   ⟨0x094, 4, 4, "SKIP_SLOT,SKIP_HOST,SKIP_SWITCH,SKIP_LATE", 0x00000000, 0xFFFFFFFF, 0x00000000, 0x00000000, 0x00000000, 0x00000000⟩,
   ⟨0x0A4, 1, 4, "LAST_SKIP_STEP", 0x00000000, 0x00000000, 0x00000000, 0x00000000, 0x00000000, 0x00000000⟩,
   ⟨0x0A8, 1, 4, "OUT_ACK", 0x00000000, 0x00000000, 0x00000000, 0x00000000, 0x0000FFFF, 0x00000000⟩,
   ⟨0x0AC, 1, 4, "OUT_ACKED", 0x00000000, 0x00000000, 0x00000000, 0x00000000, 0x00000000, 0x00000000⟩,
   ⟨0x0B0, 1, 4, "IN_POST", 0x00000000, 0x00000000, 0x00000000, 0x00000000, 0x0000FFFF, 0x00000000⟩,
   ⟨0x0B4, 2, 4, "SWITCHES,REPLAYED", 0x00000000, 0xFFFFFFFF, 0x00000000, 0x00000000, 0x00000000, 0x00000000⟩]

/-- Pages 0x020-0x023 (09_narthex_camera_front.md). -/
def rowsCam : List RegRow :=
  [⟨0x040, 1, 4, "PIPE_MODE/DE_USED,VS_LOW,HS_LOW,DE_LOW,PCLK_FALL,TRIGGERED/PIX_BITS/CFA/NTX_CTX", 0xFF07700F, 0x00000000, 0x00000000, 0x00000000, 0x00000000, 0x00020000⟩,
   ⟨0x044, 1, 4, "ACT_H/ACT_W", 0x1FFF1FFF, 0x00000000, 0x00000000, 0x00000000, 0x00000000, 0x00000000⟩,
   ⟨0x048, 1, 4, "V_START/H_START", 0x0FFF0FFF, 0x00000000, 0x00000000, 0x00000000, 0x00000000, 0x00000000⟩,
   ⟨0x04C, 1, 4, "STRIPE_LINES/RAW_HANDLE", 0x07FFFFFF, 0x00000000, 0x00000000, 0x00000000, 0x00000000, 0x00000000⟩,
   ⟨0x050, 1, 4, "TRIG_WINDOW", 0x000FFFFF, 0x00000000, 0x00000000, 0x00000000, 0x00000000, 0x000186A0⟩,
   ⟨0x054, 1, 4, "EVT_EN/PIPE_EVT/CAP_EVT", 0x8000FFFF, 0x00000000, 0x00000000, 0x00000000, 0x00000000, 0x00000000⟩,
   ⟨0x058, 1, 4, "TRIG_SW/RST_ASSERT", 0x00000001, 0x00000000, 0x00000000, 0x00000000, 0x00000002, 0x00000001⟩,
   ⟨0x060, 1, 4, "FRAME_NUM", 0x00000000, 0x00000000, 0x00000000, 0x00000000, 0x00000000, 0x00000000⟩,
   ⟨0x064, 1, 4, "PCLK_CNT/LAST_STATUS", 0x00000000, 0x00000000, 0x00000000, 0x00000000, 0x00000000, 0x00000000⟩,
   ⟨0x068, 6, 4, "FRAMES_OK,FRAMES_ERR,FRAMES_DROPPED,TRIG_MISSED,UNTRIGGERED,OVERRUNS", 0x00000000, 0xFFFFFFFF, 0x00000000, 0x00000000, 0x00000000, 0x00000000⟩]

/-- Pages 0x024 (09_narthex_camera_front.md). -/
def rowsPipe : List RegRow :=
  [⟨0x040, 2, 4, "BUSY_CYCLES,CTX_SWITCHES", 0x00000000, 0xFFFFFFFF, 0x00000000, 0x00000000, 0x00000000, 0x00000000⟩,
   ⟨0x080, 4, 64, "DEF_DYN,DEF_STATIC,SHADE_EN,DEMOSAIC_EN/TAP_EN/SHADE_SHIFT", 0xFF00000F, 0x00000000, 0x00000000, 0x00000000, 0x00000000, 0x00000006⟩,
   ⟨0x084, 4, 64, "BL_1,BL_0", 0xFFFFFFFF, 0x00000000, 0x00000000, 0x00000000, 0x00000000, 0x00000000⟩,
   ⟨0x088, 4, 64, "BL_3,BL_2", 0xFFFFFFFF, 0x00000000, 0x00000000, 0x00000000, 0x00000000, 0x00000000⟩,
   ⟨0x08C, 4, 64, "DEF_THRESH", 0x0000FFFF, 0x00000000, 0x00000000, 0x00000000, 0x00000000, 0x0000FFFF⟩,
   ⟨0x090, 4, 64, "DEF_MAP_LO", 0xFFFFFFFF, 0x00000000, 0x00000000, 0x00000000, 0x00000000, 0x00000000⟩,
   ⟨0x094, 4, 64, "DEF_MAP_HI", 0x0000007F, 0x00000000, 0x00000000, 0x00000000, 0x00000000, 0x00000000⟩,
   ⟨0x098, 4, 64, "SHADE_MAP_LO", 0xFFFFFFFF, 0x00000000, 0x00000000, 0x00000000, 0x00000000, 0x00000000⟩,
   ⟨0x09C, 4, 64, "SHADE_MAP_HI", 0x0000007F, 0x00000000, 0x00000000, 0x00000000, 0x00000000, 0x00000000⟩,
   ⟨0x0A0, 4, 64, "TAP_BLD_H,TAP_RAW_H", 0xFFFFFFFF, 0x00000000, 0x00000000, 0x00000000, 0x00000000, 0x00000000⟩,
   ⟨0x0A4, 4, 64, "TAP_OUT_H,TAP_SHD_H", 0xFFFFFFFF, 0x00000000, 0x00000000, 0x00000000, 0x00000000, 0x00000000⟩]

/-- Pages 0x025 (09_narthex_camera_front.md). -/
def rowsStat : List RegRow :=
  [⟨0x080, 4, 32, "STAT_REC_LO", 0xFFFFF000, 0x00000000, 0x00000000, 0x00000000, 0x00000000, 0x00000000⟩,
   ⟨0x084, 4, 32, "STAT_REC_HI", 0x0000007F, 0x00000000, 0x00000000, 0x00000000, 0x00000000, 0x00000000⟩,
   ⟨0x088, 4, 32, "STAT_EN/STAT_RECSIZE", 0x8000000F, 0x00000000, 0x00000000, 0x00000000, 0x00000000, 0x00000002⟩,
   ⟨0x08C, 4, 32, "SHARP_CORE/SHARP_SHIFT", 0xFFFF000F, 0x00000000, 0x00000000, 0x00000000, 0x00000000, 0x00000000⟩]

/-- Pages 0x026 (08_lanterns_and_codes.md). -/
def rowsDmd : List RegRow :=
  [⟨0x040, 1, 4, "DMD_CTX", 0x0000000F, 0x00000000, 0x00000000, 0x00000000, 0x00000000, 0x00000000⟩,
   ⟨0x080, 4, 32, "DMD_REC_LO", 0xFFFFF000, 0x00000000, 0x00000000, 0x00000000, 0x00000000, 0x00000000⟩,
   ⟨0x084, 4, 32, "DMD_REC_HI", 0x0000007F, 0x00000000, 0x00000000, 0x00000000, 0x00000000, 0x00000000⟩,
   ⟨0x088, 4, 32, "RECSIZE/FLOOD_THRESH", 0xF0FFFFFF, 0x00000000, 0x00000000, 0x00000000, 0x00000000, 0x40FFFFFF⟩,
   ⟨0x08C, 4, 32, "IN_SHIFT/SAT_LEVEL", 0x0007FFFF, 0x00000000, 0x00000000, 0x00000000, 0x00000000, 0x0000FFFF⟩,
   ⟨0x094, 4, 32, "FLOODS", 0x00000000, 0xFFFFFFFF, 0x00000000, 0x00000000, 0x00000000, 0x00000000⟩,
   ⟨0x098, 4, 32, "INCOMPLETES", 0x00000000, 0xFFFFFFFF, 0x00000000, 0x00000000, 0x00000000, 0x00000000⟩,
   ⟨0x09C, 4, 32, "DISCARDED", 0x00000000, 0xFFFFFFFF, 0x00000000, 0x00000000, 0x00000000, 0x00000000⟩]

/-- Pages 0x027 (08_lanterns_and_codes.md). -/
def rowsLis : List RegRow :=
  [⟨0x040, 1, 4, "LIS_FIRE", 0x00000000, 0x00000000, 0x00000000, 0x00000000, 0x0000000F, 0x00000000⟩,
   ⟨0x080, 4, 64, "SLIDING/TRIG_LOW/ROT_LEN_M1/ROT/PORT_MASK/STB_MASK", 0xF0FFFFFF, 0x00000000, 0x00000000, 0x00000000, 0x00000000, 0x00000000⟩,
   ⟨0x084, 4, 64, "TRIG_DELAY/TRIG_WIDTH", 0xFFFFFFFF, 0x00000000, 0x00000000, 0x00000000, 0x00000000, 0x00000064⟩,
   ⟨0x088, 4, 64, "STB_DELAY", 0x0000FFFF, 0x00000000, 0x00000000, 0x00000000, 0x00000000, 0x00000000⟩,
   ⟨0x08C, 4, 64, "STB_WIDTH", 0x000FFFFF, 0x00000000, 0x00000000, 0x00000000, 0x00000000, 0x00000000⟩,
   ⟨0x090, 4, 64, "AE_EN/AE_E", 0x800FFFFF, 0x00000000, 0x00000000, 0x00000000, 0x00000000, 0x00000000⟩,
   ⟨0x094, 4, 64, "AE_E_MIN", 0x000FFFFF, 0x00000000, 0x00000000, 0x00000000, 0x00000000, 0x00000000⟩,
   ⟨0x098, 4, 64, "AE_E_MAX", 0x000FFFFF, 0x00000000, 0x00000000, 0x00000000, 0x00000000, 0x00030D40⟩,
   ⟨0x09C, 4, 64, "STB_MARGIN/AE_TARGET", 0xFFFFFFFF, 0x00000000, 0x00000000, 0x00000000, 0x00000000, 0x00000000⟩,
   ⟨0x0A0, 4, 64, "AE_SAT_MAX", 0xFFFFFFFF, 0x00000000, 0x00000000, 0x00000000, 0x00000000, 0xFFFFFFFF⟩,
   ⟨0x0A4, 4, 64, "LAST_FLOODED/ROT_POS/CHIP/CODE_INDEX", 0x00000000, 0x00000000, 0x00000000, 0x00000000, 0x00000000, 0x00000000⟩,
   ⟨0x0A8, 4, 64, "FIRES", 0x00000000, 0xFFFFFFFF, 0x00000000, 0x00000000, 0x00000000, 0x00000000⟩,
   ⟨0x0AC, 4, 64, "REFUSED", 0x00000000, 0xFFFFFFFF, 0x00000000, 0x00000000, 0x00000000, 0x00000000⟩,
   ⟨0x0B0, 4, 64, "STB_FAULT", 0x00000000, 0x00000000, 0x000000FF, 0x00000000, 0x00000000, 0x00000000⟩]

/-- Pages 0x030-0x034 (10_pyramid_warp_features.md). -/
def rowsVec : List RegRow :=
  [⟨0x040, 6, 4, "BUSY_CYCLES,PX_DONE,STALL_CYCLES,LB_PARITY,ENG_COUNT_A,ENG_COUNT_B", 0x00000000, 0xFFFFFFFF, 0x00000000, 0x00000000, 0x00000000, 0x00000000⟩]

/-- Pages 0x040-0x05F (12_choir_neural_engine.md). -/
def rowsStall : List RegRow :=
  [⟨0x040, 6, 4, "TILES,BUSY_CYCLES,RESIDUE_ERR,ACC_PARITY_ERR,SRAM_CE,SRAM_UE", 0x00000000, 0xFFFFFFFF, 0x00000000, 0x00000000, 0x00000000, 0x00000000⟩,
   ⟨0x058, 1, 4, "REDIRECT", 0x00000000, 0x00000000, 0x00000000, 0x00000000, 0x00000000, 0x00000000⟩,
   ⟨0x05C, 1, 4, "SUSPECT_CLR", 0x00000000, 0x00000000, 0x00000000, 0x00000000, 0x00000001, 0x00000000⟩]

/-- Pages 0x060 (12_choir_neural_engine.md). -/
def rowsCho : List RegRow :=
  [⟨0x040, 1, 4, "ALLOWED", 0xFFFFFFFF, 0x00000000, 0x00000000, 0x00000000, 0x00000000, 0xFFFFFFFF⟩,
   ⟨0x044, 1, 4, "IN_SERVICE", 0x00000000, 0x00000000, 0x00000000, 0x00000000, 0x00000000, 0x3FFFFFFF⟩,
   ⟨0x048, 1, 4, "RETIRE_REQ", 0x00000000, 0x00000000, 0x00000000, 0xFFFFFFFF, 0x00000000, 0x00000000⟩,
   ⟨0x04C, 1, 4, "CHO_MHZ", 0x00000000, 0x00000000, 0x00000000, 0x00000000, 0x00000000, 0x00000258⟩,
   ⟨0x050, 3, 4, "REMAPS,TILE_RETRIES,TILE_FAILS", 0x00000000, 0xFFFFFFFF, 0x00000000, 0x00000000, 0x00000000, 0x00000000⟩,
   ⟨0x060, 8, 4, "GRP_N_g/GRP_FIRST_g", 0x001F001F, 0x00000000, 0x00000000, 0x00000000, 0x00000000, 0x00000000⟩,
   ⟨0x080, 30, 4, "VACANT/PHYS", 0x00000000, 0x00000000, 0x00000000, 0x00000000, 0x00000000, 0x00000000⟩]

/-- Pages 0x070 (04_cloister_and_rood.md). -/
def rowsCls : List RegRow :=
  [⟨0x040, 1, 4, "CLS_RETIRE", 0x0FFFFFFF, 0x00000000, 0x00000000, 0x00000000, 0x00000000, 0x00000000⟩,
   ⟨0x044, 1, 4, "CLS_CAP", 0x00000000, 0x00000000, 0x00000000, 0x00000000, 0x00000000, 0x00000800⟩,
   ⟨0x080, 64, 4, "CLS_SKEW_0-CLS_SKEW_63", 0xFFFFFFFF, 0x00000000, 0x00000000, 0x00000000, 0x00000000, 0x00000000⟩]

/-- Pages 0x071 (04_cloister_and_rood.md). -/
def rowsEcc : List RegRow :=
  [⟨0x040, 1, 4, "SCRUB_EN/SCRUB_INTERVAL", 0x8000FFFF, 0x00000000, 0x00000000, 0x00000000, 0x00000000, 0x800003E8⟩,
   ⟨0x044, 4, 4, "CE_COUNT,UE_COUNT,POISON_READS,SCRUB_PASSES", 0x00000000, 0xFFFFFFFF, 0x00000000, 0x00000000, 0x00000000, 0x00000000⟩,
   ⟨0x054, 1, 4, "LAST_CE", 0x00000000, 0x00000000, 0x00000000, 0x00000000, 0x00000000, 0x00000000⟩,
   ⟨0x058, 1, 4, "LAST_UE", 0x00000000, 0x00000000, 0x00000000, 0x00000000, 0x00000000, 0x00000000⟩,
   ⟨0x080, 64, 4, "BANK_CE_0-BANK_CE_63", 0x00000000, 0x0000FFFF, 0x00000000, 0x00000000, 0x00000000, 0x00000000⟩]

/-- Pages 0x072 (04_cloister_and_rood.md). -/
def rowsRoodc : List RegRow :=
  [⟨0x040, 16, 32, "FAULTED/INVAL/ENABLE", 0x00000001, 0x00000000, 0x00000004, 0x00000002, 0x00000000, 0x00000000⟩,
   ⟨0x048, 16, 32, "CTX_ROOT_LO", 0xFFFFF000, 0x00000000, 0x00000000, 0x00000000, 0x00000000, 0x00000000⟩,
   ⟨0x04C, 16, 32, "CTX_ROOT_HI", 0x0000FFFF, 0x00000000, 0x00000000, 0x00000000, 0x00000000, 0x00000000⟩,
   ⟨0x050, 16, 32, "CTX_FAULTS", 0x00000000, 0xFFFFFFFF, 0x00000000, 0x00000000, 0x00000000, 0x00000000⟩,
   ⟨0x300, 1, 4, "BAR2_CTX", 0x0000000F, 0x00000000, 0x00000000, 0x00000000, 0x00000000, 0x00000000⟩]

/-- Pages 0x073 (04_cloister_and_rood.md). -/
def rowsRoodr : List RegRow :=
  [⟨0x040, 1, 4, "RGN_BASE_LO", 0xFFFFFFFF, 0x00000000, 0x00000000, 0x00000000, 0x00000000, 0x00000000⟩,
   ⟨0x044, 1, 4, "RGN_BASE_HI", 0x0000007F, 0x00000000, 0x00000000, 0x00000000, 0x00000000, 0x00000000⟩,
   ⟨0x048, 1, 4, "RGN_SIZE_LO", 0xFFFFFFFF, 0x00000000, 0x00000000, 0x00000000, 0x00000000, 0x00000000⟩,
   ⟨0x04C, 1, 4, "RGN_SIZE_HI", 0x0000007F, 0x00000000, 0x00000000, 0x00000000, 0x00000000, 0x00000000⟩,
   ⟨0x050, 1, 4, "SKEWED/X,W,R/CONTEXT", 0x0000017F, 0x00000000, 0x00000000, 0x00000000, 0x00000000, 0x00000000⟩,
   ⟨0x054, 1, 4, "FREE,REGISTER", 0x00000000, 0x00000000, 0x00000000, 0x00000000, 0x00000003, 0x00000000⟩,
   ⟨0x058, 1, 4, "BUSY/HANDLE/CODE", 0x00000000, 0x00000000, 0x00000000, 0x00000000, 0x00000000, 0x00000000⟩,
   ⟨0x05C, 1, 4, "RGN_FREE_HANDLE", 0x000003FF, 0x00000000, 0x00000000, 0x00000000, 0x00000000, 0x00000000⟩,
   ⟨0x060, 1, 4, "RGN_COUNT", 0x00000000, 0x00000000, 0x00000000, 0x00000000, 0x00000000, 0x00000000⟩,
   ⟨0x100, 1, 4, "FLT_VA_LO", 0x00000000, 0x00000000, 0x00000000, 0x00000000, 0x00000000, 0x00000000⟩,
   ⟨0x104, 1, 4, "FLT_VA_HI", 0x00000000, 0x00000000, 0x00000000, 0x00000000, 0x00000000, 0x00000000⟩,
   ⟨0x108, 1, 4, "FLT_INFO", 0x00000000, 0x00000000, 0x00000000, 0x00000000, 0x00000000, 0x00000000⟩,
   ⟨0x10C, 1, 4, "FLT_TIME_LO", 0x00000000, 0x00000000, 0x00000000, 0x00000000, 0x00000000, 0x00000000⟩,
   ⟨0x110, 1, 4, "FLT_TIME_HI", 0x00000000, 0x00000000, 0x00000000, 0x00000000, 0x00000000, 0x00000000⟩,
   ⟨0x114, 1, 4, "FLT_POP", 0x00000000, 0x00000000, 0x00000000, 0x00000000, 0x00000001, 0x00000000⟩,
   ⟨0x118, 1, 4, "FLT_LEVEL", 0x00000000, 0x00000000, 0x00000000, 0x00000000, 0x00000000, 0x00000000⟩,
   ⟨0x11C, 1, 4, "FLT_OVERFLOW", 0x00000000, 0xFFFFFFFF, 0x00000000, 0x00000000, 0x00000000, 0x00000000⟩,
   ⟨0x200, 16, 4, "DESC_STAGE_0-DESC_STAGE_15", 0xFFFFFFFF, 0x00000000, 0x00000000, 0x00000000, 0x00000000, 0x00000000⟩,
   ⟨0x240, 1, 4, "DESC_HANDLE", 0x0000FFFF, 0x00000000, 0x00000000, 0x00000000, 0x00000000, 0x00000000⟩,
   ⟨0x244, 1, 4, "READ,DESTROY,CREATE", 0x00000000, 0x00000000, 0x00000000, 0x00000000, 0x00000007, 0x00000000⟩,
   ⟨0x248, 1, 4, "DESC_BUSY/DESC_CODE", 0x00000000, 0x00000000, 0x00000000, 0x00000000, 0x00000000, 0x00000000⟩,
   ⟨0x24C, 1, 4, "DESC_COUNT", 0x00000000, 0x00000000, 0x00000000, 0x00000000, 0x00000000, 0x00000000⟩,
   ⟨0x250, 1, 4, "DESC_CE", 0x00000000, 0xFFFFFFFF, 0x00000000, 0x00000000, 0x00000000, 0x00000000⟩]

/-- Pages 0x088 (04_cloister_and_rood.md). -/
def rowsLp5x : List RegRow :=
  [⟨0x040, 1, 4, "INLINE_ECC/LINK_ECC/WCK_ALWAYS_ON/CHAN_MASK/RANKS/DENSITY/SPEED", 0xE000FF3F, 0x00000000, 0x00000000, 0x00000000, 0x00000000, 0x2000FF00⟩,
   ⟨0x044, 1, 4, "LP5X_CAP", 0x00000000, 0x00000000, 0x00000000, 0x00000000, 0x00000000, 0x00000000⟩,
   ⟨0x048, 4, 4, "LINK_ECC_CE,INLINE_CE,INLINE_UE,POISON_REFUSED", 0x00000000, 0xFFFFFFFF, 0x00000000, 0x00000000, 0x00000000, 0x00000000⟩]

/-- Pages 0x090 (14_dma.md). -/
def rowsDmac : List RegRow :=
  [⟨0x040, 1, 4, "BE_ADDR_LO", 0x00000000, 0x00000000, 0x00000000, 0x00000000, 0x00000000, 0x00000000⟩,
   ⟨0x044, 1, 4, "BE_ADDR_HI", 0x00000000, 0x00000000, 0x00000000, 0x00000000, 0x00000000, 0x00000000⟩,
   ⟨0x048, 1, 4, "BE_INFO", 0x00000000, 0x00000000, 0x00000000, 0x00000000, 0x00000000, 0x00000000⟩,
   ⟨0x04C, 1, 4, "BE_LOST", 0x00000000, 0xFFFFFFFF, 0x00000000, 0x00000000, 0x00000000, 0x00000000⟩,
   ⟨0x050, 1, 4, "HALTS", 0x00000000, 0xFFFFFFFF, 0x00000000, 0x00000000, 0x00000000, 0x00000000⟩,
   ⟨0x054, 1, 4, "RUNNING", 0x00000000, 0x00000000, 0x00000000, 0x00000000, 0x00000000, 0x00000000⟩]

/-- Pages 0x091-0x098 (14_dma.md). -/
def rowsDmap : List RegRow :=
  [⟨0x040, 1, 4, "SRC_LO", 0xFFFFFFFF, 0x00000000, 0x00000000, 0x00000000, 0x00000000, 0x00000000⟩,
   ⟨0x044, 1, 4, "SRC_HI", 0x0000007F, 0x00000000, 0x00000000, 0x00000000, 0x00000000, 0x00000000⟩,
   ⟨0x048, 1, 4, "DST_LO", 0xFFFFFFFF, 0x00000000, 0x00000000, 0x00000000, 0x00000000, 0x00000000⟩,
   ⟨0x04C, 1, 4, "DST_HI", 0x0000007F, 0x00000000, 0x00000000, 0x00000000, 0x00000000, 0x00000000⟩,
   ⟨0x050, 1, 4, "COUNT", 0xFFFFFFFF, 0x00000000, 0x00000000, 0x00000000, 0x00000000, 0x00000000⟩,
   ⟨0x054, 1, 4, "DST_FIX/SRC_FIX/CIRCULAR/ESIZE/CTX", 0x000003BF, 0x00000000, 0x00000000, 0x00000000, 0x00000000, 0x00000030⟩,
   ⟨0x100, 1, 4, "STOP/START", 0x00000000, 0x00000000, 0x00000000, 0x00000003, 0x00000000, 0x00000000⟩,
   ⟨0x104, 1, 4, "DONE_BYTES", 0x00000000, 0x00000000, 0x00000000, 0x00000000, 0x00000000, 0x00000000⟩,
   ⟨0x108, 1, 4, "PASSES", 0x00000000, 0xFFFFFFFF, 0x00000000, 0x00000000, 0x00000000, 0x00000000⟩,
   ⟨0x10C, 1, 4, "POISON_COPIED", 0x00000000, 0xFFFFFFFF, 0x00000000, 0x00000000, 0x00000000, 0x00000000⟩,
   ⟨0x110, 1, 4, "MIS_FIELD/CH_ERR/CH_STATE", 0x00000000, 0x00000000, 0x00000000, 0x00000000, 0x00000000, 0x00000000⟩]

/-- Pages 0x099-0x0A0 (14_dma.md). -/
def rowsDmat : List RegRow :=
  [⟨0x040, 1, 4, "SRC_LO", 0xFFFFFFFF, 0x00000000, 0x00000000, 0x00000000, 0x00000000, 0x00000000⟩,
   ⟨0x044, 1, 4, "SRC_HI", 0x0000007F, 0x00000000, 0x00000000, 0x00000000, 0x00000000, 0x00000000⟩,
   ⟨0x048, 1, 4, "DST_LO", 0xFFFFFFFF, 0x00000000, 0x00000000, 0x00000000, 0x00000000, 0x00000000⟩,
   ⟨0x04C, 1, 4, "DST_HI", 0x0000007F, 0x00000000, 0x00000000, 0x00000000, 0x00000000, 0x00000000⟩,
   ⟨0x050, 1, 4, "N0_M1", 0x0000FFFF, 0x00000000, 0x00000000, 0x00000000, 0x00000000, 0x00000000⟩,
   ⟨0x054, 1, 4, "N2_M1,N1_M1", 0xFFFFFFFF, 0x00000000, 0x00000000, 0x00000000, 0x00000000, 0x00000000⟩,
   ⟨0x058, 1, 4, "CIRCULAR/ESIZE/CTX", 0x000000BF, 0x00000000, 0x00000000, 0x00000000, 0x00000000, 0x00000030⟩,
   ⟨0x05C, 6, 4, "SRC_S0,SRC_S1,SRC_S2,DST_S0,DST_S1,DST_S2", 0xFFFFFFFF, 0x00000000, 0x00000000, 0x00000000, 0x00000000, 0x00000000⟩,
   ⟨0x0C0, 1, 4, "SH_SRC_LO", 0xFFFFFFFF, 0x00000000, 0x00000000, 0x00000000, 0x00000000, 0x00000000⟩,
   ⟨0x0C4, 1, 4, "SH_SRC_HI", 0x0000007F, 0x00000000, 0x00000000, 0x00000000, 0x00000000, 0x00000000⟩,
   ⟨0x0C8, 1, 4, "SH_DST_LO", 0xFFFFFFFF, 0x00000000, 0x00000000, 0x00000000, 0x00000000, 0x00000000⟩,
   ⟨0x0CC, 1, 4, "SH_DST_HI", 0x0000007F, 0x00000000, 0x00000000, 0x00000000, 0x00000000, 0x00000000⟩,
   ⟨0x0D0, 1, 4, "SH_N0_M1", 0x0000FFFF, 0x00000000, 0x00000000, 0x00000000, 0x00000000, 0x00000000⟩,
   ⟨0x0D4, 1, 4, "SH_N2_M1,SH_N1_M1", 0xFFFFFFFF, 0x00000000, 0x00000000, 0x00000000, 0x00000000, 0x00000000⟩,
   ⟨0x0D8, 1, 4, "SH_CIRCULAR/SH_ESIZE/SH_CTX", 0x000000BF, 0x00000000, 0x00000000, 0x00000000, 0x00000000, 0x00000030⟩,
   ⟨0x0DC, 6, 4, "SH_SRC_S0-SH_DST_S2", 0xFFFFFFFF, 0x00000000, 0x00000000, 0x00000000, 0x00000000, 0x00000000⟩,
   ⟨0x100, 1, 4, "SHADOW_ARM/STOP/START", 0x00000000, 0x00000000, 0x00000000, 0x00000007, 0x00000000, 0x00000000⟩,
   ⟨0x104, 1, 4, "DONE_BYTES", 0x00000000, 0x00000000, 0x00000000, 0x00000000, 0x00000000, 0x00000000⟩,
   ⟨0x108, 1, 4, "PASSES", 0x00000000, 0xFFFFFFFF, 0x00000000, 0x00000000, 0x00000000, 0x00000000⟩,
   ⟨0x10C, 1, 4, "POISON_COPIED", 0x00000000, 0xFFFFFFFF, 0x00000000, 0x00000000, 0x00000000, 0x00000000⟩,
   ⟨0x110, 1, 4, "MIS_FIELD/CH_ERR/CH_STATE", 0x00000000, 0x00000000, 0x00000000, 0x00000000, 0x00000000, 0x00000000⟩]

/-- Pages 0x0B0-0x0B3 (15_ronsan_link.md). -/
def rowsRlk : List RegRow :=
  [⟨0x040, 1, 4, "NEAR_LOOP,PRBS_CHK,PRBS_TX,PORT_EN", 0x0000000F, 0x00000000, 0x00000000, 0x00000000, 0x00000000, 0x00000000⟩,
   ⟨0x044, 1, 4, "PEER_VALID/PEER_PORT/PEER_POS/PORT_STATE", 0x00000000, 0x00000000, 0x00000000, 0x00000000, 0x00000000, 0x00000000⟩,
   ⟨0x048, 1, 4, "SKEW/INV_1,MARK_LOCK_1,CDR_LOCK_1/INV_0,MARK_LOCK_0,CDR_LOCK_0", 0x00000000, 0x00000000, 0x00000000, 0x00000000, 0x00000000, 0x00000000⟩,
   ⟨0x04C, 7, 4, "CRC_ERRS,NAKS,REPLAYS,RETRAINS,TRAIN_FAIL,DOWNS,PRBS_ERRS", 0x00000000, 0xFFFFFFFF, 0x00000000, 0x00000000, 0x00000000, 0x00000000⟩,
   ⟨0x068, 5, 4, "CREDITS_VC0-CREDITS_VC4", 0x00000000, 0x00000000, 0x00000000, 0x00000000, 0x00000000, 0x00000000⟩,
   ⟨0x07C, 1, 4, "REPLAY_LEVEL", 0x00000000, 0x00000000, 0x00000000, 0x00000000, 0x00000000, 0x00000000⟩]

/-- Pages 0x0B4 (15_ronsan_link.md). -/
def rowsLxe : List RegRow :=
  [⟨0x040, 1, 4, "EXPECT_M1/TOPO/HEAD/CHAPTER_EN", 0x00000077, 0x00000000, 0x00000000, 0x00000000, 0x00000000, 0x00000000⟩,
   ⟨0x044, 1, 4, "LIVE/MEMBERS/SIZE/POS_VALID/POS/CH_STATE", 0x00000000, 0x00000000, 0x00000000, 0x00000000, 0x00000000, 0x01011100⟩,
   ⟨0x048, 1, 4, "LOST", 0x00000000, 0x00000000, 0x000000FF, 0x00000000, 0x00000000, 0x00000000⟩,
   ⟨0x04C, 1, 4, "FENCED", 0x00000000, 0x00000000, 0x00000000, 0x00000000, 0x00000000, 0x00000000⟩,
   ⟨0x050, 1, 4, "LINK_MAP", 0x00000000, 0x00000000, 0x00000000, 0x00000000, 0x00000000, 0x00000000⟩,
   ⟨0x054, 1, 4, "LINK_EPOCH", 0x00000000, 0x00000000, 0x00000000, 0x00000000, 0x00000000, 0x00000000⟩,
   ⟨0x058, 1, 4, "TS_OFFSET", 0x00000000, 0x00000000, 0x00000000, 0x00000000, 0x00000000, 0x00000000⟩,
   ⟨0x05C, 1, 4, "HOPS/TS_LOCK", 0x00000000, 0x00000000, 0x00000000, 0x00000000, 0x00000000, 0x00000000⟩,
   ⟨0x060, 3, 4, "XFERS,XFER_TIMEOUTS,STALE_RESP", 0x00000000, 0xFFFFFFFF, 0x00000000, 0x00000000, 0x00000000, 0x00000000⟩]

/-- Pages 0x0C0 (17_host_uart_timebase.md). -/
def rowsPcia : List RegRow :=
  [⟨0x040, 1, 4, "LINK_UP/WIDTH/SPEED", 0x00000000, 0x00000000, 0x00000000, 0x00000000, 0x00000000, 0x00000000⟩,
   ⟨0x044, 1, 4, "IRQ_EOI", 0x00000000, 0x00000000, 0x00000000, 0x00000000, 0x0000003F, 0x00000000⟩,
   ⟨0x048, 6, 4, "AER_CE,AER_UE,CPL_TIMEOUTS,OB_MISS,LINK_DOWNS,FLRS", 0x00000000, 0xFFFFFFFF, 0x00000000, 0x00000000, 0x00000000, 0x00000000⟩,
   ⟨0x080, 16, 4, "IRQ_SUMMARY_0-IRQ_SUMMARY_15", 0x00000000, 0x00000000, 0x00000000, 0x00000000, 0x00000000, 0x00000000⟩,
   ⟨0x0C0, 32, 4, "TO_SAC/TO_HOST/VEC", 0x0000C03F, 0x00000000, 0x00000000, 0x00000000, 0x00000000, 0x00000000⟩]

/-- Pages 0x0C1 (17_host_uart_timebase.md). -/
def rowsPcib : List RegRow :=
  [⟨0x400, 256, 4, "MSIX_TABLE", 0xFFFFFFFF, 0x00000000, 0x00000000, 0x00000000, 0x00000000, 0x00000000⟩,
   ⟨0x800, 2, 4, "MSIX_PBA", 0x00000000, 0x00000000, 0x00000000, 0x00000000, 0x00000000, 0x00000000⟩]

/-- Pages 0x0C2 (17_host_uart_timebase.md). -/
def rowsPcic : List RegRow :=
  [⟨0x040, 64, 8, "VALID/NO_SNOOP/RELAXED", 0x80000003, 0x00000000, 0x00000000, 0x00000000, 0x00000000, 0x00000000⟩,
   ⟨0x044, 64, 8, "OB_BASE_n", 0xFFFFFFFF, 0x00000000, 0x00000000, 0x00000000, 0x00000000, 0x00000000⟩]

/-- Pages 0x0D0 (17_host_uart_timebase.md). -/
def rowsTb : List RegRow :=
  [⟨0x040, 1, 4, "TB_LO", 0x00000000, 0x00000000, 0x00000000, 0x00000000, 0x00000000, 0x00000000⟩,
   ⟨0x044, 1, 4, "TB_HI", 0x00000000, 0x00000000, 0x00000000, 0x00000000, 0x00000000, 0x00000000⟩,
   ⟨0x048, 1, 4, "TB_SET_LO", 0xFFFFFFFF, 0x00000000, 0x00000000, 0x00000000, 0x00000000, 0x00000000⟩,
   ⟨0x04C, 1, 4, "TB_SET_HI", 0xFFFFFFFF, 0x00000000, 0x00000000, 0x00000000, 0x00000000, 0x00000000⟩,
   ⟨0x050, 1, 4, "RATE_ADJ", 0xFFFFFFFF, 0x00000000, 0x00000000, 0x00000000, 0x00000000, 0x00000000⟩,
   ⟨0x054, 1, 4, "OFFSET_SLEW", 0xFFFFFFFF, 0x00000000, 0x00000000, 0x00000000, 0x00000000, 0x00000000⟩,
   ⟨0x058, 1, 4, "PPS_AUTO,PPS_FALL,CAP_EN,PPS_EN", 0x0000007F, 0x00000000, 0x00000000, 0x00000000, 0x00000000, 0x00000000⟩,
   ⟨0x05C, 1, 4, "PPS_LOST,PPS_LOCK", 0x00000000, 0x00000000, 0x00000000, 0x00000000, 0x00000000, 0x00000000⟩,
   ⟨0x060, 1, 4, "PPS_CAP_LO", 0x00000000, 0x00000000, 0x00000000, 0x00000000, 0x00000000, 0x00000000⟩,
   ⟨0x064, 1, 4, "PPS_CAP_HI", 0x00000000, 0x00000000, 0x00000000, 0x00000000, 0x00000000, 0x00000000⟩,
   ⟨0x068, 1, 4, "PPS_ERR", 0x00000000, 0x00000000, 0x00000000, 0x00000000, 0x00000000, 0x00000000⟩,
   ⟨0x080, 8, 4, "CAP_i_LO,CAP_i_HI", 0x00000000, 0x00000000, 0x00000000, 0x00000000, 0x00000000, 0x00000000⟩,
   ⟨0x0A0, 3, 4, "TB_STEPS,PPS_EARLY,PPS_MISSED", 0x00000000, 0xFFFFFFFF, 0x00000000, 0x00000000, 0x00000000, 0x00000000⟩]

/-- Pages 0x0D1-0x0D2 (17_host_uart_timebase.md). -/
def rowsUart : List RegRow :=
  [⟨0x040, 1, 4, "DIV", 0x0000FFFF, 0x00000000, 0x00000000, 0x00000000, 0x00000000, 0x00000364⟩,
   ⟨0x044, 1, 4, "STOP2/PARITY/DATA8", 0x0000000F, 0x00000000, 0x00000000, 0x00000000, 0x00000000, 0x00000001⟩,
   ⟨0x048, 1, 4, "TXDATA", 0x00000000, 0x00000000, 0x00000000, 0x00000000, 0x000000FF, 0x00000000⟩,
   ⟨0x04C, 1, 4, "RX_VALID/BRK,FE,PE,DATA", 0x00000000, 0x00000000, 0x00000000, 0x00000000, 0x00000000, 0x00000000⟩,
   ⟨0x050, 1, 4, "RX_POP", 0x00000000, 0x00000000, 0x00000000, 0x00000000, 0x00000001, 0x00000000⟩,
   ⟨0x054, 1, 4, "TX_LEVEL/RX_LEVEL", 0x00000000, 0x00000000, 0x00000000, 0x00000000, 0x00000000, 0x00000000⟩,
   ⟨0x058, 1, 4, "RX_THRESH", 0x0000003F, 0x00000000, 0x00000000, 0x00000000, 0x00000000, 0x00000001⟩,
   ⟨0x05C, 5, 4, "OVERRUNS,FRAMING,PARITY_ERRS,TX_DROPPED,LOST_CHARS", 0x00000000, 0xFFFFFFFF, 0x00000000, 0x00000000, 0x00000000, 0x00000000⟩]

/-- Pages 0x0D3-0x0D4 (17_host_uart_timebase.md). -/
def rowsI2c : List RegRow :=
  [⟨0x040, 1, 4, "SPEED", 0x00000003, 0x00000000, 0x00000000, 0x00000000, 0x00000000, 0x00000000⟩,
   ⟨0x044, 1, 4, "SCL_HIGH/SCL_LOW", 0xFFFFFFFF, 0x00000000, 0x00000000, 0x00000000, 0x00000000, 0x01CC01F4⟩,
   ⟨0x048, 1, 4, "GO/RLEN/WLEN/ADDR", 0x003F3F7F, 0x00000000, 0x00000000, 0x80000000, 0x00000000, 0x00000000⟩,
   ⟨0x04C, 8, 4, "TX_DATA_0-TX_DATA_7", 0xFFFFFFFF, 0x00000000, 0x00000000, 0x00000000, 0x00000000, 0x00000000⟩,
   ⟨0x06C, 1, 4, "ACKED/RESULT", 0x00000000, 0x00000000, 0x00000000, 0x00000000, 0x00000000, 0x00000000⟩,
   ⟨0x070, 8, 4, "RX_DATA_0-RX_DATA_7", 0x00000000, 0x00000000, 0x00000000, 0x00000000, 0x00000000, 0x00000000⟩,
   ⟨0x090, 2, 4, "TXNS,ERRORS", 0x00000000, 0xFFFFFFFF, 0x00000000, 0x00000000, 0x00000000, 0x00000000⟩]

/-- Pages 0x0D5 (17_host_uart_timebase.md). -/
def rowsGpio : List RegRow :=
  [⟨0x040, 1, 4, "DIR", 0x0000FFFF, 0x00000000, 0x00000000, 0x00000000, 0x00000000, 0x00000000⟩,
   ⟨0x044, 1, 4, "OUT", 0x0000FFFF, 0x00000000, 0x00000000, 0x00000000, 0x00000000, 0x00000000⟩,
   ⟨0x048, 1, 4, "SET", 0x00000000, 0x00000000, 0x00000000, 0x00000000, 0x0000FFFF, 0x00000000⟩,
   ⟨0x04C, 1, 4, "CLR", 0x00000000, 0x00000000, 0x00000000, 0x00000000, 0x0000FFFF, 0x00000000⟩,
   ⟨0x050, 1, 4, "IN", 0x00000000, 0x00000000, 0x00000000, 0x00000000, 0x00000000, 0x00000000⟩,
   ⟨0x054, 1, 4, "RISE_EN", 0x0000FFFF, 0x00000000, 0x00000000, 0x00000000, 0x00000000, 0x00000000⟩,
   ⟨0x058, 1, 4, "FALL_EN", 0x0000FFFF, 0x00000000, 0x00000000, 0x00000000, 0x00000000, 0x00000000⟩]

/-- Pages 0x0D8-0x0D9 (16_carillon_and_ledger.md). -/
def rowsCar : List RegRow :=
  [⟨0x040, 1, 4, "RETRY_MAX/SHORT_RESET/LONG_RESET/CHAIN_EN", 0x000000F1, 0x00000000, 0x00000000, 0x00000006, 0x00000000, 0x00000020⟩,
   ⟨0x044, 1, 4, "GO/BOUNDARY/BSEQ/ADDR/CMD/LEN", 0x701FFF3F, 0x00000000, 0x00000000, 0x80000000, 0x00000000, 0x00000000⟩,
   ⟨0x048, 1, 4, "TX_CANCEL", 0x00000000, 0x00000000, 0x00000000, 0x00000000, 0x00000001, 0x00000000⟩,
   ⟨0x04C, 8, 4, "TX_DATA_0-TX_DATA_7", 0xFFFFFFFF, 0x00000000, 0x00000000, 0x00000000, 0x00000000, 0x00000000⟩,
   ⟨0x06C, 1, 4, "RX_STATUS/RX_LEN/RESULT", 0x00000000, 0x00000000, 0x00000000, 0x00000000, 0x00000000, 0x00000000⟩,
   ⟨0x070, 8, 4, "RX_DATA_0-RX_DATA_7", 0x00000000, 0x00000000, 0x00000000, 0x00000000, 0x00000000, 0x00000000⟩,
   ⟨0x090, 1, 4, "PD_TIME_LO", 0xFFFFFFFF, 0x00000000, 0x00000000, 0x00000000, 0x00000000, 0x00000000⟩,
   ⟨0x094, 1, 4, "PD_TIME_HI", 0xFFFFFFFF, 0x00000000, 0x00000000, 0x00000000, 0x00000000, 0x00000000⟩,
   ⟨0x098, 1, 4, "PD_VALID", 0x00000001, 0x00000000, 0x00000000, 0x00000000, 0x00000000, 0x00000000⟩,
   ⟨0x09C, 1, 4, "SUPPLY_MAP", 0xFFFFFFFF, 0x00000000, 0x00000000, 0x00000000, 0x00000000, 0x00000000⟩,
   ⟨0x0A0, 1, 4, "PG_LEVEL/PG_STABLE", 0x00000000, 0x00000000, 0x00000000, 0x00000000, 0x00000000, 0x00000000⟩,
   ⟨0x0A4, 5, 4, "TXNS,RETRIES,CRC_ERRS,NO_REPLIES,GATED", 0x00000000, 0xFFFFFFFF, 0x00000000, 0x00000000, 0x00000000, 0x00000000⟩]

/-- Pages 0x100-0x17F (07_command_lists.md). -/
def rowsQueue : List RegRow :=
  [⟨0x040, 1, 4, "QBASE_LO", 0xFFFFF000, 0x00000000, 0x00000000, 0x00000000, 0x00000000, 0x00000000⟩,
   ⟨0x044, 1, 4, "QBASE_HI", 0x0000007F, 0x00000000, 0x00000000, 0x00000000, 0x00000000, 0x00000000⟩,
   ⟨0x048, 1, 4, "QSIZE", 0x0000001F, 0x00000000, 0x00000000, 0x00000000, 0x00000000, 0x00000004⟩,
   ⟨0x04C, 1, 4, "QPRIO/QCTX", 0x0000003F, 0x00000000, 0x00000000, 0x00000000, 0x00000000, 0x00000000⟩,
   ⟨0x050, 1, 4, "QREC_LO", 0xFFFFF000, 0x00000000, 0x00000000, 0x00000000, 0x00000000, 0x00000000⟩,
   ⟨0x054, 1, 4, "QREC_HI", 0x0000007F, 0x00000000, 0x00000000, 0x00000000, 0x00000000, 0x00000000⟩,
   ⟨0x058, 1, 4, "QHEAD", 0x00000000, 0x00000000, 0x00000000, 0x00000000, 0x00000000, 0x00000000⟩,
   ⟨0x05C, 1, 4, "QTAIL", 0xFFFFFFFF, 0x00000000, 0x00000000, 0x00000000, 0x00000000, 0x00000000⟩,
   ⟨0x060, 1, 4, "LAST_ERR/QSTATE", 0x00000000, 0x00000000, 0x00000000, 0x00000000, 0x00000000, 0x00000000⟩,
   ⟨0x064, 1, 4, "DRAIN,SKIP", 0x00000000, 0x00000000, 0x00000000, 0x00000003, 0x00000000, 0x00000000⟩,
   ⟨0x068, 1, 4, "QDONE", 0x00000000, 0xFFFFFFFF, 0x00000000, 0x00000000, 0x00000000, 0x00000000⟩,
   ⟨0x06C, 1, 4, "QERRS", 0x00000000, 0xFFFFFFFF, 0x00000000, 0x00000000, 0x00000000, 0x00000000⟩,
   ⟨0x070, 1, 4, "QWAIT_EVT", 0x00000000, 0x00000000, 0x00000000, 0x00000000, 0x00000000, 0x00000000⟩]

end Sys2Proof.Machine
end

