-- ==== Sys2Proof/Machine/Regs.lean ====
section
/-! DEFINITION. The register space: which pages exist and which table describes each (R62, R66), reset values
that differ by instance, the 64-bit pairs (R76), the snapshot groups (R78) and the named addresses the
meanings use. -/

namespace Sys2Proof.Machine

/-- The kinds of allocated page, one per row of the page table (R66). -/
inductive PageClass
  | sys | clk | pwr | therm | vrgA | vrgB | sac | prcC | prcE | gslot | cam | pipe | stat | dmd | lis | vec
  | stall | cho | cls | ecc | roodC | roodR | noc | mc | lp5x | dmaC | dmaP | dmaT | rlk | lxe | pciA | pciB
  | pciC | tb | uart | i2c | gpio | qspi | car | queue
deriving DecidableEq, Repr

/-- The page table of R66: first page, last page, BLOCK code (R67) and kind. The rows VRG, CLS, ROOD, DMA
channels and PCI Express hold pages of two layouts. -/
def pageTable : List (Nat × Nat × Nat × PageClass) :=
  [(0x000, 0x000, 0x000, .sys), (0x001, 0x001, 0x001, .clk), (0x002, 0x002, 0x002, .pwr),
   (0x003, 0x003, 0x003, .therm), (0x004, 0x004, 0x004, .vrgA), (0x005, 0x005, 0x004, .vrgB),
   (0x008, 0x008, 0x008, .sac), (0x010, 0x010, 0x010, .prcC), (0x011, 0x011, 0x011, .prcE),
   (0x018, 0x01F, 0x018, .gslot), (0x020, 0x023, 0x020, .cam), (0x024, 0x024, 0x024, .pipe),
   (0x025, 0x025, 0x025, .stat), (0x026, 0x026, 0x026, .dmd), (0x027, 0x027, 0x027, .lis),
   (0x030, 0x034, 0x030, .vec), (0x040, 0x05F, 0x040, .stall), (0x060, 0x060, 0x060, .cho),
   (0x070, 0x070, 0x070, .cls), (0x071, 0x071, 0x071, .ecc), (0x072, 0x072, 0x072, .roodC),
   (0x073, 0x073, 0x072, .roodR), (0x074, 0x074, 0x074, .noc), (0x080, 0x087, 0x080, .mc),
   (0x088, 0x088, 0x088, .lp5x), (0x090, 0x090, 0x090, .dmaC), (0x091, 0x098, 0x091, .dmaP),
   (0x099, 0x0A0, 0x091, .dmaT), (0x0B0, 0x0B3, 0x0B0, .rlk), (0x0B4, 0x0B4, 0x0B4, .lxe),
   (0x0C0, 0x0C0, 0x0C0, .pciA), (0x0C1, 0x0C1, 0x0C0, .pciB), (0x0C2, 0x0C2, 0x0C0, .pciC),
   (0x0D0, 0x0D0, 0x0D0, .tb), (0x0D1, 0x0D2, 0x0D1, .uart), (0x0D3, 0x0D4, 0x0D3, .i2c),
   (0x0D5, 0x0D5, 0x0D5, .gpio), (0x0D6, 0x0D6, 0x0D6, .qspi), (0x0D8, 0x0D9, 0x0D8, .car),
   (0x100, 0x17F, 0x100, .queue)]

/-- The entry of the page table that holds a page, if it is allocated. -/
def pageRow (p : Nat) : Option (Nat × Nat × Nat × PageClass) :=
  pageTable.find? fun r => r.1 ≤ p && p ≤ r.2.1

/-- The kind of a page, if it is allocated (R66). -/
def pageClass (p : Nat) : Option PageClass := (pageRow p).map fun r => r.2.2.2

/-- The register table of a kind of page (offsets 0x040 and above). -/
def classRows : PageClass → List RegRow
  | .sys => rowsSys | .clk => rowsClk | .pwr => rowsPwr | .therm => rowsTherm | .vrgA => rowsVrga
  | .vrgB => rowsVrgb | .sac => rowsSacp | .prcC => rowsPrcc | .prcE => rowsPrce | .gslot => rowsGslot
  | .cam => rowsCam | .pipe => rowsPipe | .stat => rowsStat | .dmd => rowsDmd | .lis => rowsLis
  | .vec => rowsVec | .stall => rowsStall | .cho => rowsCho | .cls => rowsCls | .ecc => rowsEcc
  | .roodC => rowsRoodc | .roodR => rowsRoodr | .noc => [] | .mc => [] | .lp5x => rowsLp5x
  | .dmaC => rowsDmac | .dmaP => rowsDmap | .dmaT => rowsDmat | .rlk => rowsRlk | .lxe => rowsLxe
  | .pciA => rowsPcia | .pciB => rowsPcib | .pciC => rowsPcic | .tb => rowsTb | .uart => rowsUart
  | .i2c => rowsI2c | .gpio => rowsGpio | .qspi => [] | .car => rowsCar | .queue => rowsQueue

/-- A row covers an offset of its page. -/
def RegRow.covers (r : RegRow) (off : Nat) : Bool :=
  decide (r.off ≤ off) && decide ((off - r.off) % r.stride = 0) && decide ((off - r.off) / r.stride < r.count)

/-- The row of a register at a page and a word-aligned offset, if a register lies there (R65). -/
def regRow (page off : Nat) : Option RegRow :=
  match pageClass page with
  | none => none
  | some c => (if off < 0x040 then rowsHdr else classRows c).find? fun r => r.covers off

/-- The device address of a register (R62). -/
def regAddr (page off : Nat) : Nat := page * 0x1000 + off

/-- The default route of source group k (R409): TO_SAC, TO_HOST and VEC. -/
def defaultRoute (k : Nat) : Nat :=
  let sac := 0x8000
  let host := 0x4000
  if k = 2 then sac + host + 2
  else if k = 3 then host + 3
  else if 5 ≤ k ∧ k ≤ 12 then host + k
  else if k = 16 ∨ k = 17 ∨ k = 21 then sac + host + k
  else if k = 20 then host + 20
  else if 25 ≤ k ∧ k ≤ 28 then host + k
  else if 29 ≤ k then 0
  else sac

/-- Reset values that differ by instance (R278, R299, R300, R325, R361, R409) before the table's own. -/
def instanceReset (c : PageClass) (page off : Nat) : Option Nat :=
  match c with
  | .stall =>
    let s := page - 0x040
    if off = 0x058 then some s
    else if off = 0x010 then some (if s < 30 then 0x100 + s * 0x10000 else 0x200)
    else if off = 0x008 then some 0 else none
  | .cho =>
    if off = 0x008 then some 32
    else if off = 0x060 then some (30 * 0x10000)
    else if 0x080 ≤ off ∧ off < 0x080 + 120 then some ((off - 0x080) / 4) else none
  | .vec => if off = 0x008 then some 4096 else none
  | .prcC => if off = 0x010 then some 0x100 else none
  | .gslot => if off = 0x080 then some 0x10000 else none
  | .pciA => if 0x0C0 ≤ off ∧ off < 0x140 then some (defaultRoute ((off - 0x0C0) / 4)) else none
  | .pciB => if 0x400 ≤ off ∧ off < 0x800 ∧ off % 16 = 12 then some 1 else none
  | _ => none

/-- The reset value of the register word at a device address (0 where no register lies). -/
def resetWord (addr : Nat) : Word :=
  let page := addr / 0x1000
  let off := addr % 0x1000
  match pageRow page with
  | none => 0
  | some (_, _, block, c) =>
    if off = 0x000 then BitVec.ofNat 32 (block * 0x10000 + page)
    else match instanceReset c page off with
      | some v => BitVec.ofNat 32 v
      | none => match regRow page off with
        | some r => r.reset
        | none => 0

/-- The LO offsets of the read pairs of a kind of page (R76): first offset, count, stride, and whether the
pair is written as a pair. -/
def classPairs : PageClass → List (Nat × Nat × Nat × Bool)
  | .pwr => [(0x078, 1, 8, true)]
  | .vrgB => [(0x044, 1, 8, false), (0x04C, 1, 8, false)]
  | .sac => [(0x0E0, 1, 8, true)]
  | .prcC => [(0x100, 64, 16, true)]
  | .prcE => [(0x040, 256, 8, false)]
  | .gslot => [(0x040, 1, 8, true), (0x048, 1, 8, true), (0x054, 1, 8, true), (0x070, 1, 8, true)]
  | .pipe => [(0x090, 4, 64, true), (0x098, 4, 64, true)]
  | .stat => [(0x080, 4, 32, true)]
  | .dmd => [(0x080, 4, 32, true)]
  | .roodC => [(0x048, 16, 32, true)]
  | .roodR => [(0x040, 1, 8, true), (0x048, 1, 8, true), (0x100, 1, 8, false), (0x10C, 1, 8, false)]
  | .dmaC => [(0x040, 1, 8, false)]
  | .dmaP => [(0x040, 1, 8, true), (0x048, 1, 8, true)]
  | .dmaT => [(0x040, 1, 8, true), (0x048, 1, 8, true), (0x0C0, 1, 8, true), (0x0C8, 1, 8, true)]
  | .pciC => [(0x040, 64, 8, true)]
  | .tb => [(0x040, 1, 8, false), (0x048, 1, 8, true), (0x060, 1, 8, false), (0x080, 4, 8, false)]
  | .car => [(0x090, 1, 8, true)]
  | .queue => [(0x040, 1, 8, true), (0x050, 1, 8, true)]
  | _ => []

/-- The pair whose LO word lies at an offset: some writable. ERR_LOG is a read pair of every page (R468). -/
def pairLo (page off : Nat) : Option Bool :=
  match pageClass page with
  | none => none
  | some c =>
    if off = 0x020 then some false
    else match (classPairs c).find? fun p =>
        decide (p.1 ≤ off) && decide ((off - p.1) % p.2.2.1 = 0) && decide ((off - p.1) / p.2.2.1 < p.2.1) with
      | some p => some p.2.2.2
      | none => none

/-- The offset is the HI word of a pair. -/
def pairHi (page off : Nat) : Option Bool := if 4 ≤ off then pairLo page (off - 4) else none

/-- The snapshot groups of a kind of page (R78): group number, first offset, last offset. The DMD group is
the three counters of each port (R210). -/
def snapGroups : PageClass → List (Nat × Nat × Nat)
  | .ecc => [(0, 0x044, 0x058), (1, 0x080, 0x17C)]
  | .roodR => [(0, 0x24C, 0x250)]
  | .prcE => [(0, 0x040, 0x83F)]
  | .dmd => [(0, 0x094, 0x09C), (0, 0x0B4, 0x0BC), (0, 0x0D4, 0x0DC), (0, 0x0F4, 0x0FC)]
  | .cam => [(0, 0x068, 0x07C)]
  | .vec => [(0, 0x040, 0x054)]
  | .cho => [(0, 0x050, 0x058)]
  | .stall => [(0, 0x040, 0x054)]
  | .gslot => [(0, 0x084, 0x0B8)]
  | .dmaP => [(0, 0x104, 0x110)]
  | .dmaT => [(0, 0x104, 0x110)]
  | .rlk => [(0, 0x04C, 0x064)]
  | .car => [(0, 0x0A4, 0x0B4)]
  | .vrgA => [(0, 0x050, 0x05C)]
  | _ => []

/-- The group of a page that an offset belongs to, if any. -/
def snapGroupOf (page off : Nat) : Option Nat :=
  match pageClass page with
  | none => none
  | some c => ((snapGroups c).find? fun g => g.2.1 ≤ off && off ≤ g.2.2).map fun g => g.1

/-- The word offsets of a snapshot group. -/
def snapOffsets (c : PageClass) (g : Nat) : List Nat :=
  ((snapGroups c).filter fun r => r.1 == g).flatMap fun r =>
    (List.range ((r.2.2 - r.2.1) / 4 + 1)).map fun i => r.2.1 + 4 * i

/-- The pages where IRQ_FORCE makes DEBUG active (R69). -/
def isEnginePage (p : Nat) : Bool :=
  (0x020 ≤ p && p ≤ 0x060) || p == 0x0B4 || (0x100 ≤ p && p ≤ 0x17F)

/-- The source group of R409 that a page's interrupt line belongs to. -/
def irqGroup (p : Nat) : Option Nat :=
  if p ≤ 0x001 then some 0 else if p ≤ 0x003 then some 1 else if p ≤ 0x005 then some 2
  else if p = 0x008 then some 3 else if p = 0x010 ∨ p = 0x011 then some 4
  else if 0x018 ≤ p ∧ p ≤ 0x01F then some (5 + (p - 0x018))
  else if 0x020 ≤ p ∧ p ≤ 0x027 then some 13 else if 0x030 ≤ p ∧ p ≤ 0x034 then some 14
  else if 0x040 ≤ p ∧ p ≤ 0x060 then some 15 else if p = 0x070 ∨ p = 0x071 then some 16
  else if p = 0x072 ∨ p = 0x073 then some 17 else if p = 0x074 then some 18
  else if 0x080 ≤ p ∧ p ≤ 0x088 then some 19 else if 0x090 ≤ p ∧ p ≤ 0x0A0 then some 20
  else if 0x0B0 ≤ p ∧ p ≤ 0x0B4 then some 21 else if 0x0C0 ≤ p ∧ p ≤ 0x0C2 then some 22
  else if 0x0D0 ≤ p ∧ p ≤ 0x0D6 then some 23 else if p = 0x0D8 ∨ p = 0x0D9 then some 24
  else if 0x100 ≤ p ∧ p ≤ 0x17F then some (25 + (p - 0x100) / 32) else none

/-- Every allocated page (R66). -/
def allPages : List Nat :=
  pageTable.flatMap fun r => (List.range (r.2.1 + 1 - r.1)).map fun i => r.1 + i

/-- Page numbers of instances. -/
def pgSlot (g : Nat) : Nat := 0x018 + g
def pgCam (n : Nat) : Nat := 0x020 + n
def pgStall (s : Nat) : Nat := 0x040 + s
def pgDma (c : Nat) : Nat := 0x091 + c
def pgRlk (p : Nat) : Nat := 0x0B0 + p
def pgUart (n : Nat) : Nat := 0x0D1 + n
def pgI2c (n : Nat) : Nat := 0x0D3 + n
def pgCar (n : Nat) : Nat := 0x0D8 + n
def pgQ (q : Nat) : Nat := 0x100 + q

/-- The vision engine page of a unit number 0 PYR, 1 WRP, 2 FTR, 3 FLW, 4 STR (R66). -/
def pgVec (u : Nat) : Nat := 0x030 + u

end Sys2Proof.Machine
end

