-- ==== Sys2Proof/Machine/State.lean ====
section
/-! DEFINITION. The state of the GV16 as plain data. Every register of the spec's register tables lives in
`Chip.regs`, by device address, with its reset value from the tables where nothing is listed; the structures
below hold what the spec gives the part beside its registers. -/

namespace Sys2Proof.Machine

/-- Why the model stops. -/
inductive Fault
  /-- Raised by `step` for a command whose operands break WellFormed: it is no command of the part. Safe: no
  run of well-formed commands meets it. -/
  | illFormed
deriving DecidableEq, Repr

/-- Why the model refuses a command. -/
inductive Refusal
  /-- Raised by an arm of `exec` for a command without a meaning yet. Safe: nothing is claimed of it. -/
  | notModelled (mnemonic : String)
deriving DecidableEq, Repr

/-- The fuses (R3, R71, R434, R437); bits only ever change from 0 to 1. -/
structure Fuses where
  variantE : Bool := false
  secureBoot : Bool := false
  keyHash : List (BitVec 384) := [0, 0, 0, 0]
  keyRevoke : BitVec 4 := 0
  arbSac : DWord := 0
  arbPrc : DWord := 0
  bootLock : Bool := false
deriving DecidableEq, Repr

/-- Memory: bytes by cell address (a device address, with Cloister at the place of its bank and row, R88), the
granules that are not clean by granule address (R104), and host memory by bus address with the bytes that
arrived under the EP bit (R106, R407). -/
structure Memory where
  cells : List Host.Cell := []
  marks : List (Nat × Mark) := []
  host : List Host.Cell := []
  hostEp : List (Nat × Bool) := []
deriving DecidableEq, Repr

/-- One elementary change of memory. Every change a command makes is a list of these. -/
inductive MemOp
  | byte (cell : Nat) (v : Byte)
  | mark (granule : Nat) (m : Option Mark)
  | clear (lo hi : Nat)
  | hostByte (addr : Nat) (v : Byte) (ep : Bool)
deriving DecidableEq, Repr

/-- Time (R12, R419): the environment's clock in ns since power-on, the counter of open values used, and the
timebase with its exact fraction in units of 1/(250·2^32) ns, the part of OFFSET_SLEW removed but not yet
taken off the field in units of 1/250 ns, a step waiting for the next tick (R420), and for PPS (R421) the moment of
the previous edge, the missed edges since and the edges in a row within 1 µs. -/
structure TimeState where
  now : Nat := 0
  free : Nat := 0
  tb : DWord := 0
  tbFrac : Nat := 0
  slewPart : Nat := 0
  tbStep : Option DWord := none
  ppsLast : Option Nat := none
  ppsMiss : Nat := 0
  ppsGood : Nat := 0
deriving DecidableEq, Repr

/-- What a requester's latest access returned: data, a completion under the EP bit for poison, one for a Rood fault with its data
(R100), a core's access fault (R87, R104), or nothing. -/
inductive Reply
  | data (v : DWord)
  | poison
  | faulted (v : DWord)
  | accessFault
  | none
deriving DecidableEq, Repr

/-- The register bus beside the registers (R69, R76, R78): HI shadows and held LO words by 4·address +
requester, frozen snapshot words by address, the IRQ_FORCE bits that keep DEBUG active by page, and the latest
reply to each requester, core (4 + core) and BAR2 (8). -/
structure BusState where
  shadows : List (Nat × Word) := []
  held : List (Nat × Word) := []
  frozen : List (Nat × Word) := []
  forced : List (Nat × Word) := []
  replies : List (Nat × Reply) := []
deriving DecidableEq, Repr

/-- A lease entry of the Verger table beside the LEASE word (R470, R473, R487): state 0 FREE, 1 HELD,
2 QUARANTINED, 3 STUCK, the time of grant, renewal or revocation, HOLD, and the owner before a revocation. -/
structure LeaseAux where
  state : Nat := 0
  since : Nat := 0
  hold : Bool := false
  owner : Nat := 0
deriving DecidableEq, Repr

/-- A Cloister bank lock (R109): the holder's source ID, the queue whose command holds it, and the cell addresses
of the locked words. -/
structure LockEntry where
  holder : Byte
  queue : Nat
  words : List Nat
deriving DecidableEq, Repr

/-- One journal entry (R469, R488). -/
structure JrnEntry where
  page : Nat
  lo : Word
  hi : Word
  tb : DWord
deriving DecidableEq, Repr

/-- The Verger (chapter 19): lease entries and locks by LV_SEL, the journal oldest first, the time of the last
watchdog kick, the times of the watchdog fires, and a reset in progress by level (R485). -/
structure VrgState where
  leases : List (Nat × LeaseAux) := []
  locks : List (Nat × LockEntry) := []
  journal : List JrnEntry := []
  wdtKick : Nat := 0
  fires : List Nat := []
  resetting : Nat := 0
deriving DecidableEq, Repr

/-- A leaf of a page table as the Rood holds it (R98, R99): physical base, log2 of the page size, rights. -/
structure Leaf where
  base : Nat
  log2 : Nat
  r : Bool
  w : Bool
  x : Bool
deriving DecidableEq, Repr

/-- A registered region (R102), with the Cloister row-blocks it pins. -/
structure Region where
  ctx : Nat
  base : Nat
  size : Nat
  r : Bool
  w : Bool
  x : Bool
  skewed : Bool
  pins : List Nat
deriving DecidableEq, Repr

/-- A REGISTER or FREE command in progress with the values it started with (R102, R103). -/
inductive RgnCmd
  | register (base size : Nat) (attr : Word)
  | free (handle : Nat)
deriving DecidableEq, Repr

/-- A fault record (R111). -/
structure FltRec where
  va : Nat
  info : Word
  time : DWord
deriving DecidableEq, Repr

/-- The Rood (R97-R103, R111): cached translations by context·2^23 + 64 KiB page number, regions by handle,
the command in progress and the fault FIFO, oldest first. -/
structure RoodState where
  tlb : List (Nat × Leaf) := []
  regions : List (Nat × Region) := []
  cmd : Option RgnCmd := none
  fifo : List FltRec := []
deriving DecidableEq, Repr

/-- A stored descriptor (R128-R131, R140): its eight words, the creating owner code, whether its slot is
poisoned and whether a stored word holds a correctable error. -/
structure DescSlot where
  qw : List DWord
  owner : Nat
  poison : Bool := false
  ce : Bool := false
deriving DecidableEq, Repr

/-- A descriptor command in progress with the values it started with (R131, R139). -/
structure DescCmd where
  op : Nat
  handle : Nat
  stage : List Word
  owner : Nat
deriving DecidableEq, Repr

/-- The descriptor tables (R128) by handle, and the command in progress. -/
structure DescState where
  slots : List (Nat × DescSlot) := []
  cmd : Option DescCmd := none
deriving DecidableEq, Repr

/-- Cloister and LP5X control beside their registers: corrected granules whose write-back is pending (R104),
the next row of the scrubber (R107), the banks that CLS_RETIRE named at the last enable (R114), the LP5X
initialisation epoch, the number of resets that have left the other memories undefined, the LP5X channels that have failed (R482),
the LP5X_CFG of the latest enable if no reset of level 2 or higher has come since, whether the initialisation that an enable asked
for is still to end (R528), and the moment at which Cloister's latest initialisation began (R91). -/
structure MemCtl where
  pendingWb : List Nat := []
  scrubRow : Nat := 0
  clsRetired : List Nat := []
  lpEpoch : Nat := 0
  rawEpoch : Nat := 0
  failed : List Nat := []
  lpCfg : Option Word := none
  lpInit : Bool := false
  clsInitAt : Nat := 0
deriving DecidableEq, Repr

/-- A command in progress on a queue (R167, R173, R175, R178, R369): its count and words, the descriptors copied
at its start by slot, the timebase value at its start, its error code (0 while none), whether its opcode has executed and
whether it is ready to retire, the link transfers whose RESP it awaits, and what goes into its record. -/
structure Running where
  count : Word
  cw : List DWord
  descs : List (Option (List DWord)) := []
  started : Nat := 0
  status : Nat := 0
  executed : Bool := false
  finished : Bool := false
  awaiting : List Nat := []
  sat : Nat := 0
  clamped : Nat := 0
  dropped : Nat := 0
  poison : Bool := false
  flooded : Bool := false
  debug : Bool := false
deriving DecidableEq, Repr

/-- The writes that meet (R28, R108, R163) on the side of one command in progress, as ranges of device addresses: those that it has
made, and those that others made while it was in progress. -/
structure Flight where
  wrote : List (Nat × Nat) := []
  clash : List (Nat × Nat) := []
deriving DecidableEq, Repr

/-- The queues beside their pages: the command in progress by queue, the queue each unit started last by
unit number (R174), the writes of the commands in progress by queue (R163), and the slots, by queue and count, that were rewritten
between HEAD and TAIL (R167). -/
structure QueueState where
  run : List (Nat × Running) := []
  last : List (Nat × Nat) := []
  flight : List (Nat × Flight) := []
  torn : List (Nat × Word) := []
deriving DecidableEq, Repr

/-- A tiled Choir command (R283, R297): its queue, its number of tiles, the next one to deal, those to rerun, those
rerun before, how many have not finished, and the layer table it read. -/
structure ChoCmd where
  q : Nat
  n : Nat
  next : Nat := 0
  redo : List Nat := []
  reran : List Nat := []
  left : Nat
  table : List Int
deriving DecidableEq, Repr

/-- A tile running on a stall, with the time it was dealt, and whether a soft reset has abandoned it (R526). -/
structure ChoTile where
  q : Nat
  t : Nat
  since : Nat
  dropped : Bool := false
deriving DecidableEq, Repr

/-- A window copy in progress (R298): the slot, its old stall and the spare. -/
structure ChoCopy where
  slot : Nat
  old : Nat
  spare : Nat
deriving DecidableEq, Repr

/-- The Choir beside its pages: the tiled commands in the order they started, the running tiles by stall, the
window copies in progress in order, and the stalls retired by RETIRE_REQ, one bit each. -/
structure ChoirState where
  cmds : List ChoCmd := []
  tiles : List (Nat × ChoTile) := []
  copies : List ChoCopy := []
  retired : Nat := 0
deriving DecidableEq, Repr

/-- The tag of a trigger (R193, R218): code index 0xFF is NONE. `period` numbers the sequencer's code period that
the fire belongs to; none for NONE and for a gap fire (R201). `bound` is the moment of the latest code boundary, whose latched
settings the sub-frame stands under (R36, R193). -/
structure Tag where
  code : Nat := 0xFF
  chip : Nat := 0
  fire : Nat := 0
  period : Option Nat := none
  bound : Nat := 0
deriving DecidableEq, Repr

/-- A code step in progress (R193): its tag, the moments of its four edges in ns, and how far its trigger and its
strobes have come: 0 due, 1 active, 2 done. -/
structure FireStep where
  tag : Tag
  trigOn : Nat
  trigOff : Nat
  stbOn : Nat
  stbOff : Nat
  trig : Nat := 0
  stb : Nat := 0
deriving DecidableEq, Repr

/-- What a DMD record gives the exposure loop (R204). -/
structure AeRec where
  dstatus : Nat := 3
  valid : Nat := 0
  sum : Int := 0
  invalid : Nat := 0
deriving DecidableEq, Repr

/-- A sequencer beside its registers (R190, R201, R204, R209): the values latched at the last code boundary, the
number of the next period and of the present one, the moment of the last fire, the step in progress, the fire that
restarts the code after a flood, a restart that waits for the next fire, the gap fire and the last flooded fire,
the DMD records by 4·period + port with the last period each port reported, and the fire number and the moment of the latest
code boundary. -/
structure SeqState where
  trigDelay : Nat := 0
  trigWidth : Nat := 0
  stbDelay : Nat := 0
  stbWidth : Nat := 0
  next : Nat := 0
  cur : Nat := 0
  lastFire : Option Nat := none
  step : Option FireStep := none
  restart : Option Nat := none
  restartNext : Bool := false
  gapFire : Option Nat := none
  floodFire : Option Nat := none
  recs : List (Nat × AeRec) := []
  last : List (Nat × Nat) := []
  boundFire : Option Nat := none
  boundAt : Nat := 0
deriving DecidableEq, Repr

/-- The LIS beside its page: whether it is enabled with a valid configuration (R190), its sequencers, the strobe
outputs that are high and the triggers that are active, one bit each. -/
structure LisState where
  on : Bool := false
  seqs : List (Nat × SeqState) := []
  strobes : Nat := 0
  trigs : Nat := 0
deriving DecidableEq, Repr

/-- A sub-frame on its way from the pipeline to the demodulator (R197, R220): its tag and frame number, the p3 plane
with poisoned pixels as none, and its saturation marks, none where the raw pixel was poisoned; a lost one has no plane. -/
structure SubFrame where
  port : Nat
  tag : Tag
  num : Nat
  lost : Bool
  plane : List (List (Option Nat)) := []
  marks : List (List (Option Bool)) := []
deriving DecidableEq, Repr

/-- An output of the demodulator that is due while no DMD_PERIOD executes (R201, R202): every pixel of it is
invalid. -/
structure DmdOut where
  dstatus : Nat
  code : Nat
  frame : Nat
  period : Option Nat
deriving DecidableEq, Repr

/-- The fields of page 0x026 that a port latches at a code boundary (R36, R210). -/
structure DmdLatch where
  thresh : Nat := 0xFFFFFF
  inShift : Nat := 0
  satLevel : Nat := 0xFFFF
deriving DecidableEq, Repr

/-- A port of the demodulator (R197-R202): 0 waits for chip 0, 1 takes a period, 2 stands in the gap after a flood, 3 stands between
two periods, the next of which begins with the next fire;
the code, chip, fire and period of the last sub-frame taken, the command that takes the period,
the flood that the port has still to report, the saturation marks of the window by chip, the frame number of
the last sub-frame, the outputs since port enable, the settings latched by the moment of the latest code boundaries, latest
first, the outputs due, and a chip-0 sub-frame that arrived as its command ended with an INCOMPLETE output. -/
structure DmdPort where
  mode : Nat := 0
  code : Nat := 0xFF
  chip : Nat := 0
  fire : Nat := 0
  period : Option Nat := none
  cmd : Word := 0
  gap : Nat := 0
  floodAt : Option Nat := none
  window : List (Nat × List (List (Option Bool))) := []
  frame : Nat := 0
  nOut : Nat := 0
  latches : List (Nat × DmdLatch) := []
  outs : List DmdOut := []
  held : Option SubFrame := none
deriving DecidableEq, Repr

/-- The demodulator beside its page: its ports and the sub-frames that have reached it, oldest first. -/
structure DmdState where
  ports : List (Nat × DmdPort) := []
  inbox : List SubFrame := []
deriving DecidableEq, Repr

/-- A frame of a camera port with the values latched at its frame start (R217-R219, R229): its port, the number of the port enable
that it belongs to, its number, tag, start time, context, size, pixel bits, colour filter, pipeline fields (words +0x00 to +0x0C of page 0x024 and the two
map addresses), sharpness word, SAT_LEVEL, its mode and stripe height, its first line and sample, and the descriptors of the port's
handles (0 RAW, 1 BLD, 2 SHD, 3 OUT, 4 the raw tensor). -/
structure Frame where
  port : Nat
  num : Nat
  tag : Tag
  time : Nat
  ctx : Nat
  w : Nat
  h : Nat
  depth : Nat
  cfa : Nat
  ctl : Nat
  black : List Nat
  thresh : Nat
  defMap : Nat
  shadeMap : Nat
  sharp : Nat
  satLevel : Nat
  mode : Nat
  stripe : Nat
  vstart : Nat := 0
  hstart : Nat := 0
  debug : Bool := false
  gen : Nat := 0
  descs : List (Nat × List DWord) := []
deriving DecidableEq, Repr

/-- A frame being captured (R215, R216): lines seen, lines counted, and whether it has ended already. -/
structure Capture where
  frame : Frame
  lines : Nat := 0
  counted : Nat := 0
  ended : Bool := false
deriving DecidableEq, Repr

/-- A piece of pipeline work (R221, R223): a whole frame or a stripe of it, its input lines, the next one the
pipeline takes, its output lines, the raw lines taken, and for an in-line frame the lines waiting and whether its
capture ended OK. -/
structure PipeItem where
  frame : Frame
  inHi : Nat
  pos : Nat
  first : Nat
  outLo : Nat
  outHi : Nat
  taken : List (List (Option Nat)) := []
  waiting : List (List Nat) := []
  closed : Bool := false
  last : Bool := true
deriving DecidableEq, Repr

/-- A line of a frame as it leaves the pipeline (R225): p3, the saturation marks, and the pixels flagged by DEF, none where that
depends on poison. -/
structure OutLine where
  p3 : List (Option Nat)
  sat : List (Option Bool)
  flagged : Option Nat
deriving DecidableEq, Repr

/-- A camera port beside its page (R217-R222): the frame being captured, the next frame number, whether the clock is
lost or too fast, pending tags with their trigger times, raw slots not yet finished with the frame that each belongs to (port enable
and number; base of the raw tensor and slot), the descriptors copied at port
enable (0 RAW, 1 BLD, 2 SHD, 3 OUT, 4 the raw tensor), output lines of a frame done in stripes by port enable and number, error frames
waiting for earlier frames of the port, the moment a software trigger ends, and the number of the present port enable. -/
structure NtxPort where
  cap : Option Capture := none
  next : Nat := 0
  clkBad : Bool := false
  tags : List (Tag × Nat) := []
  busy : List ((Nat × Nat) × Nat × Nat) := []
  descs : List (Nat × List DWord) := []
  done : List ((Nat × Nat) × List OutLine) := []
  errs : List (Frame × Nat) := []
  swTrig : Option Nat := none
  gen : Nat := 0
deriving DecidableEq, Repr

/-- The Narthex beside its pages: the ports, in-line frames in the pipeline, memory work that is ready in the order
it became ready, and the memory work being processed. -/
structure NtxState where
  ports : List (Nat × NtxPort) := []
  inl : List PipeItem := []
  ready : List PipeItem := []
  mem : Option PipeItem := none
  lastPort : Option Nat := none
deriving DecidableEq, Repr

/-- What a sequenced flit carries (R355). -/
inductive FlitBody
  | enum (x y : Nat)
  | join (pos : Nat)
  | chapterUp (members : Nat)
  | linkMap (map epoch : Nat)
  | head (m : PieceHeadMsg)
  | pmap (mask : BitVec 512)
  | data (v : BitVec 512)
  | signal (m : SignalMsg)
  | resp (m : RespMsg)
deriving DecidableEq, Repr

/-- A sequenced flit to send (R354, R356, R359): with the ports of its route after this one, the transfer that it belongs to, and for
a forwarded one the receive buffer entry that it holds (port and VC). -/
structure TxFlit where
  vc : Nat
  seq : Nat := 0
  body : FlitBody
  rest : List (Fin 4) := []
  xfer : Option Nat := none
  entry : Option (Nat × Nat) := none
deriving DecidableEq, Repr

/-- A link port beside its page (R356-R363, R372): matching HELLOs in a row, the next SEQ expected and to send, the
replay buffer oldest first, the flits that wait for a credit, resends since the ACK advanced, whether a NAK episode
is open, the time of the last good flit, when training began, and the receive buffer entries freed since UP by VC, whose credits CCNT
returns (R357). -/
structure LinkPort where
  hellos : Nat := 0
  rxNext : Nat := 0
  txNext : Nat := 0
  replay : List TxFlit := []
  txq : List TxFlit := []
  resends : Nat := 0
  naking : Bool := false
  lastGood : Nat := 0
  since : Nat := 0
  freed : List (Nat × Nat) := []
deriving DecidableEq, Repr

/-- A flit for the LXE that waits in its buffer while page 0x0B4 is in reset (R526): its port and VC, what it carries, its source and
the bytes whose parity failed. -/
structure Parked where
  port : Nat
  vc : Nat
  body : FlitBody
  src : Nat
  parity : BitVec 64
deriving DecidableEq, Repr

/-- An entry of the receive binding table (R160): the piece's origin and extents, and the handle of its local
descriptor, with the graph slot that wrote it. -/
structure Binding where
  origin : List Nat
  extent : List Nat
  handle : Nat
  slot : Nat
deriving DecidableEq, Repr

/-- A transfer or SIGNAL whose RESP is awaited (R369). -/
structure Xfer where
  q : Nat
  dst : Nat
  sent : Nat
deriving DecidableEq, Repr

/-- A transfer being received (R367): its head, the status of its checks, the data flits left, bytes not yet written,
the next vector, the mask of the next flit, and whether a write failed. -/
structure Recv where
  msg : PieceHeadMsg
  status : Nat
  left : Nat
  buf : List (Option Byte) := []
  vec : Nat := 0
  mask : Option (BitVec 512) := none
deriving DecidableEq, Repr

/-- The Ronsan Link and the chapter beside their pages (R360-R374): ports, the port toward the head, positions that
have joined (head), when the head's first port came UP, positions unreachable with since when, the binding table by
256·TID + PIECE, awaited transfers by identifier and the next identifier, transfers being received by source, the
send time of an open TSYNC exchange, the timebase at the latest one, whether the next one is the first, the runs of small and large
offsets, the parent's latest answer (t1, t2, t3), and the flits that wait for the LXE's reset to end. -/
structure LinkState where
  ports : List (Nat × LinkPort) := []
  headPort : Option Nat := none
  joined : Nat := 0
  firstUp : Option Nat := none
  unreach : List (Nat × Nat) := []
  bind : List (Nat × Binding) := []
  xfers : List (Nat × Xfer) := []
  nextId : Nat := 0
  recvs : List (Nat × Recv) := []
  tsT1 : Option Nat := none
  tsLast : Option Nat := none
  tsFirst : Bool := true
  tsGood : Nat := 0
  tsBad : Nat := 0
  tsReply : List Nat := []
  parked : List Parked := []
deriving DecidableEq, Repr

/-- A Ledger plate (R396-R399): its STATE, the total and hash of the image being staged, staged bytes by offset, the
image and hash written to TARGET, the hash of DIRTY, COMPLETE with its hash, and RECOVERED. -/
structure Plate where
  st : Nat := 0
  total : Nat := 0
  hash : List Byte := []
  staged : List (Nat × Byte) := []
  target : List Byte := []
  dirty : Option (List Byte) := none
  image : List Byte := []
  complete : List Byte := List.replicate 16 0
  recovered : Bool := false
deriving DecidableEq, Repr

/-- A device on a Carillon chain (R380, R383, R387, R390-R394): its class as it last answered IDENT (0 before that),
its address, whether its pass switch is closed, the stored request with its reply, the maker's registers written,
the latest CUR_MA and the current that the head applies (R392), over-temperature, FAULT, and its plate. -/
structure CarDev where
  cls : Nat := 0
  addr : Nat := 0
  pass : Bool := false
  stored : Option (List Byte × List Byte) := none
  maker : List (Nat × Byte) := []
  curMa : Nat := 0
  driveMa : Nat := 0
  dark : Bool := false
  fault : Bool := false
  plate : Plate := {}
deriving DecidableEq, Repr

/-- A Carillon transaction in progress (R384, R387, R388, R395): its address, command and payload, the request as it
was sent (empty before its first slot), whether it is BOUNDARY with the FIRES of its sequencer when it began to wait,
the retries made, the device's reply from STATUS to the last payload byte, the moment of its GO, and whether the
Sacristan firmware set it. -/
structure CarTxn where
  addr : Nat
  cmd : Nat
  payload : List Byte
  sent : List Byte := []
  boundary : Option Nat := none
  tries : Nat := 0
  reply : Option (List Byte) := none
  since : Nat := 0
  sac : Bool := false
deriving DecidableEq, Repr

/-- A Carillon chain beside its page (R387, R403): the transaction, the SEQ bits by address, a reset that waits for
the transaction's end (long, presence), and the devices by place. -/
structure CarChain where
  txn : Option CarTxn := none
  seqs : Nat := 0
  waiting : List (Bool × Bool) := []
  devs : List (Nat × CarDev) := []
deriving DecidableEq, Repr

/-- The Carillon chains, and the moments at which the PWR_GOOD inputs that are high rose (R401). -/
structure CarState where
  chains : List (Nat × CarChain) := []
  goodSince : List (Nat × Nat) := []
deriving DecidableEq, Repr

/-- Test access (R519, R41): the instruction register of the TAP. -/
structure TapState where
  ir : BitVec 8 := 0x01
deriving DecidableEq, Repr

/-- A UART beside its page (R413-R415): the receive FIFO oldest first (character, then PE, FE and BRK in bits 8-10),
the transmit FIFO, the character sent last, and whether it still loses characters after a wake. -/
structure UartState where
  rx : List Nat := []
  tx : List Byte := []
  out : Option Byte := none
  deaf : Bool := false
deriving DecidableEq, Repr

/-- A loaded firmware image (R433, R438, R442, R445, R449): its versions, the mailbox interface level, its partners,
the CLALA range it accepts, and the key slot that verified it. -/
structure ImgInfo where
  fwVer : Nat
  secVer : Nat
  iface : Nat
  partners : List Nat
  clalaMin : Nat
  clalaMax : Nat
  keySlot : Option Nat
deriving DecidableEq, Repr

/-- Boot, mailbox and power beside their pages: the level of PORST_N, BOOT_MODE as sampled, whether the ROM waits for
a PCI Express boot (R434, R440), the variant as the fuses gave it at boot, whether LIMITED mode holds the engines in
reset (R443), the flash on the QSPI bus, the loaded images, the count and time of the override
sequence (R444), the chain of a mailbox Carillon transaction in progress, the lamp ceilings of the window (R458), the
RAIL_OK inputs, the start of the sequencer's present step and a restart that waits for the power-down (R502, R504,
R520), the ceilings of the thermal and power loops in MHz (none: no limit yet), periods in a row with a margin above
60 ps, the moment of a code change not yet settled and a clock rise that waits for it (R455, R501), since when the cap
is unmet (R456), and since when the release condition of CORE_UV holds (R457). -/
structure PwrState where
  porstN : Bool := false
  bootMode : Bool := false
  romWait : Bool := false
  variantE : Bool := false
  held : Bool := false
  flash : Option (List (Nat × BitVec 8)) := none
  sac : Option ImgInfo := none
  prc : Option ImgInfo := none
  ovrCount : Nat := 0
  ovrAt : Nat := 0
  mbCar : Option Nat := none
  mbSince : Option Nat := none
  mbDone : Bool := false
  lampCeil : List Nat := []
  railOk : Nat := 0
  seqAt : Nat := 0
  restart : Bool := false
  fTherm : Option Nat := none
  fPwr : Option Nat := none
  avsHigh : Nat := 0
  vidAt : Option Nat := none
  choNext : Option Nat := none
  capSince : Option Nat := none
  uvOkSince : Option Nat := none
deriving DecidableEq, Repr

/-- What the Sacristan firmware writes to its own log (R34, R404): a mailbox wait or a BOUNDARY wait that ran out, a chain
whose line is held low, a device that no longer answers. -/
inductive SacNote
  | mailboxTimeout
  | boundaryTimeout (chain : Nat)
  | chainFailed (chain : Nat)
  | deviceLost (chain addr : Nat)
deriving DecidableEq, Repr

/-- What the Sacristan firmware remembers for its policies (R480, R483): how many of the journal's oldest entries it has
taken note of, the moment of each stall's latest SUSPECT, the SUSPECT_CLR writes due, samples of the BANK_CE counters of the
last second by bank, the moments of errors by bank, channel (256 up) and unit (512 up), the pending retirement set,
whether the Precentor firmware of this chip stopped and whether its part in that is done; and, by 32 times the chain plus the
address, the RATING that a lamp head's latest LAMP_STATUS gave (R50, R393) and the polls in a row without an answer (R404);
and its log, with the moments. -/
structure SacFw where
  noted : Nat := 0
  suspects : List (Nat × Nat) := []
  clears : List (Nat × Nat) := []
  samples : List (Nat × List (Nat × Nat)) := []
  errors : List (Nat × List Nat) := []
  banks : List Nat := []
  channel : Option Nat := none
  prcLost : Bool := false
  prcTold : Bool := false
  lamps : List (Nat × Nat) := []
  polls : List (Nat × Nat) := []
  log : List (Nat × SacNote) := []
deriving DecidableEq, Repr

/-- A node of a graph image (R304). -/
structure GNode where
  id : Nat
  kind : Nat
  unit : Nat
  srcPos : Nat
  srcPort : Nat
  tapChip : Nat
  outBuf : Nat
deriving DecidableEq, Repr

/-- An edge of a graph image (R305). -/
structure GEdge where
  src : Nat
  dst : Nat
  buf : Nat
  tid : Nat
  carry : Bool
deriving DecidableEq, Repr

/-- A buffer of a graph image (R305). -/
structure GBuf where
  kind : Nat
  arena : Nat
  desc : Nat
  off : Nat
  slotBytes : Nat
deriving DecidableEq, Repr

/-- A piece of a graph image (R306). -/
structure GPiece where
  tid : Nat
  piece : Nat
  ndim : Nat
  origin : List Nat
  extent : List Nat
  buf : Nat
  owner : List Nat
  repl : List Nat
deriving DecidableEq, Repr

/-- A placement of a graph image (R307): QUEUES of each position as a 128-bit number. -/
structure GPlace where
  alive : Nat
  units : List Nat
  queues : List Nat
  nodePos : List Nat
  tmpl : List Nat
deriving DecidableEq, Repr

/-- A loaded graph image (R303): the header fields that run time needs, the records, and the sections whose format
belongs to Clala and the Precentor firmware. -/
structure GImage where
  size : Nat
  chapter : Nat
  pacing : Nat
  depth : Nat
  nDesc : Nat
  nEvt : Nat
  seqMask : Nat
  nodes : List GNode
  edges : List GEdge
  bufs : List GBuf
  pieces : List GPiece
  places : List GPlace
  templates : List Byte
  tmplOff : Nat
  init : List Byte
deriving DecidableEq, Repr

/-- A command of a frame that has been posted: its queue, its count there and its node. -/
structure GCmd where
  q : Nat
  count : Word
  node : Nat
deriving DecidableEq, Repr

/-- A frame of a running graph that is not committed (R311-R317): its index, step, the steps skipped before it, the
timebase value of its first fire, the fires made, the number of its first fire by sequencer, whether its DMD_PERIOD commands have been
posted, whether the chip has voted, the head's decision, whether its templates have
been expanded, commands waiting for room in their rings (node, queue, words), commands posted, the result headers written by
node, whether DONE has been signalled, the PFLAGS of its completion records by node, the passes in which a command of it has ended in
error, whether the present one is among them (R321), and whether test access was active while it was in flight (R41). -/
structure GFrame where
  a : Nat
  step : Nat
  skipped : Nat
  start : Nat
  fired : Nat := 0
  first : List (Nat × Nat) := []
  dmdPosted : Bool := false
  voted : Bool := false
  run : Option Bool := none
  posted : Bool := false
  todo : List (Nat × Nat × List DWord) := []
  cmds : List GCmd := []
  headers : List Nat := []
  done : Bool := false
  flags : List (Nat × Nat) := []
  failed : Nat := 0
  bad : Bool := false
  debug : Bool := false
deriving DecidableEq, Repr

/-- A source record written for a port since START (R314): of the demodulator or of a tapped frame, its status, code
index and frame number, and for a tapped frame the chip position and the fire of its tag. -/
structure SrcRec where
  port : Nat
  dmd : Bool
  status : Nat
  code : Nat
  num : Nat
  chip : Nat := 0
  fire : Nat := 0
deriving DecidableEq, Repr

/-- A graph slot that is not EMPTY (R308-R323): its image, the baselines of its counters, the timebase value of step 0,
the steps decided, the counts of ADMIT, of RUN with ABANDON and of COMMIT seen, the steps skipped since the last admitted
one, the head's latest decision time, the frames in flight, the source records seen, IN_POST counts by node, the votes and
losses accounted for by position, QUIET and RESUME as the present switch found them, the head's DONE offsets, the units of this
position whose loss the slot has signalled, the placement being taken, whether a STOP waits behind a switch, and whether this chip has answered QUIET. -/
structure GSlot where
  img : GImage
  base : List Nat := []
  t0 : Nat := 0
  steps : Nat := 0
  admitted : Nat := 0
  decided : Nat := 0
  committed : Nat := 0
  skipped : Nat := 0
  lastD : Option Nat := none
  frames : List GFrame := []
  recs : List SrcRec := []
  inPosts : List (Nat × Nat) := []
  votes : List (Nat × Nat) := []
  losses : List (Nat × Nat) := []
  quiets : Nat := 0
  resumes : Nat := 0
  doneOff : List (Nat × Nat) := []
  told : Nat := 0
  newPlace : Option Nat := none
  stopping : Bool := false
  quiet : Bool := false
deriving DecidableEq, Repr

/-- The Precentor beside its pages: the graph slots that are not EMPTY, the units lost by position as the slots have learned of
them (R319, R323), the handles of state tensors whose initial content is to be rewritten (R255), and the PMP entries that are set, by
256·core + entry with 0 the Sacristan core and 1 and 2 the Precentor cores (R87, R301): configuration and address. -/
structure PrcState where
  slots : List (Nat × GSlot) := []
  lost : List (Nat × Nat) := []
  rewrites : List Nat := []
  pmp : List (Nat × Nat × Word) := []
deriving DecidableEq, Repr

/-- The endpoint beside its pages (R410, R411, R452): the armed vectors, the MSI-X pending bits, the number of
messages sent so far by vector, whether the function is in D3hot, the error messages sent (R406, R424), and whether an
uncorrectable error has met an outbound read that is still to be answered. -/
structure PcieState where
  armed : DWord := BitVec.allOnes 64
  pba : DWord := 0
  sent : List (Nat × Nat) := []
  d3hot : Bool := false
  errors : List AerKind := []
  badRead : Bool := false
deriving DecidableEq, Repr

/-- The DMA engine beside its pages (R338): the 256-byte blocks that the prefetcher has been asked for, by context·2^31 + block, with
the channel that asked first. -/
structure DmaState where
  blocks : List (Nat × Nat) := []
deriving DecidableEq, Repr

/-- The chip: everything but the fuses, the memory contents and the queue of waiting commands. -/
structure Chip where
  regs : List (Nat × Word) := []
  time : TimeState := {}
  bus : BusState := {}
  vrg : VrgState := {}
  rood : RoodState := {}
  desc : DescState := {}
  memc : MemCtl := {}
  pcie : PcieState := {}
  queues : QueueState := {}
  cho : ChoirState := {}
  lis : LisState := {}
  dmd : DmdState := {}
  ntx : NtxState := {}
  link : LinkState := {}
  car : CarState := {}
  uarts : List (Nat × UartState) := []
  pwr : PwrState := {}
  fw : SacFw := {}
  prc : PrcState := {}
  dma : DmaState := {}
  tap : TapState := {}
deriving DecidableEq, Repr

/-- The state of the model: the commands waiting, first in first out, the fuses, memory and the chip. -/
structure State where
  pending : List Instr
  fuses : Fuses
  mem : Memory
  chip : Chip
deriving DecidableEq, Repr

/-- The machine right after power-on reset: every register at its reset value (nothing is listed), nothing
in memory, and no command waiting. -/
def State.reset : State := { pending := [], fuses := {}, mem := {}, chip := {} }

end Sys2Proof.Machine
end

