-- ==== Sys2Proof/Machine/Ops.lean ====
section
/-! DEFINITION. The named operations over the chip's registers: fields, counters, interrupt causes (R68-R74),
time and the timebase (R419-R422), error records and the journal (R466-R469), the interrupt vectors (R409,
R410), the check a register write passes (R64-R70, R82, R486), and the two shapes every meaning has. -/

namespace Sys2Proof.Machine

/-- Bits [lo+w-1 : lo] of a number. -/
def bits (v lo w : Nat) : Nat := v / 2 ^ lo % 2 ^ w

/-- A number with bits [lo+w-1 : lo] replaced. -/
def putBits (v lo w x : Nat) : Nat := v - bits v lo w * 2 ^ lo + x % 2 ^ w * 2 ^ lo

/-- A register word from a number. -/
def word (v : Nat) : Word := BitVec.ofNat 32 v

/-- The integer that a field of w bits spells in two's complement. -/
def sext (w v : Nat) : Int := if 2 ^ (w - 1) ≤ v % 2 ^ w then (v % 2 ^ w : Nat) - (2 ^ w : Nat) else (v % 2 ^ w : Nat)

/-- The w-bit two's complement pattern of an integer. -/
def unsext (w : Nat) (i : Int) : Nat := (i % (2 ^ w : Nat)).toNat

/-- The owner code of a requester (R80). -/
def ownerCode : Requester → Nat
  | .host => 1 | .sac => 2 | .prc0 => 3 | .prc1 => 4

/-- One key per requester for shadows and held words (R76). -/
def reqKey (addr : Nat) (r : Requester) : Nat := 4 * addr + (ownerCode r - 1)

/-! Registers. -/

/-- The stored word of a register. -/
def Chip.rd (c : Chip) (p off : Nat) : Word := (aget c.regs (regAddr p off)).getD (resetWord (regAddr p off))

/-- A register set to a word. -/
def Chip.wr (c : Chip) (p off : Nat) (v : Word) : Chip := { c with regs := aput c.regs (regAddr p off) v }

/-- A field of a register. -/
def Chip.fld (c : Chip) (p off lo w : Nat) : Nat := bits (c.rd p off).toNat lo w

/-- A field of a register set. -/
def Chip.setFld (c : Chip) (p off lo w x : Nat) : Chip := c.wr p off (word (putBits (c.rd p off).toNat lo w x))

/-- A bit of a register. -/
def Chip.bit (c : Chip) (p off b : Nat) : Bool := c.fld p off b 1 == 1

/-- A bit of a register set or cleared. -/
def Chip.setBit (c : Chip) (p off b : Nat) (v : Bool) : Chip := c.setFld p off b 1 v.toNat

/-- A pair of registers read as one number (R76). -/
def Chip.rd64 (c : Chip) (p off : Nat) : Nat := (c.rd p off).toNat + 2 ^ 32 * (c.rd p (off + 4)).toNat

/-- A pair of registers set. -/
def Chip.wr64 (c : Chip) (p off v : Nat) : Chip := (c.wr p off (word v)).wr p (off + 4) (word (v / 2 ^ 32))

/-- An event counter of 32 bits advanced, wrapping (R72, CNT). -/
def Chip.count (c : Chip) (p off : Nat) (n : Nat := 1) : Chip := c.wr p off (c.rd p off + word n)

/-- An event counter of w bits advanced, saturating. -/
def Chip.countSat (c : Chip) (p off w n : Nat) : Chip :=
  c.wr p off (word (min ((c.rd p off).toNat + n) (2 ^ w - 1)))

/-- Interrupt causes set (R68, R74). -/
def Chip.raiseMask (c : Chip) (p : Nat) (m : Word) : Chip := c.wr p 0x014 (c.rd p 0x014 ||| m)

/-- One interrupt cause set. -/
def Chip.raise (c : Chip) (p b : Nat) : Chip := c.raiseMask p (word (2 ^ b))

/-- The registers of a page at and above an offset return to their reset values, but for those kept. -/
def Chip.resetPage (c : Chip) (p lo : Nat) (keep : Nat → Bool := fun _ => false) : Chip :=
  { c with regs := c.regs.filter fun r => !(r.1 / 0x1000 == p && decide (lo ≤ r.1 % 0x1000) && !keep (r.1 % 0x1000)) }

/-- ENABLE of a page (R68, R525). -/
def Chip.enabled (c : Chip) (p : Nat) : Bool := c.bit p 0x00C 0

/-- RESET_BUSY of a page (R68). -/
def Chip.resetBusy (c : Chip) (p : Nat) : Bool := c.bit p 0x010 0

/-! Time. -/

/-- One more open value drawn: the counter a free value is applied to. -/
def Chip.draw (c : Chip) : Nat × Chip :=
  (c.time.free, { c with time := { c.time with free := c.time.free + 1 } })

/-- The denominator of the timebase's exact fraction: 250·2^32 (R419). -/
def tbDen : Nat := 250 * 2 ^ 32

/-- The timebase set to a value: a step (R420). -/
def Chip.stepTb (c : Chip) (v : DWord) : Chip :=
  let c := { c with time := { c.time with tb := v, tbFrac := 0, slewPart := 0, tbStep := none } }
  ((c.wr 0x0D0 0x054 0).count 0x0D0 0x0A0).raise 0x0D0 0

/-- The timebase over n CK_AON ticks (R419): the rate of RATE_ADJ, and 0.004 ns a tick of OFFSET_SLEW. -/
def Chip.ticks (c : Chip) (n : Nat) : Chip :=
  let rate := (c.rd 0x0D0 0x050).toInt
  let slew := (c.rd 0x0D0 0x054).toInt
  let m := min n (slew.natAbs * 250 - c.time.slewPart)
  let units : Int := n * (40 * tbDen + 40 * 250 * rate) + slew.sign * m * 2 ^ 32
  let total : Nat := (((c.time.tb.toNat * tbDen + c.time.tbFrac : Nat) : Int) + units).toNat
  let gone := c.time.slewPart + m
  let left := slew - slew.sign * (gone / 250 : Nat)
  let c := if left = slew then c else c.wr 0x0D0 0x054 (BitVec.ofInt 32 left)
  { c with time := { c.time with tb := BitVec.ofNat 64 (total / tbDen), tbFrac := total % tbDen, slewPart := gone % 250 } }

/-- The clock of the environment moves forward to a moment (R29, R419); it never moves back. -/
def Chip.advance (c : Chip) (t : Nat) : Chip :=
  let n := t / 40 - c.time.now / 40
  let c := { c with time := { c.time with now := max c.time.now t } }
  if n = 0 then c
  else match c.time.tbStep with
    | some v => (c.stepTb v).ticks (n - 1)
    | none => c.ticks n

/-- The least k below 2^n with a property that, once it holds, goes on holding, counted from `lo`. -/
def leastFrom (p : Nat → Bool) : Nat → Nat → Nat
  | 0, lo => lo
  | n + 1, lo => if p (lo + 2 ^ n - 1) then leastFrom p n lo else leastFrom p n (lo + 2 ^ n)

/-- The clock moves to the first tick at which the timebase has reached a value (R419). -/
def Chip.advanceTb (c : Chip) (v : Nat) : Chip :=
  if v ≤ c.time.tb.toNat then c
  else
    let tick := fun n => (c.time.now / 40 + n) * 40
    c.advance (tick (leastFrom (fun n => decide (v ≤ (c.advance (tick n)).time.tb.toNat)) 48 0))

/-- A step of the timebase by an offset at the next tick (R420); a step that software has set stands (R375). -/
def Chip.stepBy (c : Chip) (d : Int) : Chip :=
  if c.time.tbStep.isSome then c
  else { c with time := { c.time with tbStep := some (BitVec.ofInt 64 ((c.time.tb.toNat : Int) + 40 + d)) } }

/-- The first 1 ms control tick at or after a moment (R83, R471). -/
def tickAt (t : Nat) : Nat := (t + 999999) / 1000000 * 1000000

/-- A timestamp (R422): the timebase with an error within the bound of its capture point. -/
def Chip.stamp (c : Chip) (bound : Nat) : Nat × Chip :=
  let (n, c) := c.draw
  ((c.time.tb.toNat + Config.stampError n % (2 * bound + 1) + 2 ^ 64 - bound) % 2 ^ 64, c)

/-- PSTATE (R451): 0 ACTIVE, 1 IDLE, 2 SLEEP. -/
def Chip.pstate (c : Chip) : Nat := c.fld 0x002 0x06C 0 3

/-- The datapath clocks are stopped by JUNCTION_TRIP (R457). -/
def Chip.tripped (c : Chip) : Bool := c.bit 0x002 0x050 24 || c.fld 0x002 0x080 0 3 == 5

/-- The home clock of a page does not run for its register logic (R66, R77, R451): CK_CHO and CK_VEC in IDLE, and in
SLEEP every clock but CK_AON. -/
def Chip.clockStopped (c : Chip) (p : Nat) : Bool :=
  let cho := 0x040 ≤ p && p ≤ 0x060
  let vec := 0x020 ≤ p && p ≤ 0x034
  let aon := p == 0x002 || p == 0x003 || p == 0x0D0 || p == 0x0D8 || p == 0x0D9
  (c.pstate == 1 && (cho || vec)) || (c.pstate == 2 && !aon)

/-! Error records (R466-R469). -/

/-- Error classes of R466. -/
def clsUse : Nat := 1
def clsAccess : Nat := 2
def clsEcc : Nat := 3
def clsCmd : Nat := 4
def clsLink : Nat := 5
def clsLease : Nat := 6
def clsUnit : Nat := 7
def clsProt : Nat := 8
def clsReset : Nat := 9

/-- A record enters the journal, or is counted as overflow (R469). -/
def Chip.journal (c : Chip) (e : JrnEntry) : Chip :=
  if c.vrg.journal.length < 256 then { c with vrg := { c.vrg with journal := c.vrg.journal ++ [e] } }
  else c.count 0x005 0x05C

/-- An error record written to the ERR_LOG of a page and copied to the journal (R468, R469). -/
def Chip.logErr (c : Chip) (p cls code owner : Nat) (detail : Word) : Chip :=
  let lo := word (cls * 2 ^ 28 + code % 256 * 2 ^ 20 + owner % 16 * 2 ^ 16 + (c.bit p 0x014 31).toNat * 2 ^ 15
    + bits c.time.tb.toNat 20 15)
  (((c.wr p 0x020 lo).wr p 0x024 detail).raise p 31).journal { page := p, lo := lo, hi := detail, tb := c.time.tb }

/-- A use error of a register write: its DETAIL is the device address (R468). -/
def Chip.logUse (c : Chip) (p code : Nat) (req : Requester) (addr : Nat) : Chip :=
  c.logErr p clsUse code (ownerCode req) (word (addr % 2 ^ 24))

/-! Interrupt lines and vectors (R69, R409, R410). -/

/-- IRQ_RAW as read: JOURNAL of the VRG page 0x005 is set while the journal holds an entry (R488). -/
def Chip.irqRaw (c : Chip) (p : Nat) : Word :=
  if p = 0x005 ∧ c.vrg.journal ≠ [] then c.rd p 0x014 ||| 1 else c.rd p 0x014

/-- A page's interrupt line is high (R69). -/
def Chip.lineHigh (c : Chip) (p : Nat) : Bool := c.irqRaw p &&& c.rd p 0x018 != 0

/-- The pages whose IRQ_EN is listed, and so the only ones whose line can be high. -/
def Chip.linePages (c : Chip) : List Nat :=
  c.regs.filterMap fun r => if r.1 % 0x1000 = 0x018 ∧ c.lineHigh (r.1 / 0x1000) then some (r.1 / 0x1000) else none

/-- The groups of R409 with a line high that are routed to the host, as vectors. -/
def Chip.highVectors (c : Chip) : List Nat :=
  c.linePages.filterMap fun p => match irqGroup p with
    | some k => if c.bit 0x0C0 (0x0C0 + 4 * k) 14 then some (c.fld 0x0C0 (0x0C0 + 4 * k) 0 6) else none
    | none => none

/-- The groups of R409 that interrupt the Sacristan: a line high and TO_SAC set. -/
def Chip.sacGroups (c : Chip) : List Nat :=
  (c.linePages.filterMap fun p => (irqGroup p).filter fun k => c.bit 0x0C0 (0x0C0 + 4 * k) 15).eraseDups

/-- A vector's MSI-X entry is masked (R408, vector control bit 0). -/
def Chip.vectorMasked (c : Chip) (v : Nat) : Bool := c.bit 0x0C1 (0x400 + 16 * v + 12) 0

/-- One message of a vector: it leaves while the link is up (R412), or waits as a pending bit while its entry
is masked (R410, R411). -/
def deliverVector (up masked : Bool) (v : Nat) (s : PcieState) : PcieState :=
  if masked then { s with pba := s.pba ||| BitVec.ofNat 64 (2 ^ v) }
  else if up then { s with sent := aput s.sent v ((aget s.sent v).getD 0 + 1) }
  else s

/-- Every armed vector with a line high whose entry is not masked disarms and sends its message (R410). -/
def Chip.settle (c : Chip) : Chip :=
  let up := c.bit 0x0C0 0x040 8
  let one := fun (s : PcieState) v =>
    if s.armed.getLsbD v && !c.vectorMasked v then
      deliverVector up false v { s with armed := s.armed &&& ~~~(BitVec.ofNat 64 (2 ^ v)) }
    else s
  { c with pcie := c.highVectors.foldl one c.pcie }

/-- The MSI-X pending bits: a result vector's message that waits, and every armed vector with a line high whose entry is
masked, which no longer stands once its lines fall (R410, after the PCI Express rules). -/
def Chip.msixPending (c : Chip) : BitVec 64 :=
  c.highVectors.foldl (fun b v =>
    if c.pcie.armed.getLsbD v && c.vectorMasked v then b ||| BitVec.ofNat 64 (2 ^ v) else b) c.pcie.pba

/-- A result vector raised once (R411). -/
def Chip.resultVector (c : Chip) (v : Nat) : Chip :=
  { c with pcie := deliverVector (c.bit 0x0C0 0x040 8) (c.vectorMasked v) v c.pcie }

/-! Lease entries of the Verger table (R470, R487, R530). -/

/-- A lease entry by LV_SEL. -/
def Chip.leaseAux (c : Chip) (sel : Nat) : LeaseAux := (aget c.vrg.leases sel).getD {}

/-- A lease entry replaced. -/
def Chip.setLeaseAux (c : Chip) (sel : Nat) (x : LeaseAux) : Chip := { c with vrg := { c.vrg with leases := aput c.vrg.leases sel x } }

/-- A lease entry granted or renewed now. HOLD stays (R530). -/
def Chip.leaseGrant (c : Chip) (sel : Nat) : Chip := c.setLeaseAux sel { c.leaseAux sel with state := 1, since := c.time.now }

/-- A lease entry that is FREE again. HOLD stays, and so does the moment that LV_AGE_MS counts from (R487, R530). -/
def Chip.leaseFree (c : Chip) (sel : Nat) : Chip := c.setLeaseAux sel { c.leaseAux sel with state := 0 }

/-- LV_SEL of a bank lock (R470). -/
def lockSel (n : Nat) : Nat := 0x1000 + n

/-- Bank locks let go: their words are no longer anyone's and their entries are FREE (R109). -/
def Chip.dropLocks (c : Chip) (ns : List Nat) : Chip :=
  ns.foldl (fun (c : Chip) n => ({ c with vrg := { c.vrg with locks := adel c.vrg.locks n } }).leaseFree (lockSel n)) c

/-- A reply noted. -/
def Chip.reply (c : Chip) (k : Nat) (r : Reply) : Chip := { c with bus := { c.bus with replies := aput c.bus.replies k r } }

/-! The check of a register write. -/

/-- The pages of the blocks that LIMITED mode holds in reset (R443): they read as after reset and take no write. The slot
pages are not among them, since a LOAD ends with LIMITED. -/
def heldBlock (p : Nat) : Bool :=
  p == 0x010 || p == 0x011 || (0x024 ≤ p && p ≤ 0x027) || (0x030 ≤ p && p ≤ 0x034) || (0x040 ≤ p && p ≤ 0x060) || p == 0x0B4

/-- A page that carries no lease (R486). -/
def isVrgPage (p : Nat) : Bool := p == 0x004 || p == 0x005

/-- LEASE.STATE (R80), 0 on a page without a lease. -/
def Chip.leaseState (c : Chip) (p : Nat) : Nat := if isVrgPage p then 0 else c.fld p 0x028 4 4

/-- LEASE.OWNER (R80). -/
def Chip.leaseOwner (c : Chip) (p : Nat) : Nat := c.fld p 0x028 8 4

/-- The holder of a page's lease is this requester. -/
def Chip.holds (c : Chip) (req : Requester) (p : Nat) : Bool := c.leaseState p == 1 && c.leaseOwner p == ownerCode req

/-- What the checks before a register's own rules make of a write (R64, R66, R70, R82, R486): it goes on, or
it ends with the change given. -/
inductive Gate
  | pass
  | stop (c : Chip)
deriving DecidableEq

/-- The checks in their order: the page is decoded first (R66), then the size (R64), the home clock
(R77), the pages without a lease
(R486), the lease (R82), LIMITED mode (R443), and RESET_BUSY (R70). A write that a quarantined page ignores comes from another than the lease holder,
the Verger, and sets WR_DENIED as every write that R82 ignores (R68, R70). -/
def Chip.gate (c : Chip) (req : Requester) (addr : Nat) (size : RegSize) : Gate :=
  let p := addr / 0x1000
  let off := addr % 0x1000
  match pageClass p with
  | none => .stop (c.logUse 0x000 0x02 req addr)
  | some _ =>
    if size ≠ .b4 then .stop (c.logUse 0x000 0x01 req addr)
    else if c.clockStopped p then .stop (c.logErr 0x000 clsAccess 0x20 (ownerCode req) (word (addr % 2 ^ 24)))
    else if isVrgPage p then
      if req = .sac ∨ (req = .host ∧ p = 0x005 ∧ off = 0x068) then
        (if 0x040 ≤ off ∧ c.resetBusy p then .stop (c.logUse p 0x03 req addr) else .pass)
      else .stop (c.raise p 29)
    else if off = 0x028 ∨ off = 0x030 then .pass
    else if c.leaseState p = 2 then .stop (c.raise p 29)
    else if c.leaseState p = 1 ∧ c.leaseOwner p ≠ ownerCode req then .stop (c.raise p 29)
    else if c.pwr.held && heldBlock p then .stop c
    else if 0x040 ≤ off ∧ c.resetBusy p then .stop (c.logUse p 0x03 req addr)
    else .pass

/-- A register write of four bytes that passes the checks runs its rule, else the check's own effect. -/
def Chip.gated (c : Chip) (req : Requester) (p off : Nat) (f : Chip → Chip) : Chip :=
  match c.gate req (regAddr p off) .b4 with
  | .pass => f c
  | .stop c => c

/-- What a write of a word leaves in a register, by the kinds of its fields (R72): RW and CNT fields take the value, W1C
bits written 1 fall, W1S bits written 1 rise, and every other bit stays. -/
def RegRow.store (r : RegRow) (old v : Word) : Word :=
  let w := r.rw ||| r.cnt
  (((old &&& ~~~w) ||| (v &&& w)) &&& ~~~(v &&& r.w1c)) ||| (v &&& r.w1s)

/-- A register written under the rules of its fields alone; an offset without a register ignores it (R65, R72, R74). -/
def Chip.plain (c : Chip) (p off : Nat) (v : Word) : Chip :=
  match regRow p off with
  | some r => c.wr p off (r.store (c.rd p off) v)
  | none => c

/-- A write to page 0x008 that is not the next one of an override sequence in progress ends it (R444). -/
def Chip.ovrBreak (c : Chip) : Chip :=
  if c.pwr.ovrCount = 0 then c else { c.count 0x008 0x0DC with pwr := { c.pwr with ovrCount := 0 } }

/-- What the write of a page's header register does to an override sequence in progress (R444). -/
def Chip.ovrCut (c : Chip) (p : Nat) : Chip := if p = 0x008 then c.ovrBreak else c

/-- A LO word of a writable pair written (R76): it is held for its requester, and one of another pair stays held (DEDUCED: log
entry 16). -/
def Chip.pairLoWrite (c : Chip) (req : Requester) (p off : Nat) (lo : Word) : Chip :=
  { c with bus := { c.bus with held := aput c.bus.held (reqKey (regAddr p off) req) lo } }

/-- A HI word of a writable pair written (R76): with the LO word that this requester holds both halves take effect
together, otherwise HI alone. The offset is LO's. -/
def Chip.pairHiWrite (c : Chip) (req : Requester) (p off : Nat) (hi : Word) : Chip :=
  let k := reqKey (regAddr p off) req
  match aget c.bus.held k with
  | some lo => ({ c with bus := { c.bus with held := adel c.bus.held k } }.plain p off lo).plain p (off + 4) hi
  | none => c.plain p (off + 4) hi

/-! The shapes of meanings. -/

/-- What a command that touches memory works on: the chip, memory as it stands, the fuses (never changed by
it), the memory changes made so far, latest first, and the ranges of device addresses written through the Rood so far. -/
structure Work where
  chip : Chip
  mem : Memory
  fuses : Fuses
  ops : List MemOp := []
  wrote : List (Nat × Nat) := []

/-- The state after a command that changes only the chip. -/
def State.onChip (s : State) (f : Chip → Chip) : State := { s with chip := (f s.chip).settle }

/-- Work with its chip changed. -/
def Work.onChip (w : Work) (f : Chip → Chip) : Work := { w with chip := f w.chip }

/-- Work with its chip changed by a rule that also answers a value. -/
def Work.useChip {α : Type} (w : Work) (f : Chip → α × Chip) : α × Work :=
  let (a, c) := f w.chip
  (a, { w with chip := c })

end Sys2Proof.Machine
end

