-- ==== Sys2Proof/Machine/Mem.lean ====
section
/-! DEFINITION. Memory: the device map (R85), where a Cloister byte lies (R88) and which stall serves a window
(R282), granules with their ECC state and poison (R104-R106), host memory through the outbound windows (R407),
and the reads and writes of bytes that every requester uses. -/

namespace Sys2Proof.Machine

/-- What a device address names (R85). -/
inductive Target
  | regs | cls | stall | rom | sacMem | prcMem | lp5x | host | hole
deriving DecidableEq, Repr

/-- Cloister's first address (R85). -/
def clsBase : Nat := 0x10000000
/-- The first address of the stall SRAM windows (R85). -/
def stallBase : Nat := 0x20000000
/-- LP5X's first address (R85). -/
def lpBase : Nat := 0x1000000000
/-- The first address of host memory (R85). -/
def hostBase : Nat := 0x4000000000

/-- The map of R85. -/
def target (pa : Nat) : Target :=
  if pa < 0x1000000 then .regs
  else if clsBase ≤ pa ∧ pa < 0x12000000 then .cls
  else if stallBase ≤ pa ∧ pa < 0x21000000 then .stall
  else if 0x40000000 ≤ pa ∧ pa < 0x40040000 then .rom
  else if 0x41000000 ≤ pa ∧ pa < 0x41040000 then .sacMem
  else if 0x42000000 ≤ pa ∧ pa < 0x42040000 then .prcMem
  else if lpBase ≤ pa ∧ pa < 0x1800000000 then .lp5x
  else if hostBase ≤ pa ∧ pa < 0x8000000000 then .host
  else .hole

/-! The list of changes. -/

/-- One change applied. A Cloister byte of 0 is what an unlisted Cloister cell reads as (R91), so it is not
listed; cells elsewhere are listed once written. -/
def Memory.apply (m : Memory) : MemOp → Memory
  | .byte a v =>
    { m with cells := if target a = .cls ∧ v = 0 then adel m.cells a else aput m.cells a v }
  | .mark g s => { m with marks := aset m.marks g s }
  | .clear lo hi =>
    { m with
      cells := m.cells.filter fun r => !(decide (lo ≤ r.1) && decide (r.1 < hi))
      marks := m.marks.filter fun r => !(decide (lo ≤ r.1) && decide (r.1 < hi)) }
  | .hostByte a v ep => { m with host := aput m.host a v, hostEp := aset m.hostEp a (if ep then some true else none) }

/-- A list of changes applied in order. -/
def Memory.applyAll (m : Memory) (ops : List MemOp) : Memory := ops.foldl Memory.apply m

/-- No listed Cloister cell holds what an unlisted one reads as. -/
def noZeroCls (l : List Host.Cell) : Bool := l.all fun r => !(decide (target r.1 = .cls) && r.2 == 0)

/-- The canonical form of memory: addresses strictly rising everywhere, and no Cloister cell listed with 0. -/
def Memory.wf (m : Memory) : Bool :=
  arising m.cells && noZeroCls m.cells && arising m.marks && arising m.host && arising m.hostEp

/-- The state after a command that may change memory: the changes are applied in the order they were made. -/
def State.onWork (s : State) (f : Work → Work) : State :=
  let w := f { chip := s.chip, mem := s.mem, fuses := s.fuses, ops := [] }
  { s with chip := w.chip.settle, mem := s.mem.applyAll w.ops.reverse }

/-- The computations of commands that touch memory. -/
abbrev WM := StateM Work

/-- A computation run for its effect. -/
def Work.run (w : Work) (m : WM Unit) : Work := (m w).2

/-- One change made. -/
def emit (op : MemOp) : WM Unit := modify fun w => { w with mem := w.mem.apply op, ops := op :: w.ops }

/-- A change of the chip made. -/
def chipM (f : Chip → Chip) : WM Unit := modify fun w => { w with chip := f w.chip }

/-- The chip as it stands. -/
def getChip : WM Chip := do return (← get).chip

/-- One open value drawn. -/
def drawM : WM Nat := modifyGet fun w => w.useChip Chip.draw

/-- A meaning that works on memory. -/
def State.onMem (s : State) (m : WM Unit) : Host.Outcome State Fault Refusal := .next (s.onWork fun w => w.run m)

/-- A register write of four bytes that passes the checks runs a rule that may change memory. -/
def gatedM (req : Requester) (p off : Nat) (m : WM Unit) : WM Unit := do
  match (← getChip).gate req (regAddr p off) .b4 with
  | .pass => m
  | .stop c => chipM fun _ => c

/-! Places. -/

/-- The skew bit of a row-block (R89). -/
def Chip.skewed (c : Chip) (k : Nat) : Bool := c.bit 0x070 (0x080 + 4 * (k / 32)) (k % 32)

/-- The cell of a Cloister byte: the LINEAR address of its bank and row (R88). -/
def Chip.clsCell (c : Chip) (pa : Nat) : Nat :=
  let a := pa - clsBase
  let k := a / 16384
  if c.skewed k then
    clsBase + k * 16384 + a / 256 % 32 * 512 + a / 8192 % 2 * 256 + (a / 256 % 32 + a / 8 % 32) % 32 * 8 + a % 8
  else pa

/-- The Cloister address of a cell: the inverse of `clsCell`. -/
def Chip.clsAddr (c : Chip) (cell : Nat) : Nat :=
  let o := cell - clsBase
  let k := o / 16384
  if c.skewed k then
    clsBase + k * 16384 + o / 256 % 2 * 8192 + o / 512 % 32 * 256 + (o / 8 % 32 + 32 - o / 512 % 32) % 32 * 8 + o % 8
  else cell

/-- The bank of a cell, h × 32 + bank in half (R88, R115). -/
def bankOf (cell : Nat) : Nat := (cell - clsBase) / 256 % 2 * 32 + (cell - clsBase) / 8 % 32

/-- A slot of the Choir is vacant (R278, R299). -/
def Chip.slotVacant (c : Chip) (i : Nat) : Bool := c.bit 0x060 (0x080 + 4 * i) 8

/-- The physical stall that serves a slot (R278, R299). -/
def Chip.slotPhys (c : Chip) (i : Nat) : Nat := c.fld 0x060 (0x080 + 4 * i) 0 6

/-- The slot a stall serves. -/
def Chip.stallSlot (c : Chip) (s : Nat) : Option Nat :=
  (List.range 30).find? fun i => !c.slotVacant i && c.slotPhys i == s

/-- The copy of a slot's window is in progress (R298). -/
def Chip.copying (c : Chip) (i : Nat) : Bool := c.cho.copies.any fun k => k.slot == i

/-- The slot whose SRAM a window presents (R282): that of the stall named in the window's REDIRECT; none where that stall serves no
slot. -/
def Chip.windowSlot (c : Chip) (v : Nat) : Option Nat :=
  if c.copying v then some v else c.stallSlot (c.fld (pgStall v) 0x058 0 5)

/-- The physical stall that serves a window, if one does (R282). -/
def Chip.windowServer (c : Chip) (v : Nat) : Option Nat := (c.windowSlot v).map fun _ => c.fld (pgStall v) 0x058 0 5

/-- LP5X_CFG.INLINE_ECC (R94). -/
def Chip.inlineEcc (c : Chip) : Bool := c.bit 0x088 0x040 31

/-- The cell of a byte at a device address. The content of a slot's SRAM stays at the addresses of the slot's own window: a remap
copies it whole into the spare (R298), whose own window then presents it too (R282). -/
def Chip.cellOf (c : Chip) (pa : Nat) : Nat :=
  match target pa with
  | .cls => c.clsCell pa
  | .stall =>
    let v := (pa - stallBase) / 0x80000
    pa - v * 0x80000 + (c.windowSlot v).getD v * 0x80000
  | _ => pa

/-- The granule size at an address (R104): 1 where memory keeps no granules. -/
def Chip.granSize (c : Chip) (pa : Nat) : Nat :=
  match target pa with
  | .cls => 8
  | .stall => 8
  | .lp5x => if c.inlineEcc then 32 else 1
  | _ => 1

/-- The outcome class a free value names (R528). -/
def freeMark (n : Nat) : Option Mark :=
  match n % 4 with
  | 0 => none
  | 1 => some .ce
  | 2 => some .ue
  | _ => some .poison

/-- Some byte of a granule has been written. -/
def anyListed (l : List Host.Cell) (g n : Nat) : Bool := l.any fun r => decide (g ≤ r.1) && decide (r.1 < g + n)

/-- The channel of an LP5X address among those in service (R93, R96). -/
def Chip.lpChannel (c : Chip) (pa : Nat) : Nat :=
  let on := (List.range 8).filter fun i => c.bit 0x088 0x040 (8 + i)
  on.getD ((pa - lpBase) / 256 % on.length) 0

/-- An LP5X address lies in a channel that has failed (R482). -/
def Chip.lpFailed (c : Chip) (pa : Nat) : Bool := target pa == .lp5x && c.memc.failed.contains (c.lpChannel pa)

/-- The state of the granule that starts at a device address; none is clean (R104, R482, R528). -/
def Work.markOf (w : Work) (pa : Nat) : Option Mark :=
  let g := w.chip.cellOf pa
  if w.chip.inlineEcc && w.chip.lpFailed pa then some .poison
  else match aget w.mem.marks g with
  | some m => some m
  | none => match target pa with
    | .stall => if anyListed w.mem.cells g 8 then none else freeMark (Config.rawState w.chip.memc.rawEpoch g)
    | .lp5x =>
      if w.chip.inlineEcc then
        if anyListed w.mem.cells g 32 then none else freeMark (Config.lp5xState w.chip.memc.lpEpoch g)
      else none
    | _ => none

/-- The data byte at a device address, whatever the state of its granule. Host memory is not reached here. -/
def Work.byteAt (w : Work) (pa : Nat) : Byte :=
  let a := w.chip.cellOf pa
  match target pa with
  | .cls => (aget w.mem.cells a).getD 0
  | .lp5x => (aget w.mem.cells a).getD (Config.lp5xByte w.chip.memc.lpEpoch a)
  | _ => (aget w.mem.cells a).getD (Config.rawByte w.chip.memc.rawEpoch a)

/-- Consecutive bytes at a device address. -/
def Work.bytesAt (w : Work) (pa n : Nat) : List Byte := (List.range n).map fun i => w.byteAt (pa + i)

/-! ECC events (R104). -/

/-- The DETAIL of an ECC record (R468). -/
def eccDetail (pa src : Nat) : Word :=
  match target pa with
  | .cls => word (src * 2 ^ 24 + (pa - clsBase) / 8)
  | .stall => word (src * 2 ^ 24 + (pa - stallBase) % 0x80000 / 8)
  | .lp5x => word ((pa - lpBase) / 32)
  | _ => 0

/-- The stall that serves the window of an address (R282). -/
def Chip.stallOf (c : Chip) (pa : Nat) : Nat :=
  let i := (pa - stallBase) / 0x80000
  (c.windowServer i).getD i

/-- A correctable error met at a granule (R104): counted where the memory's page counts it. A word of a retired bank counts in that
bank's BANK_CE, wherever its row is held (DESIGN CHOICE: log entry 80). -/
def Chip.noteCe (c : Chip) (pa : Nat) : Chip :=
  match target pa with
  | .cls =>
    let bank := bankOf (c.clsCell pa)
    (((c.count 0x071 0x044).wr 0x071 0x054 (word ((pa - clsBase) / 8))).countSat 0x071 (0x080 + 4 * bank) 16 1).raise 0x071 0
  | .stall => c.count (pgStall (c.stallOf pa)) 0x050
  | .lp5x => c.count 0x088 0x04C
  | _ => c

/-- An uncorrectable error met at a granule (R104): counted and logged on the page of its memory. -/
def Chip.noteUe (c : Chip) (pa src : Nat) : Chip :=
  match target pa with
  | .cls =>
    (((c.count 0x071 0x048).wr 0x071 0x058 (word ((pa - clsBase) / 8))).raise 0x071 1).logErr 0x071 clsEcc 0x31 0
      (eccDetail pa src)
  | .stall =>
    (c.count (pgStall (c.stallOf pa)) 0x054).logErr (pgStall (c.stallOf pa)) clsEcc 0x31 0 (eccDetail pa src)
  | .lp5x => (c.count 0x088 0x050).logErr 0x088 clsEcc 0x31 0 (eccDetail pa src)
  | _ => c

/-- A poisoned granule met by a read (R104, R116). -/
def Chip.notePoison (c : Chip) (pa : Nat) : Chip :=
  match target pa with
  | .cls => (c.count 0x071 0x04C).raise 0x071 2
  | _ => c

/-- A pending write-back noted (R104). -/
def Chip.pendWb (c : Chip) (g : Nat) : Chip :=
  if c.memc.pendingWb.contains g then c
  else { c with memc := { c.memc with pendingWb := c.memc.pendingWb ++ [g] } }

/-- A pending write-back dropped (R108). -/
def Chip.dropWb (c : Chip) (g : Nat) : Chip :=
  { c with memc := { c.memc with pendingWb := c.memc.pendingWb.filter fun x => x != g } }

/-! Reads and writes of granules. -/

/-- A read of the granule that starts at a device address (R104): its bytes, or none for POISON. -/
def readGranule (src pa n : Nat) : WM (Option (List Byte)) := do
  let w ← get
  match w.markOf pa with
  | none => return some (w.bytesAt pa n)
  | some .ce =>
    chipM fun c => (c.noteCe pa).pendWb (c.cellOf pa)
    emit (.mark (w.chip.cellOf pa) (some .ce))
    return some (w.bytesAt pa n)
  | some .ue =>
    chipM fun c => (c.noteUe pa src).dropWb (w.chip.cellOf pa)
    emit (.mark (w.chip.cellOf pa) (some .poison))
    return none
  | some .poison =>
    chipM fun c => c.notePoison pa
    return none

/-- The bytes of a granule written, with its state. -/
def storeGranule (pa : Nat) (bytes : List Byte) (m : Option Mark) : WM Unit := do
  let c ← getChip
  let g := c.cellOf pa
  for (b, i) in bytes.zipIdx do
    emit (.byte (g + i) b)
  if c.granSize pa ≠ 1 then
    emit (.mark g m)
    chipM fun c => c.dropWb g

/-- New bytes put over old ones at an offset; none keeps the old byte's place with 0 data (a poisoned lane). -/
def overlay (old : List Byte) (off : Nat) (new : List (Option Byte)) : List Byte :=
  old.take off ++ new.map (fun b => b.getD 0) ++ old.drop (off + new.length)

/-- A write into the granule that starts at a device address (R105, R106): the whole granule, or part of it as
a read-modify-write. Bytes that are none carry poison. -/
def writeGranule (src pa n off : Nat) (new : List (Option Byte)) : WM Unit := do
  let w ← get
  let poisoned := new.any Option.isNone
  if off = 0 ∧ new.length = n then
    storeGranule pa (new.map fun b => b.getD 0) (if poisoned ∧ n ≠ 1 then some .poison else none)
  else
    let merged := overlay (w.bytesAt pa n) off new
    match w.markOf pa with
    | none => storeGranule pa merged (if poisoned then some .poison else none)
    | some .ce =>
      chipM fun c => c.noteCe pa
      storeGranule pa merged (if poisoned then some .poison else none)
    | some .ue =>
      chipM fun c => c.noteUe pa src
      storeGranule pa merged (some .poison)
    | some .poison => storeGranule pa merged (some .poison)

/-- A byte range cut at the boundaries of granules: granule start, offset in it and length, by fuel. -/
def granChunks (g : Nat) : Nat → Nat → Nat → List (Nat × Nat × Nat)
  | 0, _, _ => []
  | f + 1, pa, n =>
    if n = 0 then []
    else
      let len := min n (g - pa % g)
      (pa / g * g, pa % g, len) :: granChunks g f (pa + len) (n - len)

/-! Host memory (R407, R412). -/

/-- An outbound window's bus address, if it is valid (R407). -/
def Chip.busAddr (c : Chip) (pa : Nat) : Option Nat :=
  let n := (pa - hostBase) / 2 ^ 32
  if c.bit 0x0C2 (0x040 + 8 * n) 31 then some ((c.rd 0x0C2 (0x044 + 8 * n)).toNat * 2 ^ 32 + (pa - hostBase) % 2 ^ 32)
  else none

/-- LINK_UP (R425). -/
def Chip.linkUp (c : Chip) : Bool := c.bit 0x0C0 0x040 8

/-- An outbound read (R407, R412): the bytes, each none where it is poison. The flag says that the completion
was an error (R340). A read that an uncorrectable AER error has met returns POISON (R424). -/
def hostRead (pa n : Nat) : WM (List (Option Byte) × Bool) := do
  let w ← get
  if !w.chip.linkUp then
    chipM fun c => c.count 0x0C0 0x050
    return (List.replicate n none, true)
  if w.chip.pcie.badRead then
    chipM fun c => { c with pcie := { c.pcie with badRead := false } }
    return (List.replicate n none, false)
  match w.chip.busAddr pa with
  | none =>
    chipM fun c => c.count 0x0C0 0x054
    return (List.replicate n none, true)
  | some ba =>
    return ((List.range n).map fun i =>
      if aget w.mem.hostEp (ba + i) = some true then none
      else some ((aget w.mem.host (ba + i)).getD (Config.hostByte (ba + i))), false)

/-- An outbound write (R106, R407, R412): poisoned bytes leave under the EP bit. -/
def hostWrite (pa : Nat) (bytes : List (Option Byte)) : WM Unit := do
  let c ← getChip
  if !c.linkUp then return
  match c.busAddr pa with
  | none => chipM fun c => c.count 0x0C0 0x054
  | some ba =>
    for (b, i) in bytes.zipIdx do
      emit (.hostByte (ba + i) (b.getD 0) b.isNone)

/-! Waits of an access. -/

/-- The end of Cloister's initialisation: 65 536 CK_FAB cycles after its begin INIT_BUSY falls, and the scrubber's first pass
begins at row 0 (R91, R107). -/
def Chip.clsWait (c : Chip) : Chip :=
  if c.bit 0x070 0x010 8 then
    let c := (c.advance (c.memc.clsInitAt + 65536)).setBit 0x070 0x010 8 false
    { c with memc := { c.memc with scrubRow := 0 } }
  else c

/-- The bank locks of other requesters on words of a range of Cloister (R109). -/
def Chip.lockedBy (c : Chip) (src pa n : Nat) : List Nat :=
  (c.vrg.locks.filter fun e => e.2.holder.toNat != src && (c.leaseAux (lockSel e.1)).state == 1 &&
    e.2.words.any fun x => decide (pa / 8 * 8 ≤ c.clsAddr x) && decide (c.clsAddr x < pa + n)).map Prod.fst

/-- An access to Cloister waits for the initialisation (R91, R108), and for the locks that another requester holds on its words
(R109): the holder's sequence ends, and its locks go (log entry 27). -/
def waitAccess (src pa n : Nat) : WM Unit := do
  if target pa = .cls then
    chipM Chip.clsWait
    chipM fun c => c.dropLocks (c.lockedBy src pa n)

/-! Byte ranges at device addresses. -/

/-- A read of consecutive bytes at a device address by a source (R104, R110); a byte of a poisoned granule is
none. The range lies in one target. -/
def readPhys (src pa n : Nat) : WM (List (Option Byte)) := do
  if target pa = .host then return (← hostRead pa n).1
  waitAccess src pa n
  let c ← getChip
  let g := c.granSize pa
  let parts ← (granChunks g n pa n).mapM fun (base, off, len) => do
    match ← readGranule src base g with
    | some bs => return (bs.drop off |>.take len).map some
    | none => return List.replicate len none
  return parts.flatten

/-- A write of consecutive bytes at a device address by a source (R105, R106). It answers false where the
memory refuses a write that carries poison, or one to a failed channel under in-line ECC, which is then not performed
(R95, R482). -/
def writePhys (src pa : Nat) (bytes : List (Option Byte)) : WM Bool := do
  waitAccess src pa bytes.length
  let c ← getChip
  match target pa with
  | .host =>
    hostWrite pa bytes
    return true
  | t =>
    if t = .lp5x && (if c.inlineEcc then (List.range bytes.length).any fun i => c.lpFailed (pa + i) else bytes.any Option.isNone) then
      chipM fun c => (c.count 0x088 0x054).logErr 0x088 clsAccess 0x22 0 0
      return false
    let g := c.granSize pa
    for (base, off, len) in granChunks g bytes.length pa bytes.length do
      writeGranule src base g off (bytes.drop (base + off - pa) |>.take len)
    return true

/-- The number that little-endian bytes spell (R11); none if any byte is poison. -/
def leNat : List (Option Byte) → Option Nat
  | [] => some 0
  | b :: bs => match b, leNat bs with
    | some x, some n => some (x.toNat + 256 * n)
    | _, _ => none

/-- The n little-endian bytes of a number (R11). -/
def leBytes (n v : Nat) : List Byte := (List.range n).map fun i => BitVec.ofNat 8 (v / 256 ^ i)

end Sys2Proof.Machine
end

