-- ==== Sys2Proof/Machine/Stall.lean ====
section
/-! DEFINITION. The health of the Choir's stalls (R278, R297, R299, R300) and the copies of their windows (R298): an access to a
window waits for its copy (R296). -/

namespace Sys2Proof.Machine

/-- A stall is SUSPECT (R297, R300). -/
def Chip.suspect (c : Chip) (s : Nat) : Bool := c.bit (pgStall s) 0x010 11

/-- A stall was retired by RETIRE_REQ. -/
def Chip.stallRetired (c : Chip) (s : Nat) : Bool := bits c.cho.retired s 1 == 1

/-- A stall is in the allowed set (R49, R299). -/
def Chip.stallAllowed (c : Chip) (s : Nat) : Bool := c.bit 0x060 0x040 s

/-- A spare (R278): it serves no slot and is healthy and allowed. -/
def Chip.isSpare (c : Chip) (s : Nat) : Bool :=
  (c.stallSlot s).isNone && !c.suspect s && !c.stallRetired s && c.stallAllowed s

/-- STATUS of every stall page and IN_SERVICE brought up to date (R278, R299, R300). -/
def Chip.refreshStalls (c : Chip) : Chip :=
  let c' := (List.range 32).foldl (fun (x : Chip) s =>
    let slot := c.stallSlot s
    let v := slot.isSome.toNat * 2 ^ 8 + (c.isSpare s).toNat * 2 ^ 9 + (slot.isNone && !c.isSpare s).toNat * 2 ^ 10
    let x := x.setFld (pgStall s) 0x010 8 3 (v / 2 ^ 8)
    x.setFld (pgStall s) 0x010 16 5 (slot.getD 0)) c
  c'.wr 0x060 0x044 (word (((List.range 32).map fun s => (c.stallSlot s).isSome.toNat * 2 ^ s).sum))

/-- RETIRE_REQ of a stall completes (R299). -/
def Chip.retireDone (c : Chip) (s : Nat) : Chip := c.setBit 0x060 0x048 s false

/-- The words of a window copied into the spare (R298): one that cannot be read is written poisoned and logged,
and a corrected one is clean. -/
def copyWindow (k : ChoCopy) : WM Unit := do
  for g in List.range 49152 do
    let pa := stallBase + k.slot * 0x80000 + 8 * g
    if ((← get).markOf pa).isSome then
      match ← readGranule k.old pa 8 with
      | some bs => storeGranule pa bs none
      | none => chipM fun c => c.logErr 0x060 clsEcc 0x32 0 (eccDetail pa k.old)

/-- The oldest window copy completes: REDIRECT names the spare (R298). -/
def copyDone : WM Unit := do
  match (← getChip).cho.copies with
  | [] => pure ()
  | k :: rest =>
    copyWindow k
    chipM fun c =>
      let c := (((c.setFld (pgStall k.slot) 0x058 0 5 k.spare).count 0x060 0x050).raise 0x060 0).retireDone k.old
      { c with cho := { c.cho with copies := rest } }.refreshStalls

/-- The window copies up to a slot's own complete. -/
def copiesTo : Nat → Nat → WM Unit
  | 0, _ => pure ()
  | n + 1, i => do
    if (← getChip).copying i then
      copyDone
      copiesTo n i

/-- An access to a window waits until its copy is complete (R296). -/
def windowWait (pa : Nat) : WM Unit := do
  if target pa = .stall then copiesTo (← getChip).cho.copies.length ((pa - stallBase) / 0x80000)

end Sys2Proof.Machine
end

