-- ==== Sys2Proof/Machine/Rood.lean ====
section
/-! DEFINITION. The Rood: walks, checked accesses and faults (R97-R101, R111), and the context, region and
fault commands of pages 0x072 and 0x073 (R101-R103, R118, R119). -/

namespace Sys2Proof.Machine

/-- Usable Cloister row-blocks (R114, R115). -/
def Chip.clsCap (c : Chip) : Nat := c.fld 0x070 0x044 0 12

/-- Usable LP5X bytes (R93, R117). -/
def Chip.lpCap (c : Chip) : Nat := (c.rd 0x088 0x044).toNat * 2 ^ 20

/-- A physical address that an access faults on as TARGET (R111). -/
def Chip.badTarget (c : Chip) (pa : Nat) : Bool :=
  match target pa with
  | .cls => !c.enabled 0x070 || decide (c.clsCap ≤ (pa - clsBase) / 16384)
  | .lp5x => !c.enabled 0x088 || decide (c.lpCap ≤ pa - lpBase)
  | .stall => decide (0x60000 ≤ (pa - stallBase) % 0x80000) || (c.windowServer ((pa - stallBase) / 0x80000)).isNone
  | .host => false
  | _ => true

/-- The offset of a context's registers on page 0x072 (R118). -/
def ctxOff (ctx : Nat) : Nat := 0x040 + 0x20 * ctx

/-- A context is enabled (R118). -/
def Chip.ctxEnabled (c : Chip) (ctx : Nat) : Bool := c.bit 0x072 (ctxOff ctx) 0

/-- The field rules of a page table entry at levels 1, 2 and 3 (R98, R99). -/
def entryOk (level e : Nat) : Bool :=
  let ptr := bits e 1 1 == 1
  bits e 48 16 == 0 && bits e 5 7 == 0 &&
  (if ptr then bits e 2 3 == 0 && level != 3
   else (level == 2 && bits e 12 9 == 0) || (level == 3 && bits e 12 4 == 0))

/-- One table entry read by the walker (R98, R110): its value, or the fault code. -/
def readEntry (table idx : Nat) : WM (Except Nat Nat) := do
  let pa := table + 8 * idx
  let c ← getChip
  if target pa ≠ .cls ∧ target pa ≠ .lp5x then return .error 0x0A
  else if c.badTarget pa then return .error 0x08
  else match leNat (← readPhys 0x51 pa 8) with
    | none => return .error 0x09
    | some e => return if bits e 0 1 = 0 then .error 0x03 else .ok e

/-- A walk of a context's tables for a virtual address below 2^39 (R98, R99). -/
def walk (ctx va : Nat) : WM (Except Nat Leaf) := do
  let c ← getChip
  match ← readEntry (c.rd64 0x072 (ctxOff ctx + 8)) (bits va 30 9) with
  | .error e => return .error e
  | .ok e1 =>
    if !entryOk 1 e1 then return .error 0x07
    match ← readEntry (bits e1 12 36 * 4096) (bits va 21 9) with
    | .error e => return .error e
    | .ok e2 =>
      if !entryOk 2 e2 then return .error 0x07
      else if bits e2 1 1 = 0 then
        return .ok { base := bits e2 12 36 * 4096, log2 := 21, r := bits e2 2 1 == 1, w := bits e2 3 1 == 1, x := bits e2 4 1 == 1 }
      else match ← readEntry (bits e2 12 36 * 4096) (bits va 16 5) with
        | .error e => return .error e
        | .ok e3 =>
          if !entryOk 3 e3 then return .error 0x07
          else return .ok { base := bits e3 12 36 * 4096, log2 := 16, r := bits e3 2 1 == 1, w := bits e3 3 1 == 1, x := bits e3 4 1 == 1 }

/-- The key of a cached translation. -/
def tlbKey (ctx va : Nat) : Nat := ctx * 2 ^ 23 + va / 65536

/-- The cached translation that covers an address: its own page's, or a 2 MiB page's cached for another part of it. -/
def Chip.cachedLeaf (c : Chip) (ctx va : Nat) : Option Leaf :=
  match aget c.rood.tlb (tlbKey ctx va) with
  | some l => some l
  | none => (c.rood.tlb.find? fun r => r.2.log2 == 21 && r.1 / 32 == tlbKey ctx va / 32).map Prod.snd

/-- A walk that leaves its result among the cached translations (R101). -/
def walkAndCache (ctx va : Nat) : WM (Except Nat Leaf) := do
  let r ← walk ctx va
  match r with
  | .ok l => chipM fun c => { c with rood := { c.rood with tlb := aput c.rood.tlb (tlbKey ctx va) l } }
  | .error _ => pure ()
  return r

/-- The leaf an access uses (R101): a cached translation stands until INVAL completes; where the tables no longer say the same, each
access until then uses the old entry or the new one (DEDUCED: log entry 13). -/
def lookup (ctx va : Nat) : WM (Except Nat Leaf) := do
  let w ← get
  match w.chip.cachedLeaf ctx va with
  | none => walkAndCache ctx va
  | some l =>
    let same := match (walk ctx va w).1 with
      | .ok l' => decide (l' = l)
      | .error _ => false
    if same then return .ok l
    else if Config.choice (← drawM) % 2 = 0 then return .ok l
    else walk ctx va

/-- The kind of a checked access: 0 read, 1 write, 2 fetch (R111). -/
abbrev AccType := Fin 3

/-- The right an access needs (R100). -/
def Leaf.allows (l : Leaf) (k : AccType) : Bool :=
  if k = 0 then l.r else if k = 1 then l.w else l.x

/-- The physical address of an access in one 4 KiB page, or the fault code (R100, R111). -/
def translate (ctx : Nat) (k : AccType) (va : Nat) : WM (Except Nat Nat) := do
  let c ← getChip
  if !c.ctxEnabled ctx then return .error 0x01
  else if 2 ^ 39 ≤ va then return .error 0x02
  else match ← lookup ctx va with
    | .error e => return .error e
    | .ok l =>
      let pa := l.base + va % 2 ^ l.log2
      if !l.allows k then return .error (0x04 + k.val)
      windowWait pa
      if (← getChip).badTarget pa then return .error 0x08
      else return .ok pa

/-- A fault recorded (R111). -/
def Chip.roodFault (c : Chip) (ctx : Nat) (k : AccType) (va code src : Nat) : Chip :=
  let info := word (src % 256 * 2 ^ 24 + ctx % 16 * 2 ^ 20 + k.val * 2 ^ 16 + code % 256)
  let (t, c) := c.stamp 5
  let c := if c.rood.fifo.length < 16 then
      { c with rood := { c.rood with fifo := c.rood.fifo ++ [{ va := va, info := info, time := BitVec.ofNat 64 t }] } }
    else c.count 0x073 0x11C
  let c := ((c.count 0x072 (ctxOff ctx + 0x10)).setBit 0x072 (ctxOff ctx) 2 true).raise 0x073 0
  c.logErr 0x073 clsAccess 0x21 (if src = 0x50 then 1 else 0) info

/-- One burst of a source, checked and translated; a fault is recorded and answers none (R100, R111). -/
def burstPa (ctx src : Nat) (k : AccType) (va : Nat) : WM (Option Nat) := do
  match ← translate ctx k va with
  | .ok pa => return some pa
  | .error e =>
    chipM fun c => c.roodFault ctx k va e src
    return none

/-- The computations of engines: they may end with an error code. -/
abbrev EM := ExceptT Nat WM

/-- The bursts of a range: none crosses a 4 KiB boundary (R100). -/
def bursts (va n : Nat) : List (Nat × Nat) := (granChunks 4096 n va n).map fun (b, o, l) => (b + o, l)

/-- Bytes read through the Rood; a fault ends the command with the code given (R100, R183). -/
def readVaAs (code : Nat) (ctx src : Nat) (k : AccType) (va n : Nat) : EM (List (Option Byte)) := do
  let parts ← (bursts va n).mapM fun (a, l) => do
    match ← burstPa ctx src k a with
    | some pa => readPhys src pa l
    | none => throw code
  return parts.flatten

/-- Data bytes read through the Rood (R183, ROOD_FAULT). -/
def readVa (ctx src va n : Nat) : EM (List (Option Byte)) := readVaAs 0x24 ctx src 0 va n

/-- Data bytes written through the Rood (R183, ROOD_FAULT and POISON_REFUSED). -/
def writeVa (ctx src va : Nat) (bytes : List (Option Byte)) : EM Unit := do
  for (a, l) in bursts va bytes.length do
    match ← burstPa ctx src 1 a with
    | some pa =>
      if !(← writePhys src pa (bytes.drop (a - va) |>.take l)) then throw 0x25
      modify fun w => { w with wrote := (pa, l) :: w.wrote }
    | none => throw 0x24

/-! Writes that meet (R28, R108, R163, R167). -/

/-- The part that two ranges share. -/
def meetRange (a b : Nat × Nat) : Option (Nat × Nat) :=
  let lo := max a.1 b.1
  let hi := min (a.1 + a.2) (b.1 + b.2)
  if lo < hi then some (lo, hi - lo) else none

/-- The parts that the ranges of two lists share. -/
def meetRanges (a b : List (Nat × Nat)) : List (Nat × Nat) := a.flatMap fun x => b.filterMap (meetRange x)

/-- Bytes at a device address take free values; a granule that can hold poison may be left poisoned. -/
def havocPhys (src pa n : Nat) : WM Unit := do
  let mut bs : List (Option Byte) := []
  for _ in List.range n do
    let k ← drawM
    bs := bs ++ [some (Config.havocByte k)]
  let k ← drawM
  let poison := Config.choice k % 2 == 1 && ((← getChip).granSize pa != 1)
  let _ ← writePhys src pa (if poison then List.replicate n none else bs)

/-- A queue's HEAD and TAIL, and its pages' numbers where a ring may hold commands: those whose TAIL is listed (R166). -/
def Chip.pendingRings (c : Chip) : List Nat :=
  c.regs.filterMap fun r =>
    let p := r.1 / 0x1000
    if 0x100 ≤ p ∧ p < 0x180 ∧ r.1 % 0x1000 = 0x05C ∧ c.rd p 0x058 ≠ r.2 then some (p - 0x100) else none

/-- The commands between HEAD and TAIL of a queue whose slots a range of device addresses reaches (R166, R167). -/
def tornSlots (q : Nat) (rs : List (Nat × Nat)) : WM (List (Nat × Word)) := do
  let w ← get
  let c := w.chip
  let head := c.rd (pgQ q) 0x058
  let n := 2 ^ c.fld (pgQ q) 0x048 0 5
  return (List.range (c.rd (pgQ q) 0x05C - head).toNat).filterMap fun i =>
    let k := head + word i
    match (translate (c.fld (pgQ q) 0x04C 0 4) 2 (c.rd64 (pgQ q) 0x040 + 32 * (k.toNat % n)) w).1 with
    | .ok pa => if (meetRanges [(pa, 32)] rs).isEmpty then none else some (q, k)
    | .error _ => none

/-- The writes through the Rood since the last account of them: slots of rings between HEAD and TAIL that they reach hold undefined
commands from here on (R167). The account starts anew. -/
def noteWrites : WM (List (Nat × Nat)) := do
  let w ← get
  if w.wrote ≠ [] then
    for q in w.chip.pendingRings do
      let torn ← tornSlots q w.wrote
      chipM fun c => { c with queues := { c.queues with torn := c.queues.torn ++ torn } }
  modify fun w => { w with wrote := [] }
  return w.wrote

/-- The account of the writes that one command of a queue, one received transfer (128 + source) or one DMA channel (256 + channel)
has just made: where others in progress have written, or wrote while it was in progress, the content is free (R28, R108, R163);
and the others learn of these writes. -/
def meetWrites (key src : Nat) : WM Unit := do
  let mine ← noteWrites
  let c ← getChip
  let own := (aget c.queues.flight key).getD {}
  let others := (c.queues.flight.filter fun f => f.1 != key).flatMap fun f => f.2.wrote
  for r in meetRanges mine (own.clash ++ others) do havocPhys src r.1 r.2
  modify fun w => { w with wrote := [] }
  if mine ≠ [] then
    chipM fun c =>
      let rivals := (c.queues.run.map Prod.fst ++ c.link.recvs.map fun (r : Nat × Recv) => 128 + r.1).filter fun k => k != key
      let told := rivals.foldl (fun l k =>
        let f := (aget l k).getD {}
        aput l k { f with clash := f.clash ++ mine }) c.queues.flight
      let self := (aget told key).getD {}
      let all := if key < 256 then aput told key { self with wrote := self.wrote ++ mine } else told
      { c with queues := { c.queues with flight := all } }

/-! Contexts (R101, R118). -/

/-- Every cached translation of a context discarded (R101). -/
def Chip.dropTlb (c : Chip) (ctx : Nat) : Chip :=
  { c with rood := { c.rood with tlb := c.rood.tlb.filter fun r => r.1 / 2 ^ 23 != ctx } }

/-- A write to CTX_CTRL (R101, R118): ENABLE stored, INVAL requested, FAULTED cleared where written 1. Clearing
ENABLE discards the cached translations. -/
def Chip.ctxCtrl (c : Chip) (ctx : Nat) (enable inval clr : Bool) : Chip :=
  let c := c.setBit 0x072 (ctxOff ctx) 0 enable
  let c := if inval then c.setBit 0x072 (ctxOff ctx) 1 true else c
  let c := if clr then c.setBit 0x072 (ctxOff ctx) 2 false else c
  if enable then c else c.dropTlb ctx

/-- INVAL: software sets CTX_CTRL.INVAL (R101). -/
def execInval (req : Requester) (ctx : Fin 16) (s : State) : Host.Outcome State Fault Refusal :=
  .next (s.onChip fun c => c.gated req 0x072 (ctxOff ctx) fun c => c.setBit 0x072 (ctxOff ctx) 1 true)

/-- INVAL_DONE: every access under an old entry has completed, and INVAL reads back 0 (R101). -/
def execInvalDone (ctx : Fin 16) (s : State) : Host.Outcome State Fault Refusal :=
  .next (s.onChip fun c =>
    if c.bit 0x072 (ctxOff ctx) 1 then (c.dropTlb ctx).setBit 0x072 (ctxOff ctx) 1 false else c)

/-- CTX_DISABLE: software clears CTX_CTRL.ENABLE (R101). -/
def execCtxDisable (req : Requester) (ctx : Fin 16) (s : State) : Host.Outcome State Fault Refusal :=
  .next (s.onChip fun c => c.gated req 0x072 (ctxOff ctx) fun c =>
    (c.setBit 0x072 (ctxOff ctx) 0 false).dropTlb ctx)

/-! Regions (R102, R103, R119). -/

/-- A write to RGN_CMD (R102, R108): both bits are CFG_INVALID, a command during BUSY is RGN_BUSY, and a
command otherwise starts with the values of the registers. -/
def Chip.rgnCmd (c : Chip) (req : Requester) (register free : Bool) : Chip :=
  if register && free then c.logUse 0x073 0x05 req (regAddr 0x073 0x054)
  else if !register && !free then c
  else if c.bit 0x073 0x058 31 then c.logUse 0x073 0x09 req (regAddr 0x073 0x054)
  else
    let cmd := if register then
        RgnCmd.register (c.rd64 0x073 0x040) (c.rd64 0x073 0x048) (c.rd 0x073 0x050)
      else RgnCmd.free (c.fld 0x073 0x05C 0 10)
    { c.setBit 0x073 0x058 31 true with rood := { c.rood with cmd := some cmd } }

/-- RGN_REGISTER: a write of RGN_CMD.REGISTER (R102). -/
def execRgnRegister (req : Requester) (s : State) : Host.Outcome State Fault Refusal :=
  .next (s.onChip fun c => c.gated req 0x073 0x054 fun c => c.rgnCmd req true false)

/-- RGN_FREE: a write of RGN_CMD.FREE (R103). -/
def execRgnFree (req : Requester) (s : State) : Host.Outcome State Fault Refusal :=
  .next (s.onChip fun c => c.gated req 0x073 0x054 fun c => c.rgnCmd req false true)

/-- The physical pieces of a virtual range page by page: address, length and leaf, or none where the walk
fails. -/
def rangeLeaves (ctx base size : Nat) : WM (List (Option (Nat × Nat × Leaf))) := do
  (granChunks 65536 (size / 256 + 2) base size).mapM fun (b, o, l) => do
    match ← walk ctx (b + o) with
    | .ok leaf => return some (leaf.base + (b + o) % 2 ^ leaf.log2, l, leaf)
    | .error _ => return none

/-- The row-blocks of Cloister that a physical piece reaches (R102). -/
def pieceRows (pa len : Nat) : List Nat :=
  if target pa = .cls then
    (List.range ((pa - clsBase + len - 1) / 16384 - (pa - clsBase) / 16384 + 1)).map fun i => (pa - clsBase) / 16384 + i
  else []

/-- The lowest handle, counting from 0, that names no region (R102). -/
def freeHandle (l : List (Nat × Region)) : Option Nat := (List.range 1024).find? fun h => (aget l h).isNone

/-- The checks of REGISTER in their order (R102): the code, and the region when all pass. -/
def rgnCheck (base size : Nat) (attr : Word) : WM (Nat × Option Region) := do
  let c ← getChip
  let ctx := bits attr.toNat 0 4
  let needR := attr.getLsbD 4
  let needW := attr.getLsbD 5
  let needX := attr.getLsbD 6
  let skew := attr.getLsbD 8
  if !c.ctxEnabled ctx then return (0x01, none)
  if size = 0 ∨ 2 ^ 36 < size ∨ size % 256 ≠ 0 then return (0x02, none)
  if base % 256 ≠ 0 ∨ 2 ^ 39 < base + size then return (0x03, none)
  let found ← rangeLeaves ctx base size
  let ps := found.filterMap id
  let c ← getChip
  let rows := (ps.flatMap fun p => pieceRows p.1 p.2.1).eraseDups
  let kinds := (ps.map fun p => target p.1).eraseDups
  let known := kinds.filter fun t => t == .cls || t == .stall || t == .lp5x || t == .host
  let other := ((c.rood.regions.map Prod.snd).filter fun r => r.ctx == ctx)
  if found.any Option.isNone then return (0x04, none)
  else if ps.any fun p => (needR && !p.2.2.r) || (needW && !p.2.2.w) || (needX && !p.2.2.x) then return (0x05, none)
  else if 1 < known.length then return (0x06, none)
  else if rows.any (fun k => decide (c.clsCap ≤ k)) ||
      ps.any (fun p => target p.1 == .lp5x && decide (c.lpCap < p.1 - lpBase + p.2.1)) then return (0x07, none)
  else if kinds.length ≠ known.length ||
      ps.any (fun p => target p.1 == .stall && decide (0x60000 < (p.1 - stallBase) % 0x80000 + p.2.1)) then
    return (0x0D, none)
  else if (skew && (decide (base % 16384 ≠ 0 ∨ size % 16384 ≠ 0) || rows.any (fun k => !c.skewed k) ||
      known.any fun t => t != .cls)) || (!skew && rows.any fun k => c.skewed k) then return (0x08, none)
  else if other.any fun r => decide (r.base < base + size) && decide (base < r.base + r.size) then return (0x09, none)
  else if 1024 ≤ c.rood.regions.length then return (0x0A, none)
  else return (0x00, some { ctx := ctx, base := base, size := size, r := needR, w := needW, x := needX, skewed := skew, pins := rows })

/-- A stored descriptor refers to a region (R102, R131). -/
def DescSlot.names (d : DescSlot) (h : Nat) : Bool :=
  let q1 := (d.qw.getD 1 0).toNat
  bits q1 40 10 == h || (bits q1 39 1 == 1 && bits q1 50 10 == h)

/-- The result of a REGISTER or FREE written (R102, R103). -/
def Chip.rgnEnd (c : Chip) (code : Nat) : Chip :=
  let c := ((c.setBit 0x073 0x058 31 false).setFld 0x073 0x058 0 8 code).raise 0x073 1
  let c := c.wr 0x073 0x060 (word c.rood.regions.length)
  { c with rood := { c.rood with cmd := none } }

/-- The regions replaced. -/
def Chip.setRegions (c : Chip) (l : List (Nat × Region)) : Chip := { c with rood := { c.rood with regions := l } }

/-- The end of the region command in progress (R102, R103). -/
def rgnDone : WM Unit := do
  let c ← getChip
  match c.rood.cmd with
  | none => pure ()
  | some (.register base size attr) =>
    let (code, r) ← rgnCheck base size attr
    match r, freeHandle c.rood.regions with
    | some r, some h =>
      chipM fun c => ((c.setRegions (aput c.rood.regions h r)).setFld 0x073 0x058 16 10 h).rgnEnd code
    | _, _ => chipM fun c => (c.setFld 0x073 0x058 16 10 0).rgnEnd code
  | some (.free h) =>
    if (aget c.rood.regions h).isNone then chipM fun c => c.rgnEnd 0x0B
    else if c.desc.slots.any fun d => d.2.names h then chipM fun c => c.rgnEnd 0x0C
    else chipM fun c => (c.setRegions (adel c.rood.regions h)).rgnEnd 0x00

/-- RGN_DONE: the command in progress completes (R102, R103). -/
def execRgnDone (s : State) : Host.Outcome State Fault Refusal := .next (s.onWork fun w => w.run rgnDone)

/-- FLT_POP: the oldest fault record is discarded (R111). -/
def Chip.fltPop (c : Chip) : Chip := { c with rood := { c.rood with fifo := c.rood.fifo.drop 1 } }

/-- FLT_POP: a write of 1 to FLT_POP (R111, R119). -/
def execFltPop (req : Requester) (s : State) : Host.Outcome State Fault Refusal :=
  .next (s.onChip fun c => c.gated req 0x073 0x114 Chip.fltPop)

end Sys2Proof.Machine
end

