-- ==== Sys2Proof/Machine/Cloister.lean ====
section
/-! DEFINITION. Cloister and LP5X control (R88-R96, R104-R107, R114-R117, R527, R528) and the host's accesses
through BAR2 (R86, R100). -/

namespace Sys2Proof.Machine

/-! Cloister (R91, R114, R527). -/

/-- The distinct banks that the valid slots of CLS_RETIRE name (R114, R115). -/
def retiredBanks (v : Nat) : List Nat :=
  ((List.range 4).filterMap fun i => if bits v (7 * i + 6) 1 = 1 then some (bits v (7 * i) 6) else none).eraseDups

/-- CTRL.ENABLE of the CLS page written (R91, R527): 0 to 1 zeroes every word, applies CLS_RETIRE and starts the
initialisation, and 1 to 0 stops service and discards the pending write-backs. -/
def clsEnableTo (on : Bool) : WM Unit := do
  let c ← getChip
  if on && !c.enabled 0x070 then
    let banks := retiredBanks (c.rd 0x070 0x040).toNat
    chipM fun c =>
      let c := (c.setBit 0x070 0x00C 0 true).setBit 0x070 0x010 8 true
      let c := c.setFld 0x070 0x044 0 12 (2048 - 32 * banks.length)
      { c with memc := { c.memc with clsRetired := banks, clsInitAt := c.time.now, pendingWb := c.memc.pendingWb.filter fun g => target g != .cls } }
    emit (.clear clsBase 0x12000000)
  else if !on && c.enabled 0x070 then
    chipM fun c =>
      let c := (c.setBit 0x070 0x00C 0 false).setBit 0x070 0x010 8 false
      { c with memc := { c.memc with pendingWb := c.memc.pendingWb.filter fun g => target g != .cls } }

/-- CLS_ENABLE (R91, R114). -/
def execClsEnable (req : Requester) (s : State) : Host.Outcome State Fault Refusal :=
  s.onMem (gatedM req 0x070 0x00C (clsEnableTo true))

/-- CLS_DISABLE (R527). -/
def execClsDisable (req : Requester) (s : State) : Host.Outcome State Fault Refusal :=
  s.onMem (gatedM req 0x070 0x00C (clsEnableTo false))

/-- CLS_INIT_DONE: the initialisation ends, and the scrubber's first pass begins at row 0 (R91, R107). -/
def execClsInitDone (s : State) : Host.Outcome State Fault Refusal := .next (s.onChip Chip.clsWait)

/-- A row-block is reached by a registered region (R89). -/
def Chip.pinned (c : Chip) (k : Nat) : Bool := c.rood.regions.any fun r => r.2.pins.contains k

/-- A write to CLS_SKEW_n acts bit by bit; a pinned row-block keeps its bit (R89, R108). -/
def Chip.clsSkew (c : Chip) (req : Requester) (n : Nat) (v : Word) : Chip :=
  let off := 0x080 + 4 * n
  let old := c.rd 0x070 off
  let keep := BitVec.ofNat 32 ((List.range 32).foldl (fun m b => if c.pinned (32 * n + b) then m + 2 ^ b else m) 0)
  let new := (old &&& keep) ||| (v &&& ~~~keep)
  let c := c.wr 0x070 off new
  if (old ^^^ v) &&& keep != 0 then c.logUse 0x070 0x08 req (regAddr 0x070 off) else c

/-- CLS_SKEW_WRITE (R89). -/
def execClsSkewWrite (req : Requester) (n : Fin 64) (value : Word) (s : State) : Host.Outcome State Fault Refusal :=
  .next (s.onChip fun c => c.gated req 0x070 (0x080 + 4 * n) fun c => c.clsSkew req n value)

/-! LP5X (R92-R96, R117, R528). -/

/-- The number of ones among the low w bits. -/
def popcount (w v : Nat) : Nat := ((List.range w).map fun i => bits v i 1).sum

/-- LP5X_CFG names a supported organisation (R92, R96, R117). -/
def lpCfgOk (v : Word) : Bool :=
  decide (7 ≤ popcount 8 (bits v.toNat 8 8)) && decide (bits v.toNat 4 2 < 2) && decide (bits v.toNat 2 2 < 3)

/-- The usable MiB of an organisation (R93, R94, R96). -/
def lpMiB (v : Word) : Nat :=
  let raw := popcount 8 (bits v.toNat 8 8) * (1 + bits v.toNat 4 2) * (512 * 2 ^ bits v.toNat 2 2)
  if v.getLsbD 31 then raw * 7 / 8 else raw

/-- CTRL.ENABLE of the LP5X page written (R117, R528). A disable keeps LP5X_CFG and the content. An enable keeps the content
where LP5X_CFG is as at the last disable, which is as at the enable before it since the register is locked while the controller is
enabled (R108), and no reset of level 2 or higher has come since; any other enable initialises, and leaves no usable capacity
until the initialisation ends. -/
def Chip.lpEnableTo (c : Chip) (on : Bool) : Chip :=
  if on && !c.enabled 0x088 then
    let c := c.setBit 0x088 0x00C 0 true
    let cfg := c.rd 0x088 0x040
    if c.memc.lpCfg = some cfg then c
    else { c.wr 0x088 0x044 0 with memc := { c.memc with lpCfg := some cfg, lpInit := true } }
  else if !on then c.setBit 0x088 0x00C 0 false
  else c

/-- LP5X_ENABLE (R117, R528). -/
def execLp5xEnable (req : Requester) (s : State) : Host.Outcome State Fault Refusal :=
  .next (s.onChip fun c => c.gated req 0x088 0x00C fun c => c.lpEnableTo true)

/-- LP5X_DISABLE (R528). -/
def execLp5xDisable (req : Requester) (s : State) : Host.Outcome State Fault Refusal :=
  .next (s.onChip fun c => c.gated req 0x088 0x00C fun c => c.lpEnableTo false)

/-- LP5X_INIT_DONE (R93-R96, R117, R528): retraining keeps the content, any other enable leaves every byte
undefined until it is written, and an unsupported organisation fails with CFG_INVALID and stays without capacity. The record of
that failure has OWNER 0 and DETAIL 0, since it is no register write (DESIGN CHOICE: log entry 79). -/
def lpInitDone : WM Unit := do
  let c ← getChip
  let cfg := c.rd 0x088 0x040
  if !c.enabled 0x088 ∨ !c.memc.lpInit then pure ()
  else if !lpCfgOk cfg then chipM fun c => c.logErr 0x088 clsUse 0x05 0 0
  else
    emit (.clear lpBase 0x1800000000)
    chipM fun c =>
      let c := c.wr 0x088 0x044 (word (lpMiB cfg))
      { c with memc := { c.memc with lpInit := false, lpEpoch := c.memc.lpEpoch + 1, pendingWb := c.memc.pendingWb.filter fun g => target g != .lp5x } }

/-- LP5X_INIT_DONE. -/
def execLp5xInitDone (s : State) : Host.Outcome State Fault Refusal := s.onMem lpInitDone

/-! Corrected granules and the scrubber (R104, R107). -/

/-- The granule of a cell rewritten clean with the bytes it holds. -/
def rewriteClean (pa : Nat) : WM Unit := do
  let w ← get
  storeGranule pa (w.bytesAt pa (w.chip.granSize pa)) none

/-- CE_WRITE_BACK: the pending write-back of a corrected granule is performed (R104, R108). -/
def execCeWriteBack (pa : BitVec 48) (s : State) : Host.Outcome State Fault Refusal :=
  s.onMem do
    let c ← getChip
    let base := pa.toNat / c.granSize pa.toNat * c.granSize pa.toNat
    if c.memc.pendingWb.contains (c.cellOf base) then rewriteClean base

/-- A storage upset of the environment (R95, R104, R140). A poisoned granule stays poisoned. -/
def applyUpset (u : Upset) : WM Unit := do
  let w ← get
  match u with
  | .granule pa unc =>
    let n := w.chip.granSize pa
    let base := pa / n * n
    if n ≠ 1 ∧ w.markOf base ≠ some .poison then
      emit (.mark (w.chip.cellOf base) (some (if unc then .ue else .ce)))
  | .bitFlip pa bit =>
    if target pa = .lp5x ∧ !w.chip.inlineEcc then
      emit (.byte pa (w.byteAt pa ^^^ BitVec.ofNat 8 (2 ^ bit.val)))
  | .link => if w.chip.enabled 0x088 ∧ w.chip.bit 0x088 0x040 30 then chipM fun c => c.count 0x088 0x048
  | .desc h unc =>
    match aget w.chip.desc.slots h.toNat with
    | none => pure ()
    | some d =>
      let d := if unc then { d with poison := true } else { d with ce := true }
      chipM fun c => { c with desc := { c.desc with slots := aput c.desc.slots h.toNat d } }

/-- The scrubber runs (R107). -/
def Chip.scrubbing (c : Chip) : Bool := c.bit 0x071 0x040 31 && c.enabled 0x070 && !c.bit 0x070 0x010 8

/-- The row in which the scrubber meets a word of Cloister (R107, R114): its own row in a working bank; of a retired bank, the row
of the withdrawn rows that holds it in a working bank, filled bank after bank in ascending row order (DESIGN CHOICE: log entry
80). -/
def Chip.scrubRowOf (c : Chip) (cell : Nat) : Nat :=
  let row := (cell - clsBase) / 512
  let n := c.memc.clsRetired.length
  let kept := 65536 - 1024 * n
  match c.memc.clsRetired.findIdx? fun b => b == bankOf cell with
  | some i => kept + (i * kept + row) / (64 - n)
  | none => row

/-- One scrub access (R107): the words of row r of every bank, under R104 but that a poisoned word is neither
logged nor counted. A scrub is atomic: a corrected word is written back in the same two cycles (R108). -/
def scrubRowM : WM Unit := do
  let w ← get
  let r := w.chip.memc.scrubRow
  let hit := w.mem.marks.filter fun m => target m.1 == .cls && w.chip.scrubRowOf m.1 == r
  for (g, m) in hit do
    let pa := w.chip.clsAddr g
    if m ≠ .poison then
      let _ ← readGranule 0x52 pa 8
    if m = .ce then rewriteClean pa
  chipM fun c =>
    let c := if r = 65535 then c.count 0x071 0x050 else c
    { c with memc := { c.memc with scrubRow := (r + 1) % 65536 } }

/-- SCRUB_ACCESS: the upsets since the last one take place, and the scrubber reads its next row if it runs. -/
def execScrubAccess (upsets : List Upset) (s : State) : Host.Outcome State Fault Refusal :=
  s.onMem do
    for u in upsets do applyUpset u
    if (← getChip).scrubbing then scrubRowM

/-! BAR2 (R86, R97, R100). -/

/-- A read through BAR2 (R100): the data; the EP bit where a byte is poison, and the EP bit with all ones where a burst
faults. -/
def bar2Read (off n : Nat) : WM Reply := do
  let ctx := (← getChip).fld 0x072 0x300 0 4
  match ← (readVa ctx 0x50 (clsBase + off) n).run with
  | .ok bs => return match leNat bs with
    | some v => .data (BitVec.ofNat 64 v)
    | none => .poison
  | .error _ => return .faulted (BitVec.ofNat 64 (256 ^ n - 1))

/-- BAR2_ACCESS: a host access through BAR2 in the context BAR2_CTX (R86, R100); a faulting or poisoned read
completes with the EP bit. -/
def execBar2Access (write : Bool) (offset : BitVec 25) (size : AccSize) (value : DWord) (s : State) :
    Host.Outcome State Fault Refusal :=
  s.onMem do
    let ctx := (← getChip).fld 0x072 0x300 0 4
    if write then
      let _ ← (writeVa ctx 0x50 (clsBase + offset.toNat) ((leBytes size.bytes value.toNat).map some)).run
      let _ ← noteWrites
    else
      let r ← bar2Read offset.toNat size.bytes
      chipM fun c => c.reply 8 r

/-! Accesses of the cores (R85, R87, R112). -/

/-- The requester that a core is on the register bus, and the number of its reply. -/
def coreReq : CoreId → Requester
  | .sac => .sac | .prc0 => .prc0 | .prc1 => .prc1
def coreKey : CoreId → Nat
  | .sac => 4 | .prc0 => 5 | .prc1 => 6

/-! The cores' PMP (R87, R301): which accesses an entry matches and allows is the RISC-V privileged architecture's (PRESUMED: log entry 94). -/

/-- An entry of a core's PMP: off where none is set. -/
def Chip.pmpEntry (c : Chip) (core : CoreId) (k : Nat) : Nat × Nat :=
  ((aget c.prc.pmp (256 * (coreKey core - 4) + k)).map fun e => (e.1, e.2.toNat)).getD (0, 0)

/-- The bytes that an entry covers, as first and past-the-end addresses. -/
def Chip.pmpRange (c : Chip) (core : CoreId) (k : Nat) : Nat × Nat :=
  let (cfg, a) := c.pmpEntry core k
  match bits cfg 3 2 with
  | 0 => (0, 0)
  | 1 => (if k = 0 then 0 else 4 * (c.pmpEntry core (k - 1)).2, 4 * a)
  | 2 => (4 * a, 4 * a + 4)
  | _ =>
    let ones := ((List.range 33).find? fun i => bits a i 1 == 0).getD 32
    let size := 2 ^ (ones + 3)
    (4 * a / size * size, 4 * a / size * size + size)

/-- The PMP lets the core, in machine mode, make an access: the lowest entry that covers a byte of it decides, and only a locked one
denies. -/
def Chip.pmpAllows (c : Chip) (core : CoreId) (store : Bool) (pa n : Nat) : Bool :=
  match (List.range 16).find? fun k => decide ((c.pmpRange core k).1 < pa + n) && decide (pa < (c.pmpRange core k).2) with
  | none => true
  | some k =>
    let (lo, hi) := c.pmpRange core k
    let cfg := (c.pmpEntry core k).1
    decide (lo ≤ pa) && decide (pa + n ≤ hi) && (bits cfg 7 1 == 0 || bits cfg (if store then 1 else 0) 1 == 1)

/-- An access that is not performed: the core takes an access fault, and the SYS page logs UNMAPPED (R87, R112). -/
def Chip.coreFault (c : Chip) (core : CoreId) (pa : Nat) : Chip :=
  (c.logUse 0x000 0x02 (coreReq core) pa).reply (coreKey core) .accessFault

/-- The storage behind an address takes this access. -/
def Chip.coreAllowed (c : Chip) (store : Bool) (pa n : Nat) : Bool :=
  target pa == target (pa + n - 1) &&
  match target pa with
  | .regs => true
  | .cls => c.enabled 0x070 && decide ((pa + n - 1 - clsBase) / 16384 < c.clsCap)
  | .lp5x => c.enabled 0x088 && decide (pa + n - 1 - lpBase < c.lpCap)
  | .rom => !store
  | .sacMem | .prcMem => true
  | .stall | .host | .hole => false

/-- Bytes that the Precentor firmware reads by physical address (R87): none where the access is refused or meets poison, and its
core takes the access fault. -/
def fwLoad (pa n : Nat) : WM (Option (List Byte)) := do
  if n = 0 then return some []
  else if (← getChip).coreAllowed false pa n && (← getChip).pmpAllows .prc0 false pa n then
    match (← readPhys 0xFF pa n).mapM id with
    | some bs => return some bs
    | none =>
      chipM fun c => c.reply (coreKey .prc0) .accessFault
      return none
  else
    chipM fun c => c.coreFault .prc0 pa
    return none

/-- Bytes that a core stores in Cloister or LP5X (R87). -/
def busStore (pa : Nat) (bs : List Byte) : WM Unit := do
  let _ ← writePhys 0xFF pa (bs.map some)
  modify fun w => { w with wrote := [(pa, bs.length)] }
  let _ ← noteWrites

/-- Bytes that the Precentor firmware writes by physical address (R87); a refused access writes nothing. -/
def fwStore (pa : Nat) (bs : List Byte) : WM Unit := do
  if bs = [] then pure ()
  else if (← getChip).coreAllowed true pa bs.length && (← getChip).pmpAllows .prc0 true pa bs.length then busStore pa bs
  else chipM fun c => c.coreFault .prc0 pa

end Sys2Proof.Machine
end

