-- ==== Sys2Proof/Machine/Desc.lean ====
section
/-! DEFINITION. Tensor descriptors (chapter 5): their fields (R120-R125, R130), the checks of CREATE (R132,
R134), and the descriptor commands of page 0x073 (R131, R139-R142). -/

namespace Sys2Proof.Machine

/-- The fields of a descriptor (R130). -/
structure Desc where
  base : Nat
  type : Nat
  ndim : Nat
  vdim : Nat
  writable : Bool
  readable : Bool
  edge : Nat
  comp : Nat
  scaleVa : Nat
  scaleEn : Bool
  region : Nat
  scaleRegion : Nat
  sizes : List Nat
  strides : List Int
  pad : Nat
  compE : Nat
deriving DecidableEq, Repr

/-- A descriptor's fields from its eight words (R130). -/
def Desc.ofWords (qw : List DWord) : Desc :=
  let q := fun i => (qw.getD i 0).toNat
  { base := bits (q 0) 0 39, type := bits (q 0) 40 4, ndim := bits (q 0) 44 3, vdim := bits (q 0) 48 3,
    writable := bits (q 0) 51 1 == 1, readable := bits (q 0) 52 1 == 1, edge := bits (q 0) 53 2, comp := bits (q 0) 56 3,
    scaleVa := bits (q 1) 0 39, scaleEn := bits (q 1) 39 1 == 1, region := bits (q 1) 40 10, scaleRegion := bits (q 1) 50 10,
    sizes := [bits (q 2) 0 20 + 1, bits (q 2) 20 20 + 1, bits (q 2) 40 20 + 1, bits (q 3) 0 20 + 1, bits (q 3) 20 20 + 1],
    strides := [sext 32 (bits (q 4) 0 32), sext 32 (bits (q 4) 32 32), sext 32 (bits (q 5) 0 32), sext 32 (bits (q 5) 32 32),
      sext 32 (bits (q 6) 0 32)],
    pad := bits (q 3) 48 16, compE := bits (q 3) 40 8 }

/-- The element width in bits (R121). -/
def typeBits (t : Nat) : Nat := if t = 0 then 4 else if t ≤ 2 then 8 else if t ≤ 5 then 16 else 32

/-- The vector size in bytes (R121). -/
def vecBytes (t : Nat) : Nat := 4 * typeBits t

/-- A signed element type (R122). -/
def typeSigned (t : Nat) : Bool := t == 0 || t == 1 || t == 3 || t == 6

/-- The size of a dimension. -/
def Desc.size (d : Desc) (k : Nat) : Nat := d.sizes.getD k 1

/-- The stride of a dimension, in vectors. -/
def Desc.stride (d : Desc) (k : Nat) : Int := d.strides.getD k 0

/-- The vector count n′ of a dimension (R120). -/
def Desc.vcount (d : Desc) (k : Nat) : Nat := if k = d.vdim then (d.size k + 31) / 32 else d.size k

/-- The dimensions of a descriptor. -/
def Desc.dims (d : Desc) : List Nat := List.range d.ndim

/-- Π n′_d (R123). -/
def Desc.vectors (d : Desc) : Nat := (d.dims.map d.vcount).foldl (· * ·) 1

/-- A dense descriptor (R123). -/
def Desc.dense (d : Desc) : Bool :=
  d.stride 0 == 1 && (List.range (d.ndim - 1)).all fun k => d.stride (k + 1) == d.stride k * d.vcount k

/-- The mode and type of a compressed descriptor fit (R132, COMP_TYPE). -/
def Desc.compTypeOk (d : Desc) : Bool :=
  d.comp == 0 || (decide (d.comp ≤ 4) && d.type != 0 && !(decide (5 ≤ d.type) && d.comp != 1) && !d.scaleEn)

/-- The slot size of a compressed tensor (R132, R293). -/
def Desc.slotBytes (d : Desc) : Nat :=
  let w := typeBits d.type
  if d.comp ≤ 2 then 4 * w + 1 else if d.comp = 3 then 2 * w + 1 else w + 1

/-- The sums of the negative and of the positive reaches of the strides (R132). -/
def Desc.reach (d : Desc) : Int × Int :=
  d.dims.foldl (fun a k =>
    let x := d.stride k * ((d.vcount k : Int) - 1)
    (a.1 + min 0 x, a.2 + max 0 x)) (0, 0)

/-- The footprint [lo, hi] of the data (R132). -/
def Desc.footprint (d : Desc) : Int × Int :=
  if d.comp ≠ 0 ∧ d.compTypeOk then (d.base, d.base + d.slotBytes * d.vectors - 1)
  else (d.base + vecBytes d.type * d.reach.1, d.base + vecBytes d.type * d.reach.2 + vecBytes d.type - 1)

/-- The footprint of the scale bytes (R132). -/
def Desc.scaleFootprint (d : Desc) : Int × Int := (d.scaleVa + d.reach.1, d.scaleVa + d.reach.2)

/-- Insertion of a dimension by ascending |stride|, ties by ascending number (R134). -/
def Desc.insDim (d : Desc) (k : Nat) : List Nat → List Nat
  | [] => [k]
  | j :: l => if (d.stride k).natAbs < (d.stride j).natAbs then k :: j :: l else j :: d.insDim k l

/-- The dimensions with more than one vector in the order of R134. -/
def Desc.strideOrder (d : Desc) : List Nat :=
  (d.dims.filter fun k => 1 < d.vcount k).foldl (fun l k => d.insDim k l) []

/-- The stride order test of R134. -/
def Desc.orderOk (d : Desc) : Bool :=
  let l := d.strideOrder
  (l.zip (l.drop 1)).all fun p => decide ((d.stride p.1).natAbs * d.vcount p.1 ≤ (d.stride p.2).natAbs)

/-- A footprint lies inside a region (R132). -/
def insideRegion (r : Region) (f : Int × Int) : Bool := decide ((r.base : Int) ≤ f.1) && decide (f.2 < r.base + r.size)

/-- A region lacks a right that the descriptor's access needs (R132, PERM). -/
def Desc.lacks (d : Desc) (r : Region) : Bool := (d.readable && !r.r) || (d.writable && !r.w)

/-- A reserved bit is 1, or a field is non-zero where R130 requires 0 (R132). -/
def reservedBits (qw : List DWord) : Bool :=
  let q := fun i => (qw.getD i 0).toNat
  let d := Desc.ofWords qw
  bits (q 0) 59 5 != 0 || bits (q 0) 55 1 != 0 || bits (q 0) 47 1 != 0 || bits (q 0) 39 1 != 0 ||
  bits (q 1) 60 4 != 0 || bits (q 2) 60 4 != 0 || q 7 != 0 ||
  (!d.scaleEn && (d.scaleVa != 0 || d.scaleRegion != 0)) || (d.comp != 2 && d.compE != 0)

/-- The first failing check of CREATE among those of the descriptor itself and its regions (R132). -/
def Chip.createCheck (c : Chip) (h : Nat) (qw : List DWord) : Nat :=
  let d := Desc.ofWords qw
  let ctx := h / 4096
  let reg := (aget c.rood.regions d.region).filter fun r => r.ctx == ctx
  let sreg := (aget c.rood.regions d.scaleRegion).filter fun r => r.ctx == ctx
  let f := d.footprint
  let sf := d.scaleFootprint
  if !c.ctxEnabled ctx then 0x01
  else if h % 4096 = 0 then 0x02
  else if (aget c.desc.slots h).isSome then 0x03
  else if reservedBits qw then 0x04
  else if 7 ≤ d.type then 0x05
  else if d.ndim = 0 ∨ 6 ≤ d.ndim then 0x06
  else if d.ndim ≤ d.vdim then 0x07
  else if ((List.range 5).drop d.ndim).any fun k => d.size k != 1 || d.stride k != 0 then 0x08
  else if !d.readable ∧ !d.writable then 0x09
  else if d.edge = 3 then 0x0A
  else if d.base % vecBytes d.type ≠ 0 then 0x0B
  else match reg with
    | none => 0x0C
    | some r =>
      if d.lacks r then 0x0D
      else if f.1 < 0 ∨ 2 ^ 39 ≤ f.2 then 0x0E
      else if !insideRegion r f then 0x0F
      else if d.writable && d.dims.any fun k => d.stride k == 0 && decide (1 < d.vcount k) then 0x10
      else if d.writable && !d.orderOk then 0x11
      else if d.scaleEn ∧ 2 ≤ d.type then 0x12
      else if d.scaleEn && (match sreg with | none => true | some s => d.lacks s) then 0x13
      else if d.scaleEn && (decide (sf.1 < 0 ∨ 2 ^ 39 ≤ sf.2) || (match sreg with | none => true | some s => !insideRegion s sf)) then 0x14
      else if !d.compTypeOk then 0x15
      else if d.comp = 2 ∧ d.compE = 0 then 0x16
      else if d.comp ≠ 0 ∧ !d.dense then 0x17
      else 0x00

/-- The LV_SEL value of a descriptor's lease entry (R487). -/
def descSel (h : Nat) : Nat := 0x10000 + h

/-- A stored slot is quarantined or stuck (R141). -/
def Chip.descQuarantined (c : Chip) (h : Nat) : Bool := decide (2 ≤ ((aget c.vrg.leases (descSel h)).getD {}).state)

/-- A descriptor slot emptied, with its lease entry and its region references (R131, R141). -/
def Chip.emptySlot (c : Chip) (h : Nat) : Chip :=
  let c := { c with
    desc := { c.desc with slots := adel c.desc.slots h }
    vrg := { c.vrg with leases := adel c.vrg.leases (descSel h) } }
  c.wr 0x073 0x24C (word c.desc.slots.length)

/-- A descriptor stored (R131, R141). -/
def Chip.storeSlot (c : Chip) (h : Nat) (d : DescSlot) : Chip :=
  let c := { c with
    desc := { c.desc with slots := aput c.desc.slots h d }
    vrg := { c.vrg with leases := aput c.vrg.leases (descSel h) { state := 1, since := c.time.now } } }
  c.wr 0x073 0x24C (word c.desc.slots.length)

/-- The eight words that sixteen stage words spell (R142). -/
def stageWords (l : List Word) : List DWord :=
  (List.range 8).map fun i => BitVec.ofNat 64 ((l.getD (2 * i) 0).toNat + 2 ^ 32 * (l.getD (2 * i + 1) 0).toNat)

/-- A correctable error of a stored word counted on a read (R140). -/
def Chip.noteDescCe (c : Chip) (d : DescSlot) : Chip := if d.ce then c.count 0x073 0x250 else c

/-- The end of a descriptor command with its code (R131). -/
def Chip.descEnd (c : Chip) (code : Nat) : Chip :=
  let c := (c.wr 0x073 0x248 (word code)).raise 0x073 2
  { c with desc := { c.desc with cmd := none } }

/-- The descriptor command in progress completes (R131, R132, R140, R141). -/
def Chip.descDone (c : Chip) : Chip :=
  match c.desc.cmd with
  | none => c
  | some k =>
    let slot := if k.handle % 4096 = 0 then none else aget c.desc.slots k.handle
    if k.op = 0 then
      let qw := stageWords k.stage
      let code := c.createCheck k.handle qw
      (if code = 0 then c.storeSlot k.handle { qw := qw, owner := k.owner } else c).descEnd code
    else match slot with
      | none => c.descEnd 0x18
      | some d =>
        if k.op = 1 then
          if c.descQuarantined k.handle ∨ (k.owner ≠ d.owner ∧ k.owner ≠ 2) then c.descEnd 0x19
          else (c.emptySlot k.handle).descEnd 0x00
        else if d.poison then c.descEnd 0x1A
        else
          let c := c.noteDescCe d
          let c := (List.range 16).foldl (fun c i =>
            c.wr 0x073 (0x200 + 4 * i) (word (bits (d.qw.getD (i / 2) 0).toNat (32 * (i % 2)) 32))) c
          c.descEnd 0x00

/-- A write to DESC_CMD (R131, R139): bits CREATE, DESTROY and READ. -/
def Chip.descCmd (c : Chip) (req : Requester) (v : Nat) : Chip :=
  if bits v 0 3 = 0 then c
  else if c.bit 0x073 0x248 31 then c.logUse 0x073 0x0A req (regAddr 0x073 0x244)
  else if popcount3 (bits v 0 3) ≠ 1 then c.setFld 0x073 0x248 0 8 0x04
  else
    let op := if bits v 0 1 = 1 then 0 else if bits v 1 1 = 1 then 1 else 2
    let cmd := { op := op, handle := c.fld 0x073 0x240 0 16, stage := (List.range 16).map fun i => c.rd 0x073 (0x200 + 4 * i),
                 owner := ownerCode req : DescCmd }
    { c.setBit 0x073 0x248 31 true with desc := { c.desc with cmd := some cmd } }
where
  /-- The number of ones of a 3-bit number. -/
  popcount3 (v : Nat) : Nat := bits v 0 1 + bits v 1 1 + bits v 2 1

/-- CREATE: a write of DESC_CMD.CREATE (R131). -/
def execCreate (req : Requester) (s : State) : Host.Outcome State Fault Refusal :=
  .next (s.onChip fun c => c.gated req 0x073 0x244 fun c => c.descCmd req 1)

/-- DESTROY: a write of DESC_CMD.DESTROY (R131). -/
def execDestroy (req : Requester) (s : State) : Host.Outcome State Fault Refusal :=
  .next (s.onChip fun c => c.gated req 0x073 0x244 fun c => c.descCmd req 2)

/-- DESC_READ: a write of DESC_CMD.READ (R131). -/
def execDescRead (req : Requester) (s : State) : Host.Outcome State Fault Refusal :=
  .next (s.onChip fun c => c.gated req 0x073 0x244 fun c => c.descCmd req 4)

/-- DESC_DONE: the descriptor command in progress completes (R131). -/
def execDescDone (s : State) : Host.Outcome State Fault Refusal := .next (s.onChip Chip.descDone)

end Sys2Proof.Machine
end

