-- ==== Sys2Proof/Machine/Num.lean ====
section
/-! DEFINITION. Arithmetic of elements: rounding and saturation (R54, R55), block scales (R126, R127),
fixed-rate and entropy codes of compressed vectors (R57, R58, R293), and BF16 with FP32 accumulation (R59,
R288). -/

namespace Sys2Proof.Machine

/-- The rounding right shift of R54; a shift of 0 is exact. -/
def rshift (x : Int) (s : Nat) : Int := if s = 0 then x else (x + 2 ^ (s - 1)) / 2 ^ s

/-- A value brought into a range, and whether it saturated (R54, R55). -/
def satTo (lo hi x : Int) : Int × Bool := if x < lo then (lo, true) else if hi < x then (hi, true) else (x, false)

/-- The least value of an element type (R121, R122). -/
def typeMin (t : Nat) : Int := if typeSigned t then -(2 ^ (typeBits t - 1) : Nat) else 0

/-- The greatest value of an element type. -/
def typeMax (t : Nat) : Int := if typeSigned t then (2 ^ (typeBits t - 1) : Nat) - 1 else (2 ^ typeBits t : Nat) - 1

/-- Saturation to an element type. -/
def satType (t : Nat) (x : Int) : Int × Bool := satTo (typeMin t) (typeMax t) x

/-- Saturation to INT32. -/
def sat32 (x : Int) : Int × Bool := satTo (-2147483648) 2147483647 x

/-- The value of an element of scale E as an integer (R126). -/
def applyScale (x : Int) (e : Int) : Int := if 0 ≤ e then x * 2 ^ e.toNat else rshift x (-e).toNat

/-- The pattern of a value in w bits read as its type. -/
def fromPattern (t v : Nat) : Int := if typeSigned t then sext (typeBits t) v else (v % 2 ^ typeBits t : Nat)

/-! Block scales (R127). -/

/-- The least E in 0–31 under which every value fits the type, else 31. -/
def deriveScale (t : Nat) (xs : List Int) : Nat :=
  ((List.range 32).find? fun e => xs.all fun x => !(satType t (rshift x e)).2).getD 31

/-! Compression (R57, R58, R293). -/

/-- The division of BOUNDED: floor((x + e) / (2e + 1)) (R57). -/
def boundedCode (e : Nat) (x : Int) : Int := (x + e) / (2 * e + 1 : Nat)

/-- Zig-zag of a signed code; an unsigned one stands (R293). -/
def zigzag (sgn : Bool) (w : Nat) (x : Int) : Nat := if sgn then (if x < 0 then (-2 * x - 1).toNat else (2 * x).toNat) % 2 ^ w else x.toNat % 2 ^ w

/-- The inverse of zig-zag. -/
def unzigzag (sgn : Bool) (z : Nat) : Int := if sgn then (if z % 2 = 1 then -(z / 2 + 1 : Nat) else (z / 2 : Nat)) else z

/-- The least width that holds a number. -/
def widthOf (n : Nat) : Nat := if n = 0 then 0 else Nat.log2 n + 1

/-- 32 fields of n bits as the payload bytes of a slot (R293). -/
def packFields (n bytes : Nat) (zs : List Nat) : List Byte :=
  let total := (zs.zipIdx.map fun (z, i) => z % 2 ^ n * 2 ^ (n * i)).sum
  leBytes bytes total

/-- The mantissa bits of a fixed-rate mode (R57). -/
def fixBits (mode w : Nat) : Nat := if mode = 3 then w / 2 else w / 4

/-- Signed or unsigned saturation to m bits. -/
def satBits (sgn : Bool) (m : Nat) (x : Int) : Int × Bool :=
  if sgn then satTo (-(2 ^ (m - 1) : Nat)) ((2 ^ (m - 1) : Nat) - 1) x else satTo 0 ((2 ^ m : Nat) - 1) x

/-- The exponent of a fixed-rate block (R58). -/
def fixExp (sgn : Bool) (w m : Nat) (xs : List Int) : Nat :=
  ((List.range (w - m + 1)).find? fun q => xs.all fun x => !(satBits sgn m (rshift x q)).2).getD (w - m)

/-- The slot bytes of a clean vector of 32 values (R57, R58, R293). -/
def compressVec (d : Desc) (xs : List Int) : List Byte :=
  let w := typeBits d.type
  let sgn := typeSigned d.type
  if d.comp ≤ 2 then
    let zs := xs.map fun x => zigzag sgn w (if d.comp = 2 then boundedCode d.compE x else x)
    let n := widthOf (zs.foldl max 0)
    BitVec.ofNat 8 n :: packFields n (d.slotBytes - 1) zs
  else
    let m := fixBits d.comp w
    let q := fixExp sgn w m xs
    BitVec.ofNat 8 q :: packFields m (d.slotBytes - 1) (xs.map fun x => unsext m (satBits sgn m (rshift x q)).1)

/-- The field width a slot's header names, none where it is malformed (R293). -/
def headerBits (d : Desc) (h : Nat) : Option Nat :=
  let w := typeBits d.type
  if d.comp ≤ 2 then (if 64 ≤ h ∨ w < h then none else some h)
  else (if 16 ≤ h ∨ w - fixBits d.comp w < h then none else some (fixBits d.comp w))

/-- One decoded value from its field (R57, R58, R293). -/
def decodeField (d : Desc) (h n z : Nat) : Int :=
  let sgn := typeSigned d.type
  if d.comp = 1 then unzigzag sgn z
  else if d.comp = 2 then (satType d.type (unzigzag sgn z * (2 * d.compE + 1 : Nat))).1
  else (if sgn then sext n z else (z : Int)) * 2 ^ h

/-! BF16 and FP32 (R59, R288). -/

/-- A floating value: a number m·2^e with m ≠ 0, a signed zero, an infinity or NaN. -/
inductive Fp
  | nan
  | inf (neg : Bool)
  | zero (neg : Bool)
  | num (m : Int) (e : Int)
deriving DecidableEq, Repr

/-- The exact significand brought to p bits, nearest even, with an unbounded exponent. -/
def roundSig (p : Nat) (m : Int) (e : Int) : Int × Int :=
  let n := m.natAbs
  let len := widthOf n
  if len ≤ p then (m, e)
  else
    let s := len - p
    let q := n / 2 ^ s
    let r := n % 2 ^ s
    let up := 2 ^ (s - 1) < r ∨ (r = 2 ^ (s - 1) ∧ q % 2 = 1)
    let q := if up then q + 1 else q
    (if m < 0 then -(q : Int) else q, e + s)

/-- Rounding to p significand bits, then the flush below 2^−126 and the overflow to infinity (R59). -/
def fpRound (p : Nat) (m e : Int) : Fp :=
  let (q, f) := roundSig p m e
  if q = 0 then .zero (decide (m < 0))
  else
    let top := f + widthOf q.natAbs
    if top ≤ -126 then .zero (decide (q < 0))
    else if 128 < top then .inf (decide (q < 0))
    else .num q f

/-- A value from sign, an 8-bit exponent and a fraction of k bits; subnormals are flushed (R59). -/
def fpOf (k : Nat) (v : Nat) : Fp :=
  let neg := bits v (k + 8) 1 == 1
  let ex := bits v k 8
  let fr := bits v 0 k
  if ex = 255 then (if fr = 0 then .inf neg else .nan)
  else if ex = 0 then .zero neg
  else
    let m : Int := (2 ^ k + fr : Nat)
    .num (if neg then -m else m) ((ex : Int) - 127 - k)

/-- The pattern with a fraction of k bits of a value that fits it; NaN is the quiet pattern of R59. -/
def fpBits (k : Nat) : Fp → Nat
  | .nan => 0x7FC * 2 ^ (k - 3)
  | .inf neg => neg.toNat * 2 ^ (k + 8) + 255 * 2 ^ k
  | .zero neg => neg.toNat * 2 ^ (k + 8)
  | .num m e =>
    let n := m.natAbs
    let len := widthOf n
    let fr := if len ≤ k + 1 then n * 2 ^ (k + 1 - len) else n / 2 ^ (len - (k + 1))
    let ex := (e + len - 1 + 127).toNat
    (decide (m < 0)).toNat * 2 ^ (k + 8) + ex * 2 ^ k + (fr - 2 ^ k)

/-- A sign as a Bool. -/
def Fp.neg : Fp → Bool
  | .nan => false
  | .inf n => n
  | .zero n => n
  | .num m _ => decide (m < 0)

/-- The product rounded to the FP32 significand (R59). -/
def fpMul (a b : Fp) : Fp :=
  let sg := xor a.neg b.neg
  match a, b with
  | .nan, _ => .nan
  | _, .nan => .nan
  | .inf _, .zero _ => .nan
  | .zero _, .inf _ => .nan
  | .inf _, _ => .inf sg
  | _, .inf _ => .inf sg
  | .zero _, _ => .zero sg
  | _, .zero _ => .zero sg
  | .num m e, .num n f => fpRound 24 (m * n) (e + f)

/-- The sum rounded to the FP32 significand (R59). -/
def fpAdd (a b : Fp) : Fp :=
  match a, b with
  | .nan, _ => .nan
  | _, .nan => .nan
  | .inf x, .inf y => if x = y then .inf x else .nan
  | .inf x, _ => .inf x
  | _, .inf y => .inf y
  | .zero x, .zero y => .zero (x && y)
  | .zero _, b => b
  | a, .zero _ => a
  | .num m e, .num n f =>
    let g := min e f
    let sum := m * 2 ^ (e - g).toNat + n * 2 ^ (f - g).toNat
    if sum = 0 then .zero false else fpRound 24 sum g

/-- The BF16 pattern of an FP32 result (R288). -/
def toBf16 : Fp → Nat
  | .nan => 0x7FC0
  | .num m e => match fpRound 8 m e with
    | .nan => 0x7FC0
    | x => fpBits 7 x
  | x => fpBits 7 x

/-- The order of BF16 patterns as IEEE values, −0 below +0 (R155): a key that rises with the value. -/
def bf16Key (v : Nat) : Int := if bits v 15 1 = 1 then -(bits v 0 15 : Int) - 1 else bits v 0 15

/-- A BF16 pattern is a NaN. -/
def bf16Nan (v : Nat) : Bool := bits v 7 8 == 255 && bits v 0 7 != 0

end Sys2Proof.Machine
end

