-- ==== Sys2Proof/Machine/Operands.lean ====
section
/-! DEFINITION. Tensor operands: the view of a descriptor through an XFORM word (R143-R147), the checks of an
XFORM (R162), loads with their edges, padding lanes, block scales and compressed slots (R120, R124, R133, R136,
R146, R293), and stores of whole vectors (R124, R127, R135, R151). An element is an integer, or none where it is
poisoned (R45); a BF16 element is its bit pattern. -/

namespace Sys2Proof.Machine

/-- An operand: a descriptor seen through an XFORM by a source in a context. -/
structure Opd where
  d : Desc
  perm : List Nat
  vv : Nat
  conv : Nat
  ctx : Nat
  src : Nat
deriving DecidableEq, Repr

/-- CONV of an XFORM word (R144). -/
def xConv (x : Nat) : Nat := bits x 20 4

/-- PERM_k of an XFORM word. -/
def xPerm (x k : Nat) : Nat := bits x (3 * k) 3

/-- The operand of a descriptor and an XFORM word that pass the checks (R145). -/
def Opd.of (d : Desc) (x ctx src : Nat) : Opd :=
  if bits x 15 1 = 1 then
    { d := d, perm := (List.range d.ndim).map (xPerm x), vv := bits x 16 3, conv := xConv x, ctx := ctx, src := src }
  else { d := d, perm := List.range d.ndim, vv := d.vdim, conv := xConv x, ctx := ctx, src := src }

/-- The number of view dimensions. -/
def Opd.ndim (o : Opd) : Nat := o.d.ndim

/-- The view size along a dimension (R145). -/
def Opd.size (o : Opd) (k : Nat) : Nat := o.d.size (o.perm.getD k k)

/-- The view sizes. -/
def Opd.sizes (o : Opd) : List Nat := (List.range o.ndim).map o.size

/-- The view is the descriptor's own (XFORM = 0 but for CONV). -/
def Opd.plain (o : Opd) : Bool := o.perm == List.range o.d.ndim && o.vv == o.d.vdim

/-- Which ports an operand uses. -/
inductive PortUse | load | store | both
deriving DecidableEq, Repr

/-- The first failing XFORM check, 0x0B–0x0F, or 0 (R144-R147, R162). `et` is the type of the engine's operand
or value, where the opcode fixes one. -/
def xformCode (d : Desc) (x : Nat) (use : PortUse) (et : Option Nat) (indexed : Bool) : Nat :=
  let en := bits x 15 1 == 1
  let conv := xConv x
  let ps := (List.range d.ndim).map (xPerm x)
  if bits x 24 8 ≠ 0 ∨ bits x 19 1 ≠ 0 ∨ (!en ∧ (bits x 0 15 ≠ 0 ∨ bits x 16 3 ≠ 0)) then 0x0B
  else if en && !((List.range d.ndim).all (fun k => ps.contains k) &&
      ((List.range 5).drop d.ndim).all fun k => xPerm x k == k) then 0x0C
  else if en && decide (d.ndim ≤ bits x 16 3) then 0x0D
  else if 3 ≤ conv ∨ (conv = 1 ∧ use ≠ .load) ∨ (conv = 2 ∧ use = .load) ∨
      (conv = 0 ∧ (et.any fun t => t != d.type)) ∨ (conv ≠ 0 ∧ (d.type = 5 ∨ et = some 5)) then 0x0E
  else if d.comp ≠ 0 ∧ (en ∨ conv ≠ 0 ∨ indexed) then 0x0F
  else 0

/-! Indices. -/

/-- The descriptor index of a view index (R145). -/
def Opd.toDesc (o : Opd) (v : List Int) : List Int :=
  (List.range o.d.ndim).map fun j => v.getD (o.perm.findIdx fun p => p == j) 0

/-- The view index of a descriptor index. -/
def Opd.toView (o : Opd) (i : List Nat) : List Nat := (List.range o.ndim).map fun k => i.getD (o.perm.getD k k) 0

/-- A mixed-radix number's digits, least first. -/
def digits : List Nat → Nat → List Nat
  | [], _ => []
  | n :: ns, x => x % n :: digits ns (x / n)

/-- The number that digits spell. -/
def undigits : List Nat → List Nat → Nat
  | n :: ns, x :: xs => x + n * undigits ns xs
  | _, _ => 0

/-- The vector counts of a descriptor. -/
def Desc.vcounts (d : Desc) : List Nat := d.dims.map d.vcount

/-- The vector offset of a vector named by its dense number (R120). -/
def Desc.offset (d : Desc) (lin : Nat) : Int :=
  ((digits d.vcounts lin).zipIdx.map fun (j, k) => d.stride k * (j : Int)).sum

/-- The real lanes of a vector: those before the first padding lane (R124). -/
def Desc.realLanes (d : Desc) (lin : Nat) : Nat := min 32 (d.size d.vdim - 32 * (digits d.vcounts lin).getD d.vdim 0)

/-- The descriptor index of a lane of a vector. -/
def Desc.laneIndex (d : Desc) (lin lane : Nat) : List Nat :=
  (digits d.vcounts lin).zipIdx.map fun (j, k) => if k = d.vdim then 32 * j + lane else j

/-- What a read of a descriptor index means (R133). -/
inductive Ref
  | at (lin lane : Nat)
  | const
  | err
deriving DecidableEq, Repr

/-- The vector number and lane of an index inside the range (R120). -/
def Desc.locate (d : Desc) (i : List Nat) : Nat × Nat :=
  (undigits d.vcounts (i.zipIdx.map fun (x, k) => if k = d.vdim then x / 32 else x), i.getD d.vdim 0 % 32)

/-- An index lies inside the range of every dimension. -/
def Desc.inRange (d : Desc) (i : List Int) : Bool := i.zipIdx.all fun (x, k) => decide (0 ≤ x) && decide (x < d.size k)

/-- The EDGE rule of a descriptor (R133). -/
def Desc.resolve (d : Desc) (i : List Int) : Ref :=
  if d.inRange i then let (l, n) := d.locate (i.map Int.toNat); .at l n
  else if d.edge = 0 then
    let (l, n) := d.locate (i.zipIdx.map fun (x, k) => (max 0 (min x ((d.size k : Int) - 1))).toNat)
    .at l n
  else if d.edge = 1 then .const else .err

/-- The value of PAD_VALUE in the descriptor's type (R133). -/
def Desc.padValue (d : Desc) : Int :=
  if d.type = 6 then sext 16 d.pad else fromPattern d.type d.pad

/-! Loads. -/

/-- A loaded vector: its 32 lanes and its scale exponent (0 without SCALE_EN); none is poison. -/
structure Vec where
  lanes : List (Option Int)
  e : Option Int
deriving DecidableEq, Repr

/-- The lanes that the bytes of a vector hold (R120, R122). -/
def decodeLanes (t : Nat) (bs : List (Option Byte)) : List (Option Int) :=
  (List.range 32).map fun l =>
    if typeBits t = 4 then (bs.getD (l / 2) none).map fun b => fromPattern t (b.toNat / 16 ^ (l % 2))
    else
      let n := typeBits t / 8
      (leNat ((bs.drop (n * l)).take n)).map (fromPattern t)

/-- A slot of a compressed tensor decoded (R293): only the header and the payload its width names are fetched. -/
def loadSlot (o : Opd) (lin : Nat) : EM (List (Option Int)) := do
  let d := o.d
  let va := d.base + d.slotBytes * lin
  let w ← get
  let look := ((readVa o.ctx o.src va 1).run w).1
  let head := match look with
    | .ok [some h] => headerBits d h.toNat
    | _ => none
  match head with
  | none =>
    let _ ← readVa o.ctx o.src va 1
    return List.replicate 32 none
  | some n =>
    match ← readVa o.ctx o.src va (1 + 4 * n) with
    | some h :: rest =>
      return (List.range 32).map fun i =>
        let lo := n * i / 8
        let hi := (n * i + n + 7) / 8
        (leNat ((rest.drop lo).take (hi - lo))).map fun v => decodeField d h.toNat n (bits v (n * i % 8) n)
    | _ => return List.replicate 32 none

/-- The lanes of a vector. -/
def loadLanes (o : Opd) (lin : Nat) : EM (List (Option Int)) :=
  if o.d.comp ≠ 0 then loadSlot o lin else do
    let bs ← readVa o.ctx o.src ((o.d.base : Int) + o.d.offset lin * vecBytes o.d.type).toNat (vecBytes o.d.type)
    return decodeLanes o.d.type bs

/-- The scale exponent of a vector (R125); 0 without SCALE_EN. -/
def loadScale (o : Opd) (lin : Nat) : EM (Option Int) :=
  if o.d.scaleEn then do
    let bs ← readVa o.ctx o.src ((o.d.scaleVa : Int) + o.d.offset lin).toNat 1
    return (leNat bs).map (sext 8)
  else return some 0

/-- One vector loaded by its dense number (R124, R125). Padding lanes read 0 and never poison. -/
def loadVec (o : Opd) (lin : Nat) : EM Vec := do
  let d := o.d
  let lanes ← loadLanes o lin
  let e ← loadScale o lin
  return { lanes := lanes.zipIdx.map fun (x, l) => if l < d.realLanes lin then x else some 0, e := e }

/-- The vectors a command has loaded, by dense number. -/
abbrev Loaded := List (Nat × Vec)

/-- The vectors that a list of view indices needs, in the order first needed; an index outside the range under
EDGE = ERROR ends the command (R133). -/
def neededVecs (o : Opd) (idxs : List (List Int)) : EM (List Nat) := do
  let refs := idxs.map fun v => o.d.resolve (o.toDesc v)
  if refs.contains .err then throw 0x20
  return (refs.filterMap fun r => match r with
    | .at l _ => some l
    | _ => none).eraseDups

/-- The vectors that view indices need, loaded. A compressed operand is read as one stream of all its vectors, and an index outside
its range is no part of it (R136). -/
def loadFor (o : Opd) (idxs : List (List Int)) : EM Loaded := do
  if o.d.comp ≠ 0 ∧ idxs.any fun v => !o.d.inRange (o.toDesc v) then throw 0x0F
  let need ← if o.d.comp ≠ 0 then pure (List.range o.d.vectors) else neededVecs o idxs
  need.mapM fun l => do return (l, ← loadVec o l)

/-- An element with the mark that some step of its computation saturated (R55). -/
structure Elem where
  v : Option Int
  sat : Bool := false
deriving DecidableEq, Repr

/-- The element at a view index as the engine receives it: raw under NONE, and under WIDEN the scaled value
saturated to the engine's type (R126, R146). -/
def elemAt (o : Opd) (m : Loaded) (et : Nat) (v : List Int) : Elem :=
  let raw : Option Int × Option Int := match o.d.resolve (o.toDesc v) with
    | .at l n => match aget m l with
      | some vec => (vec.lanes.getD n none, vec.e)
      | none => (none, some 0)
    | _ => (some o.d.padValue, some 0)
  if o.conv = 1 then
    match raw.1, raw.2 with
    | some x, some e => let r := satType et (applyScale x e); { v := some r.1, sat := r.2 }
    | _, _ => { v := none }
  else { v := raw.1 }

/-- The scale exponent of the vector that holds a view index; none is poison. -/
def scaleAt (o : Opd) (m : Loaded) (v : List Int) : Option Int :=
  match o.d.resolve (o.toDesc v) with
  | .at l _ => match aget m l with
    | some vec => vec.e
    | none => none
  | _ => some 0

/-- Every index over sizes in dense order, dimension 0 fastest. -/
def allIndices (sizes : List Nat) : List (List Nat) :=
  (List.range (sizes.foldl (· * ·) 1)).map (digits sizes)

/-- A natural index as an integer one. -/
def toInts (v : List Nat) : List Int := v.map Int.ofNat

/-! Stores. -/

/-- The bytes of 32 lanes of patterns; a byte that holds any poisoned element is poison (R45, R122). -/
def encodeLanes (t : Nat) (xs : List (Option Int)) : List (Option Byte) :=
  if typeBits t = 4 then
    (List.range 16).map fun k => match xs.getD (2 * k) none, xs.getD (2 * k + 1) none with
      | some a, some b => some (BitVec.ofNat 8 (unsext 4 a + 16 * unsext 4 b))
      | _, _ => none
  else
    let n := typeBits t / 8
    xs.flatMap fun x => match x with
      | some a => (leBytes n (unsext (8 * n) a)).map some
      | none => List.replicate n none

/-- One vector stored by its dense number: whole, with 0 in the padding lanes (R124). A
block-scaled destination takes mantissas and a scale byte from the values (R127). It answers the saturation of each real lane. -/
def storeVec (o : Opd) (lin : Nat) (xs : List Elem) : EM (List Bool) := do
  let d := o.d
  let off := d.offset lin
  let va := ((d.base : Int) + off * vecBytes d.type).toNat
  let sva := ((d.scaleVa : Int) + off).toNat
  let pads := List.replicate (32 - xs.length) (some (0 : Int))
  if d.scaleEn then
    let vs := xs.map fun x => x.v.map sat32
    let e := deriveScale d.type (vs.filterMap fun x => x.map Prod.fst)
    let ms := vs.map fun x => x.map fun y => (satType d.type (rshift y.1 e), y.2)
    writeVa o.ctx o.src va (encodeLanes d.type (ms.map (fun m => m.map fun p => p.1.1) ++ pads))
    writeVa o.ctx o.src sva [some (BitVec.ofNat 8 e)]
    return (xs.zip ms).map fun (x, m) => x.sat || (m.any fun p => p.1.2 || p.2)
  else
    let ms := xs.map fun x => x.v.map fun v => if d.type = 5 then (v, false) else satType d.type v
    let vals := ms.map (fun m => m.map Prod.fst) ++ pads
    if d.comp ≠ 0 then
      let cva := d.base + d.slotBytes * lin
      if vals.any Option.isNone then writeVa o.ctx o.src cva (none :: List.replicate (d.slotBytes - 1) (some 0))
      else writeVa o.ctx o.src cva ((compressVec d (vals.map fun x => x.getD 0)).map some)
    else writeVa o.ctx o.src va (encodeLanes d.type vals)
    return (xs.zip ms).map fun (x, m) => x.sat || (m.any Prod.snd)

/-- What an execution leaves for the completion record (R173). -/
structure Stats where
  sat : Nat := 0
  clamped : Nat := 0
  dropped : Nat := 0
  poison : Bool := false
  flooded : Bool := false
deriving DecidableEq, Repr

/-- Two executions' results together. -/
def Stats.add (a b : Stats) : Stats :=
  { sat := a.sat + b.sat, clamped := a.clamped + b.clamped, dropped := a.dropped + b.dropped, poison := a.poison || b.poison,
    flooded := a.flooded || b.flooded }

/-- The elements of one destination vector as a function of the view index. -/
def vecElems (o : Opd) (lin : Nat) (f : List Nat → Elem) : List Elem :=
  (List.range (o.d.realLanes lin)).map fun l => f (o.toView (o.d.laneIndex lin l))

/-- A tensor stored vector by vector: each element is a function of its view index. -/
def storeTensor (o : Opd) (f : List Nat → Elem) : EM Stats :=
  (List.range o.d.vectors).foldlM (fun st lin => do
    let xs := vecElems o lin f
    let sats ← storeVec o lin xs
    return st.add { sat := (sats.filter id).length, poison := xs.any fun x => x.v.isNone }) {}

/-- The virtual address and the bytes of one element of 8 bits or more. -/
def elemAddr (o : Opd) (v : List Nat) : Nat × Nat :=
  let (lin, lane) := o.d.locate ((o.toDesc (toInts v)).map Int.toNat)
  let n := typeBits o.d.type / 8
  (((o.d.base : Int) + o.d.offset lin * vecBytes o.d.type).toNat + n * lane, n)

/-- One element read in place. -/
def loadElem (o : Opd) (v : List Nat) : EM (Option Int) := do
  let (va, n) := elemAddr o v
  return (leNat (← readVa o.ctx o.src va n)).map (fromPattern o.d.type)

/-- One element written in place. -/
def storeElem (o : Opd) (v : List Nat) (x : Option Int) : EM Unit := do
  let (va, n) := elemAddr o v
  writeVa o.ctx o.src va (match x with
    | some a => (leBytes n (unsext (8 * n) a)).map some
    | none => List.replicate n none)

/-! Undefined content (R184). -/

/-- The bytes at a virtual address take free values where the Rood lets the source write: a destination that a
failed command may have partly written. -/
def havocBytes (ctx src va n : Nat) : WM Unit := do
  for (a, l) in bursts va n do
    let w ← get
    match (translate ctx 1 a w).1 with
    | .error _ => pure ()
    | .ok pa => havocPhys src pa l

/-- A destination operand left undefined, its scale bytes included, but for the first `keep` bytes of its first vector. -/
def havocOpd (o : Opd) (keep : Nat := 0) : WM Unit := do
  for lin in List.range o.d.vectors do
    let k := if lin = 0 then keep else 0
    if o.d.comp ≠ 0 then havocBytes o.ctx o.src (o.d.base + o.d.slotBytes * lin) o.d.slotBytes
    else havocBytes o.ctx o.src (((o.d.base : Int) + o.d.offset lin * vecBytes o.d.type).toNat + k) (vecBytes o.d.type - k)
    if o.d.scaleEn then havocBytes o.ctx o.src ((o.d.scaleVa : Int) + o.d.offset lin).toNat 1

/-! Footprints (R132, R162 OVERLAP). -/

/-- The address intervals of a descriptor: its data, and its scale bytes. -/
def Desc.intervals (d : Desc) : List (Int × Int) := d.footprint :: (if d.scaleEn then [d.scaleFootprint] else [])

/-- Two descriptors' footprints meet. -/
def Desc.meets (a b : Desc) : Bool :=
  a.intervals.any fun x => b.intervals.any fun y => decide (x.1 ≤ y.2) && decide (y.1 ≤ x.2)

end Sys2Proof.Machine
end

