-- ==== Sys2Proof/Machine/Flags.lean ====
section
/-! DEFINITION. The promise flags (R41, R44, R173), the interrupt-cause operations of every page (R69, R74) and
the event counters with the scoreboard (R176, R177, R302). -/

namespace Sys2Proof.Machine

/-! Interrupt causes. -/

/-- A write to IRQ_RAW against hardware's set in the same cycle (R72, R74): the event stands. -/
def Chip.irqClear (c : Chip) (p : Nat) (m hw : Word) : Chip :=
  let raw := (c.rd p 0x014 &&& ~~~m) ||| hw
  let c := c.wr p 0x014 raw
  { c with bus := { c.bus with forced := aput c.bus.forced p ((aget c.bus.forced p).getD 0 &&& raw) } }

/-! Promise flags. -/

/-- The part runs under the forced version override (R444). -/
def Chip.taint (c : Chip) : Bool := c.bit 0x008 0x0C4 0

/-- Scan is active (R519): an instruction other than BYPASS or IDCODE is loaded. Codes outside the list act as
BYPASS. -/
def Chip.scan (c : Chip) : Bool :=
  [0x00#8, 0x02#8, 0x04#8, 0x05#8].contains c.tap.ir

/-- Test access is active on the whole chip (R41): scan, or a debug halt of a Precentor core. -/
def Chip.debugChip (c : Chip) : Bool := c.scan || c.fld 0x010 0x044 0 2 != 0

/-- IRQ_FORCE keeps DEBUG active on one of these pages (R69). -/
def Chip.forcedOn (c : Chip) (pages : List Nat) : Bool :=
  pages.any fun p => (aget c.bus.forced p).getD 0 != 0

/-- DEBUG for an output produced by the blocks of these pages (R41, R44). -/
def Chip.debugOn (c : Chip) (pages : List Nat) : Bool := c.debugChip || c.forcedOn pages

/-- PFLAGS (R173): TAINT, POISON, FLOODED, DEBUG. -/
def pflags (taint poison flooded dbg : Bool) : Nat :=
  taint.toNat + 2 * poison.toNat + 4 * flooded.toNat + 8 * dbg.toNat

/-! Event counters. -/

/-- POS (R361, R378). -/
def Chip.chPos (c : Chip) : Nat := c.fld 0x0B4 0x044 4 3

/-- An event counter (R176). -/
def Chip.evt (c : Chip) (e : Nat) : Nat := c.rd64 0x011 (0x040 + 8 * e)

/-- An armed scoreboard entry whose counter has come to or past its threshold is hit (R302, R325). -/
def Chip.sbHit (c : Chip) (e : Nat) : Chip :=
  (List.range 64).foldl (fun c n =>
    let off := 0x100 + 16 * n
    if c.bit 0x010 (off + 8) 8 && c.fld 0x010 (off + 8) 0 8 == e && decide (c.rd64 0x010 off ≤ c.evt e) then
      c.setBit 0x010 (off + 8) 9 true
    else c) c

/-! The graph slots' counters (R309, R312, R315, R320, R324). -/

/-- GSTATE of a graph slot (R326), and whether it runs: RUNNING, STOPPING or SWITCHING. -/
def Chip.gstate (c : Chip) (g : Nat) : Nat := c.fld (pgSlot g) 0x080 0 3
def Chip.slotLive (c : Chip) (g : Nat) : Bool := 3 ≤ c.gstate g && c.gstate g ≤ 5

/-- GSTATE set. -/
def Chip.setGstate (c : Chip) (g s : Nat) : Chip := c.setFld (pgSlot g) 0x080 0 3 s

/-- What the firmware holds of a slot, and its replacement or removal. -/
def Chip.gslot (c : Chip) (g : Nat) : Option GSlot := aget c.prc.slots g
def Chip.setGslot (c : Chip) (g : Nat) (s : Option GSlot) : Chip := { c with prc := { c.prc with slots := aset c.prc.slots g s } }

/-- EVT_BASE. -/
def Chip.evtBase (c : Chip) (g : Nat) : Nat := c.fld (pgSlot g) 0x060 0 8

/-- FREE pacing, and PERIOD_NS. -/
def Chip.gFree (c : Chip) (g : Nat) : Bool := c.bit (pgSlot g) 0x064 0
def Chip.gPeriod (c : Chip) (g : Nat) : Nat := (c.rd (pgSlot g) 0x068).toNat

/-- The count of a graph counter since START. -/
def Chip.gcount (c : Chip) (g : Nat) (s : GSlot) (e : Nat) : Nat := c.evt (c.evtBase g + e) - s.base.getD e 0

/-- T_n of the step that an ADMIT decides (R312): a chip that does not decide LOCKSTEP steps itself learns of one at most
100 µs after its decision, and no message tells it how much. -/
def Chip.stepTime (c : Chip) (g : Nat) (s : GSlot) : Nat × Chip :=
  if c.gFree g then (s.t0 + s.steps * c.gPeriod g, c)
  else match s.lastD with
    | some d => (d + 100000, c)
    | none =>
      let (k, c) := c.draw
      (c.time.tb.toNat + 100000 - Config.choice k % 100001, c)

/-- ADMIT: the next step is admitted as the next frame. -/
def Chip.noteAdmit (c : Chip) (g : Nat) : Chip :=
  match c.gslot g with
  | none => c
  | some s =>
    let (t, c) := c.stepTime g s
    let f : GFrame := { a := s.admitted, step := s.steps, skipped := s.skipped, start := t }
    let c := (c.count (pgSlot g) 0x084).count (pgSlot g) 0x088
    c.setGslot g (some { s with steps := s.steps + 1, admitted := s.admitted + 1, skipped := 0, frames := s.frames ++ [f] })

/-- RUN or ABANDON: the first undecided frame is decided. -/
def Chip.noteRun (c : Chip) (g : Nat) (run : Bool) : Chip :=
  match c.gslot g with
  | none => c
  | some s =>
    let fs := s.frames.map fun (f : GFrame) => if f.a = s.decided then { f with run := some run } else f
    let c := c.setGslot g (some { s with decided := s.decided + 1, frames := fs })
    if run then c else (c.count (pgSlot g) 0x090).raise (pgSlot g) 2

/-- COMMIT: frames below c are done. -/
def Chip.noteCommit (c : Chip) (g : Nat) (s : GSlot) (inc : Nat) : Chip :=
  let n := s.committed + inc
  (c.setGslot g (some { s with committed := n, frames := s.frames.filter fun (f : GFrame) => decide (n ≤ f.a) })).wr (pgSlot g) 0x08C (word n)

/-- SWITCH: the chip is to take a placement. -/
def Chip.noteSwitch (c : Chip) (g : Nat) (s : GSlot) (inc : Nat) : Chip :=
  let c := c.setGslot g (some { s with
    newPlace := some (inc - 1), quiet := false, resumes := c.gcount g s 7, stopping := s.stopping || c.gstate g == 4 })
  c.setGstate g 5

/-- A graph slot's FAILED state, with GFAILED. -/
def Chip.gFailed (c : Chip) (g : Nat) : Chip := (c.setGstate g 6).raise (pgSlot g) 4

/-- What a slot makes of an increase of one of its counters; a counter at its end fails the graph. -/
def Chip.slotNote (c : Chip) (g e inc : Nat) : Chip :=
  match c.gslot g with
  | none => c
  | some s =>
    let b := c.evtBase g
    if !c.slotLive g || decide (e < b) || decide (b + s.img.nEvt ≤ e) then c
    else if c.evt e = 2 ^ 64 - 1 then c.gFailed g
    else match e - b with
      | 0 => (List.range inc).foldl (fun (c : Chip) _ => c.noteAdmit g) c
      | 1 => (c.setGslot g (some { s with steps := s.steps + inc, skipped := s.skipped + inc })).count (pgSlot g) 0x084 inc
      | 2 => (List.range inc).foldl (fun (c : Chip) _ => c.noteRun g true) c
      | 3 => (List.range inc).foldl (fun (c : Chip) _ => c.noteRun g false) c
      | 4 => c.noteCommit g s inc
      | 5 => c.noteSwitch g s inc
      | _ => c

/-- An increase of a counter told to the eight graph slots. -/
def Chip.prcNote (c : Chip) (e inc : Nat) : Chip := (List.range 8).foldl (fun (c : Chip) g => c.slotNote g e inc) c

/-- A SIGNAL on a local counter (R177): the counter, saturating at 2^64 − 1; the answer says that it would have
passed that. -/
def Chip.signal (c : Chip) (e inc : Nat) : Bool × Chip :=
  let v := c.evt e + inc
  (decide (2 ^ 64 ≤ v), ((c.wr64 0x011 (0x040 + 8 * e) (min v (2 ^ 64 - 1))).sbHit e).prcNote e inc)

/-- A SIGNAL whose overflow no command reports (R18, R179). -/
def Chip.signal' (c : Chip) (e inc : Nat) : Chip := (c.signal e inc).2

end Sys2Proof.Machine
end

