-- ==== Sys2Proof/Machine/Queue.lean ====
section
/-! DEFINITION. Command queues (chapter 7): units and their queues (R165), fetch and selection (R166, R174), the
start checks of R183 that all opcodes share, completion records (R173), retirement and errors (R167, R184), and
the commands of the queue pages (R182, R184-R186, R188). -/

namespace Sys2Proof.Machine

/-! Units (R165, R110, R171). -/

/-- A number for each unit, in the order of R165. -/
def unitNum : EngUnit → Nat
  | .cho g => g | .pyr => 8 | .wrp => 9 | .ftr => 10 | .flw => 11 | .str => 12 | .dmd => 13 | .lxe => 14

/-- The queues of a unit (R165). -/
def unitQueues : EngUnit → List Nat
  | .cho g => (List.range 8).map fun i => 8 * g.val + i
  | .pyr => (List.range 8).map (64 + ·)
  | .wrp => (List.range 8).map (72 + ·)
  | .ftr => (List.range 8).map (80 + ·)
  | .flw => (List.range 8).map (88 + ·)
  | .str => (List.range 8).map (96 + ·)
  | .dmd => (List.range 8).map (104 + ·)
  | .lxe => (List.range 16).map (112 + ·)

/-- The unit that owns a queue (R165). -/
def unitOf (q : Nat) : EngUnit :=
  if h : q < 64 then .cho ⟨q / 8, by omega⟩
  else if q < 72 then .pyr else if q < 80 then .wrp else if q < 88 then .ftr else if q < 96 then .flw
  else if q < 104 then .str else if q < 112 then .dmd else .lxe

/-- The bit of UNIT_FAILED of a unit (R307, R488): 0 Choir, 1–5 the vision engines, 6 demodulator, 7 LXE. -/
def unitFailBit : EngUnit → Nat
  | .cho _ => 0 | .pyr => 1 | .wrp => 2 | .ftr => 3 | .flw => 4 | .str => 5 | .dmd => 6 | .lxe => 7

/-- The slots of a stall group (R279, R299). -/
def Chip.groupSlots (c : Chip) (g : Nat) : List Nat :=
  (List.range (c.fld 0x060 (0x060 + 4 * g) 16 5)).map (c.fld 0x060 (0x060 + 4 * g) 0 5 + ·)

/-- The served slots of a group. -/
def Chip.servedSlots (c : Chip) (g : Nat) : List Nat := (c.groupSlots g).filter fun i => i < 30 && !c.slotVacant i

/-- A queue's stall group has no served slot (R279, CHO_NO_STALL). -/
def Chip.noStall (c : Chip) (q : Nat) : Bool := decide (q < 64) && (c.servedSlots (q / 8)).isEmpty

/-- The source ID of a unit's accesses (R110). A stall group fetches and moves through the stall of its lowest
served slot (DEDUCED: R110 names stalls, not groups). -/
def Chip.unitSrc (c : Chip) : EngUnit → Nat
  | .cho g => ((c.servedSlots g).head?.map c.slotPhys).getD 0
  | .pyr => 0x20 | .wrp => 0x21 | .ftr => 0x22 | .flw => 0x23 | .str => 0x24 | .dmd => 0x28 | .lxe => 0x38

/-- The register pages of a unit's engine, where IRQ_FORCE marks its outputs (R69). -/
def Chip.unitPages (c : Chip) : EngUnit → List Nat
  | .cho g => 0x060 :: (c.servedSlots g).map fun i => pgStall (c.slotPhys i)
  | .pyr => [pgVec 0] | .wrp => [pgVec 1] | .ftr => [pgVec 2] | .flw => [pgVec 3] | .str => [pgVec 4]
  | .dmd => [0x026] | .lxe => [0x0B4]

/-- Outputs in production are marked DEBUG (R41, R44): those of the running commands and of the frames whose pages a test picks, and
the outputs of graph frames in flight where test access is active on the whole chip. -/
def Chip.markDebugOf (c : Chip) (hit : List Nat → Bool) (graph : Bool) : Chip :=
  let frame := fun (f : Frame) => if hit [pgCam f.port, 0x024, 0x025] then { f with debug := true } else f
  let item := fun (x : PipeItem) => { x with frame := frame x.frame }
  let cmd := fun (r : Nat × Running) =>
    if hit (pgQ r.1 :: c.unitPages (unitOf r.1)) then (r.1, { r.2 with debug := true }) else r
  { c with
    queues := { c.queues with run := c.queues.run.map cmd }
    ntx := { c.ntx with
      inl := c.ntx.inl.map item, ready := c.ntx.ready.map item, mem := c.ntx.mem.map item
      ports := c.ntx.ports.map fun p => (p.1, { p.2 with
        cap := p.2.cap.map fun k => { k with frame := frame k.frame }
        errs := p.2.errs.map fun e => (frame e.1, e.2) }) }
    prc := { c.prc with slots := c.prc.slots.map fun s => (s.1, { s.2 with
      frames := if graph then s.2.frames.map fun f => { f with debug := true } else s.2.frames }) } }

/-- Every output in production is marked DEBUG while test access is active (R41, R44). -/
def Chip.markDebug (c : Chip) : Chip := if c.debugChip then c.markDebugOf (fun _ => true) true else c

/-- A write to IRQ_FORCE (R67, R69): the bits of IRQ_RAW are set, and on an engine page DEBUG is active until
they are cleared, for the outputs in production from this moment on. -/
def Chip.irqForce (c : Chip) (p : Nat) (m : Word) : Chip :=
  let c := c.raiseMask p m
  if isEnginePage p && m != 0 then
    ({ c with bus := { c.bus with forced := aput c.bus.forced p ((aget c.bus.forced p).getD 0 ||| m) } }).markDebugOf
      (fun ps => ps.contains p) false
  else c

/-- A unit has failed and is held in reset (R481). -/
def Chip.unitFailed (c : Chip) (u : EngUnit) : Bool := c.bit 0x005 0x060 (unitFailBit u)

/-- A unit starts commands: it is not in soft reset, the part does not run in LIMITED mode, which holds the
engines in reset (R443), its clock runs (R451, R457), and the vision engines run only under their ENABLE (R255, R275, R525). -/
def Chip.unitRuns (c : Chip) (u : EngUnit) : Bool :=
  !c.pwr.held && !c.tripped && (c.pstate == 0 || (c.pstate == 1 && u == .lxe)) &&
  match u with
  | .cho _ => !c.resetBusy 0x060
  | .pyr => c.enabled (pgVec 0) && !c.resetBusy (pgVec 0)
  | .wrp => c.enabled (pgVec 1) && !c.resetBusy (pgVec 1)
  | .ftr => c.enabled (pgVec 2) && !c.resetBusy (pgVec 2)
  | .flw => c.enabled (pgVec 3) && !c.resetBusy (pgVec 3)
  | .str => c.enabled (pgVec 4) && !c.resetBusy (pgVec 4)
  | .dmd => !c.resetBusy 0x026
  | .lxe => !c.resetBusy 0x0B4

/-! Queue registers (R188). -/

/-- QSTATE values. -/
def qStopped : Nat := 0
def qRunning : Nat := 1
def qWaiting : Nat := 2
def qError : Nat := 3
def qQuarantined : Nat := 4

/-- QSTATE. -/
def Chip.qstate (c : Chip) (q : Nat) : Nat := c.fld (pgQ q) 0x060 0 3

/-- QSTATE set. -/
def Chip.setQstate (c : Chip) (q s : Nat) : Chip := c.setFld (pgQ q) 0x060 0 3 s

/-- HEAD and TAIL (R166). -/
def Chip.qhead (c : Chip) (q : Nat) : Word := c.rd (pgQ q) 0x058
def Chip.qtail (c : Chip) (q : Nat) : Word := c.rd (pgQ q) 0x05C

/-- 2^QSIZE (R166). -/
def Chip.qslots (c : Chip) (q : Nat) : Nat := 2 ^ c.fld (pgQ q) 0x048 0 5

/-- QCTX. -/
def Chip.qctx (c : Chip) (q : Nat) : Nat := c.fld (pgQ q) 0x04C 0 4

/-- The command in progress on a queue. -/
def Chip.running (c : Chip) (q : Nat) : Option Running := aget c.queues.run q

/-- The command in progress replaced, or removed with the account of its writes and the RESPs that it awaited (R369). -/
def Chip.setRunning (c : Chip) (q : Nat) (r : Option Running) : Chip :=
  { c with
    queues := { c.queues with
      run := aset c.queues.run q r, flight := if r.isNone then adel c.queues.flight q else c.queues.flight }
    link := { c.link with xfers := if r.isNone then c.link.xfers.filter fun x => x.2.q != q else c.link.xfers } }

/-! The command words (R169, R170). -/

/-- A command word as a number. -/
def Running.w (r : Running) (i : Nat) : Nat := (r.cw.getD i 0).toNat

/-- OPCODE. -/
def Running.op (r : Running) : Nat := bits (r.w 0) 0 8

/-- PARAM. -/
def Running.param (r : Running) : Nat := bits (r.w 0) 32 32

/-- The handle of slot A–D (0–3). -/
def Running.handle (r : Running) (i : Nat) : Nat := bits (r.w 1) (16 * i) 16

/-- The XFORM word of a slot. -/
def Running.xform (r : Running) (i : Nat) : Nat := bits (r.w (2 + i / 2)) (32 * (i % 2)) 32

/-- The descriptor copied for a slot (R139). -/
def Running.desc (r : Running) (i : Nat) : Option Desc := (r.descs.getD i none).map Desc.ofWords

/-- How an opcode uses a slot: not at all, through a port, or through a port unless its handle is null. -/
inductive SlotUse
  | unused
  | used (p : PortUse)
  | optional (p : PortUse)
deriving DecidableEq, Repr

/-- What an opcode fixes of its command (R171, R172, R207, R241-R250, R263, R268, R289): the bits of PARAM it
defines, the bits of CW1–CW3 it gives a field of its own, and its slots. -/
structure OpForm where
  param : Nat
  own1 : Nat := 0
  own2 : Nat := 0
  own3 : Nat := 0
  slots : List SlotUse := [.unused, .unused, .unused, .unused]

/-- The form of an opcode; none where it is reserved (R171). Slots that depend on PARAM or on the queue's latched
configuration are given for it. -/
def opForm (op param : Nat) : Option OpForm :=
  let ld := SlotUse.used .load
  let st := SlotUse.used .store
  let bo := SlotUse.used .both
  let no := SlotUse.unused
  let all := 2 ^ 32 - 1
  match op with
  | 0x00 => some { param := 0 }
  | 0x01 => some { param := 0xFF, own1 := 2 ^ 64 - 1, own2 := all }
  | 0x02 => some { param := all }
  | 0x03 => some { param := 0 }
  | 0x10 => some { param := 0, slots := [ld, st, no, no] }
  | 0x11 => some { param := 0x7, slots := [ld, ld, st, no] }
  | 0x12 => some { param := 0x37, slots := [ld, ld, if bits param 4 2 = 0 then st else bo, no] }
  | 0x13 => some { param := 0, slots := [ld, ld, st, no] }
  | 0x14 => some { param := 0x30, slots := [ld, ld, if bits param 4 2 = 0 then st else bo, no] }
  | 0x18 => some { param := 0xFFFFFFF7, own1 := 0xFFFFF * 2 ^ 16, own2 := 0xFFFFF * 2 ^ 32, own3 := 2 ^ 60 - 1, slots := [ld, no, no, no] }
  | 0x40 => some { param := all, slots := [ld, ld, ld, if bits param 0 1 = 1 then bo else st] }
  | 0x41 => some { param := all, slots := [ld, ld, ld, if bits param 0 1 = 1 then bo else st] }
  | 0x42 => some { param := all, slots := [ld, ld, ld, st] }
  | 0x43 => some { param := all, slots := [ld, no, ld, st] }
  | 0x44 => some { param := all, slots := [ld, no, ld, st] }
  | 0x80 => some { param := 0x3, slots := [ld, st, if 1 ≤ bits param 0 2 then st else no, if 2 ≤ bits param 0 2 then st else no] }
  | 0x81 => some { param := 0, slots := [ld, ld, st, no] }
  | 0x90 => some { param := 0, slots := [ld, st, ld, no] }
  | 0x91 => some { param := 0x7, slots := [ld, st, ld, no] }
  | 0xA0 => some { param := 0xFFF1F, slots := [ld, st, if bits param 4 1 = 1 then ld else no, bo] }
  | 0xB0 => some { param := 0x77, slots := [ld, ld, .optional .load, st] }
  | 0xC0 => some { param := 0xFFFFFF7F, slots := [ld, ld, .optional .load, st] }
  | 0xD0 => some { param := 0x3, slots := [st, bo, .optional .both, bo] }
  | 0xD1 => some { param := 0xFFFF0707, slots := [st, no, ld, no] }
  | _ => none

/-! The sequencer of a port (R190, R209). -/

/-- An offset of a sequencer's block. -/
def seqOff (n k : Nat) : Nat := 0x080 + 0x40 * n + k

/-- PORT_MASK. -/
def Chip.seqPorts (c : Chip) (n : Nat) : Nat := c.fld 0x027 (seqOff n 0) 8 4

/-- STB_MASK. -/
def Chip.seqStrobes (c : Chip) (n : Nat) : Nat := c.fld 0x027 (seqOff n 0) 0 8

/-- SLIDING. -/
def Chip.seqSliding (c : Chip) (n : Nat) : Bool := c.bit 0x027 (seqOff n 0) 31

/-- The enabled sequencer that a port belongs to. -/
def Chip.seqOfPort (c : Chip) (p : Nat) : Option Nat :=
  if c.lis.on then (List.range 4).find? fun n => bits (c.seqPorts n) p 1 == 1 else none

/-- The form of a queue's opcode: DMD_PERIOD takes the history in sliding form and leaves slot C unused in block form (R207). -/
def Chip.opFormOn (c : Chip) (q op param : Nat) : Option OpForm :=
  (opForm op param).map fun f =>
    if op ≠ 0xD0 then f
    else match c.seqOfPort (q - 104) with
      | some n => { f with slots := [.used .store, .used .both, if c.seqSliding n then .used .both else .unused, .used .both] }
      | none => f

/-- The unit of a queue executes the opcode on it (R171). DMD_OFFLINE is served by Q_108 to Q_111 alone (R207); on another queue of the
demodulator it is a defined opcode not executed there (DESIGN CHOICE: log entry 89). -/
def unitExecutes (u : EngUnit) (q op : Nat) : Bool :=
  if op < 4 then true
  else match u with
    | .cho _ => (decide (0x10 ≤ op) && decide (op ≤ 0x14)) || (decide (0x40 ≤ op) && decide (op < 0x80))
    | .pyr => op / 16 == 0x8
    | .wrp => op / 16 == 0x9
    | .ftr => op / 16 == 0xA
    | .flw => op / 16 == 0xB
    | .str => op / 16 == 0xC
    | .dmd => op == 0xD0 || (op == 0xD1 && decide (108 ≤ q))
    | .lxe => (decide (0x10 ≤ op) && decide (op ≤ 0x14)) || op == 0x18

/-- Bits of a word outside a mask. -/
def outside (v mask : Nat) : Bool := v &&& mask != v

/-- A handle that names no operand in a context: 0, and slot 0 of the context itself (R128). -/
def nullHandle (ctx h : Nat) : Bool := h == 0 || h == 4096 * ctx

/-- A reserved bit of the words is set (R169, R170, R183, RESERVED_BITS). -/
def Running.reserved (r : Running) (ctx : Nat) (f : OpForm) : Bool :=
  let used := fun i => f.slots.getD i .unused != .unused
  let m1 := f.own1 ||| ((List.range 4).map fun i => if used i then 0xFFFF * 2 ^ (16 * i) else 0).foldl (· ||| ·) 0
  let m2 := f.own2 ||| ((List.range 2).map fun i => if used i then (2 ^ 32 - 1) * 2 ^ (32 * i) else 0).foldl (· ||| ·) 0
  let m3 := f.own3 ||| ((List.range 2).map fun i => if used (2 + i) then (2 ^ 32 - 1) * 2 ^ (32 * i) else 0).foldl (· ||| ·) 0
  bits (r.w 0) 10 6 != 0 || outside r.param f.param || outside (r.w 1) m1 || outside (r.w 2) m2 || outside (r.w 3) m3 ||
  (List.range 4).any fun i => match f.slots.getD i .unused with
    | .optional _ => nullHandle ctx (r.handle i) && r.xform i != 0
    | _ => false

/-- A PARAM field is out of range (R172, R183, R207, R241-R250, R263, R268, R289, R292). -/
def Running.paramBad (r : Running) (q : Nat) (ndimA : Option Nat) : Bool :=
  let p := r.param
  match r.op with
  | 0x02 => bits p 16 16 == 0
  | 0x11 => ndimA.any fun n => decide (n ≤ bits p 0 3)
  | 0x12 => ndimA.any fun n => decide (n ≤ bits p 0 3)
  | 0x18 => bits p 4 12 == 0
  | 0x40 => decide (4 ≤ p) || p == 1
  | 0x41 => decide (4 ≤ p) || p == 1
  | 0x42 => decide (5 ≤ p)
  | 0x43 => decide (2 ≤ p)
  | 0x44 => p != 0
  | 0x80 => bits p 0 2 == 3
  | 0x91 => bits p 0 3 == 7
  | 0xA0 =>
    decide (bits p 0 4 < 9) || decide (12 < bits p 0 4) || decide (bits p 12 4 < 4) || decide (8 < bits p 12 4) ||
    decide (bits p 16 4 < 4) || decide (8 < bits p 16 4)
  | 0xB0 => bits p 1 2 == 3 || decide (bits p 4 3 = 0 ∨ 4 < bits p 4 3)
  | 0xC0 => bits p 8 8 == 0 || decide (bits p 16 10 < bits p 8 8)
  | 0xD0 => bits p 0 2 != q - 104 || decide (108 ≤ q)
  | 0xD1 => decide (5 < bits p 0 3) || decide (4 < bits p 8 3)
  | _ => false

/-- MEMBERS of the chapter (R361, R378): the positions that a SIGNAL or PIECE_SEND may name. -/
def Chip.members (c : Chip) : Nat := c.fld 0x0B4 0x044 16 8

/-- A destination names a position not in the chapter (R183, POS_UNKNOWN). -/
def Running.posBad (r : Running) (members : Nat) : Bool :=
  match r.op with
  | 0x02 => outside (bits r.param 8 8) members
  | 0x18 => bits members (bits r.param 0 3) 1 == 0
  | _ => false

/-- What copying a slot's descriptor finds (R128, R129, R140, R141, R183): the words, or the code 0x06–0x09. -/
def Chip.copyDesc (c : Chip) (ctx h : Nat) : Except Nat DescSlot :=
  if h ≠ 0 ∧ h / 4096 ≠ ctx then .error 0x06
  else if h % 4096 = 0 then .error 0x07
  else match aget c.desc.slots h with
    | none => .error 0x07
    | some d => if d.poison then .error 0x08 else if c.descQuarantined h then .error 0x09 else .ok d

/-- The slots of a command that name a descriptor, with their ports. -/
def Running.operands (r : Running) (ctx : Nat) (f : OpForm) : List (Nat × PortUse) :=
  (List.range 4).filterMap fun i => match f.slots.getD i .unused with
    | .unused => none
    | .used p => some (i, p)
    | .optional p => if nullHandle ctx (r.handle i) then none else some (i, p)

/-- The start checks 0x01–0x0A (R183) for a command just fetched: the first failing code, or the descriptors
copied. A handle check fails with the least code over the slots. -/
def Chip.startCheck (c : Chip) (q : Nat) (r : Running) : Except Nat (List (Option (List DWord))) :=
  match c.opFormOn q r.op r.param with
  | none => .error 0x01
  | some f =>
    if !unitExecutes (unitOf q) q r.op then .error 0x02
    else if r.reserved (c.qctx q) f then .error 0x03
    else
      let ops := r.operands (c.qctx q) f
      let got := ops.map fun o => (o.1, c.copyDesc (c.qctx q) (r.handle o.1))
      let at? := fun i => match got.find? fun g => g.1 == i with
        | some (_, .ok d) => some d.qw
        | _ => none
      if r.paramBad q ((at? 0).map fun qw => (Desc.ofWords qw).ndim) then .error 0x04
      else if r.posBad c.members then .error 0x05
      else
        let codes := got.filterMap fun g => match g.2 with
          | .error e => some e
          | .ok _ => none
        if codes ≠ [] then .error (codes.foldl min 0xFF)
        else
          let lacks := ops.any fun o => match at? o.1 with
            | some qw =>
              let d := Desc.ofWords qw
              (o.2 != .store && !d.readable) || (o.2 != .load && !d.writable)
            | none => false
          if lacks then .error 0x0A else .ok ((List.range 4).map at?)

/-! Fetch (R166, R174). -/

/-- A queue of a unit has a command ready: RUNNING, not empty, none in progress. -/
def Chip.qready (c : Chip) (q : Nat) : Bool :=
  c.qstate q == qRunning && c.enabled (pgQ q) && c.qhead q != c.qtail q && (c.running q).isNone

/-- A started WAIT of a queue. -/
def Chip.waiting (c : Chip) (q : Nat) : Option Running :=
  (c.running q).filter fun r => r.op == 0x01 && r.executed && !r.finished

/-- A vision engine executes one command at a time (R235, R258): the queue whose command it runs. A queue blocked
in WAIT does not occupy it. -/
def Chip.vecActive (c : Chip) (u : EngUnit) : Option Nat :=
  (unitQueues u).find? fun q => (c.running q).isSome && (c.waiting q).isNone

/-- The unit takes another command only at a command boundary. -/
def unitSerial : EngUnit → Bool
  | .pyr | .wrp | .ftr | .flw | .str => true
  | .cho _ | .dmd | .lxe => false

/-- The queue a unit starts next (R174): the highest QPRIO, and round robin among equals. -/
def Chip.pickQueue (c : Chip) (u : EngUnit) : Option Nat :=
  let ready := if unitSerial u && (c.vecActive u).isSome then [] else (unitQueues u).filter c.qready
  let prio := fun q => c.fld (pgQ q) 0x04C 4 2
  let best := (ready.map prio).foldl max 0
  let top := ready.filter fun q => prio q == best
  let last := (aget c.queues.last (unitNum u)).getD 0
  match top.find? fun q => decide (last < q) with
  | some q => some q
  | none => top.head?

/-- One command in progress ended with a code: it waits for its retirement (R184). -/
def Chip.endRunning (c : Chip) (q code : Nat) : Chip :=
  match c.running q with
  | none => c
  | some r => (c.setRunning q none).setRunning q (some { r with status := code, finished := true, executed := true, awaiting := [] })

/-- The handles whose slots the start checks of a fetched command read: none where they end before the slots, at 0x06 or below
(DEDUCED: log entry 83). -/
def Chip.startReads (c : Chip) (q : Nat) (r : Running) : List Nat :=
  let reads := match c.startCheck q r with
    | .ok _ => true
    | .error e => decide (0x07 ≤ e)
  match c.opFormOn q r.op r.param with
  | some f => if reads then (r.operands (c.qctx q) f).map fun o => r.handle o.1 else []
  | none => []

/-- Correctable errors of the descriptor words read are counted (R140); a poisoned slot is not corrected. -/
def Chip.noteDescReads (c : Chip) (hs : List Nat) : Chip :=
  hs.foldl (fun c h => match aget c.desc.slots h with
    | some d => if d.poison then c else c.noteDescCe d
    | none => c) c

/-- Four free words: the content of a ring slot that was rewritten between HEAD and TAIL (R167). -/
def tornWords : WM (List Nat) := (List.range 4).mapM fun _ => do return Config.choice (← drawM) % 2 ^ 64

/-- COMMAND_FETCH on the queue chosen (R166, R174, R175): the slot is fetched with X, and the start checks are
made. A command whose fetch faulted, or whose CW0 is poisoned, has no NODE_ID and OPCODE: its record holds 0 there (DESIGN CHOICE: log
entry 84). -/
def fetchQueue (u : EngUnit) (q : Nat) : WM Unit := do
  chipM fun c => { c with queues := { c.queues with last := aput c.queues.last (unitNum u) q } }
  let c ← getChip
  let head := c.qhead q
  let va := c.rd64 (pgQ q) 0x040 + 32 * (head.toNat % c.qslots q)
  let r0 : Running := { count := head, cw := [], started := c.time.tb.toNat, debug := c.debugOn (pgQ q :: c.unitPages u) }
  match ← (readVaAs 0x2E (c.qctx q) (c.unitSrc u) 2 va 32).run with
  | .error e => chipM fun c => c.setRunning q (some { r0 with status := e, finished := true, executed := true })
  | .ok bs =>
    match (List.range 4).mapM fun i => leNat ((bs.drop (8 * i)).take 8) with
    | none => chipM fun c => c.setRunning q (some { r0 with
        cw := (leNat (bs.take 8)).toList.map (BitVec.ofNat 64), status := 0x2F, finished := true, executed := true })
    | some ws =>
      let torn := (q, head)
      let ws ← if c.queues.torn.contains torn then tornWords else pure ws
      chipM fun c => { c with queues := { c.queues with torn := c.queues.torn.filter fun t => t != torn } }
      let r := { r0 with cw := ws.map (BitVec.ofNat 64) }
      let c ← getChip
      if c.unitFailed u then chipM fun c => c.setRunning q (some { r with status := 0x2C, finished := true, executed := true })
      else match c.startCheck q r with
        | .error e => chipM fun c =>
            (c.noteDescReads (c.startReads q r)).setRunning q (some { r with status := e, finished := true, executed := true })
        | .ok ds =>
          if r.op < 4 ∧ c.noStall q then
            chipM fun c => c.setRunning q (some { r with status := 0x80, finished := true, executed := true })
          else chipM fun c => (c.noteDescReads (c.startReads q r)).setRunning q (some { r with descs := ds })

/-- COMMAND_FETCH: a unit fetches and checks its next command, where it runs and a queue is ready (R174). -/
def execCommandFetch (unit : EngUnit) (s : State) : Host.Outcome State Fault Refusal :=
  s.onMem do
    let c ← getChip
    if c.unitRuns unit ∨ c.unitFailed unit then
      match c.pickQueue unit with
      | some q => fetchQueue unit q
      | none => pure ()

/-! Executing a command (R175). -/

/-- A body runs, and its writes meet those of others in progress (R163). -/
def runBody (q : Nat) (body : Running → EM Stats) (r : Running) : EM Stats := do
  let x ← (liftM (body r).run : EM (Except Nat Stats))
  let c ← liftM getChip
  liftM (meetWrites q (c.unitSrc (unitOf q)))
  match x with
  | .ok st => return st
  | .error e => throw e

/-- The operand of a slot of a started command. -/
def Chip.opd (c : Chip) (q : Nat) (r : Running) (i : Nat) : Option Opd :=
  (r.desc i).map fun d => Opd.of d (r.xform i) (c.qctx q) (c.unitSrc (unitOf q))

/-- The operands that a started command stores to, with their slots. -/
def Chip.storeOpds (c : Chip) (q : Nat) (r : Running) : List (Nat × Opd) :=
  match c.opFormOn q r.op r.param with
  | some f => (r.operands (c.qctx q) f).filterMap fun o => if o.2 == .load then none else (c.opd q r o.1).map fun d => (o.1, d)
  | none => []

/-- A destination of a slot left undefined (R184). FTR_DETECT never writes elements 0–7 of its state (R252). -/
def havocDest (r : Running) (d : Nat × Opd) : WM Unit := havocOpd d.2 (if r.op = 0xA0 ∧ d.1 = 3 then 16 else 0)

/-- The destinations of a command that is ended from outside take undefined content, as partly written ones do (R184). FLW and
STR withhold theirs (R275). -/
def havocDests (q : Nat) (r : Running) : WM Unit := do
  if r.status = 0 ∧ (r.executed ∨ !(r.op == 0xB0 || r.op == 0xC0)) then
    for d in (← getChip).storeOpds q r do havocDest r d

/-- The device addresses of a range of a context, as far as it is mapped, in pieces of at most 64 KiB. -/
def mappedRanges (ctx : Nat) (f : Int × Int) (w : Work) : List (Nat × Nat) :=
  (granChunks 65536 (f.2 - f.1 + 1).toNat f.1.toNat (f.2 - f.1 + 1).toNat).filterMap fun (b, o, l) =>
    match (translate ctx 0 (b + o) w).1, (translate ctx 1 (b + o) w).1 with
    | .ok pa, _ => some (pa, l)
    | _, .ok pa => some (pa, l)
    | _, _ => none

/-- The device addresses that the commands in progress work on: the operands that they store to, and the others (R28). -/
def Work.opdRanges (w : Work) : List (Nat × Nat) × List (Nat × Nat) :=
  let c := w.chip
  let of := fun (q : Nat) (ds : List Desc) => ds.flatMap fun d => d.intervals.flatMap fun f => mappedRanges (c.qctx q) f w
  (c.queues.run.flatMap fun (q, r) => of q ((c.storeOpds q r).map fun o => o.2.d),
   c.queues.run.flatMap fun (q, r) => of q (((List.range 4).filter fun i => !(c.storeOpds q r).any fun o => o.1 == i).filterMap r.desc))

/-- A started command of an opcode runs: `body` answers a start-check code or the execution's result. The
destinations that `dests` names for an error of the execution (codes 0x20 to 0x7F) are left undefined by it
(R184). The engine chapters' own codes come from their start checks, before anything is written. -/
def execOp (q op : Nat) (body : Running → EM Stats) (dests : Running → Nat → List (Nat × Opd)) : WM Unit := do
  let c ← getChip
  match c.running q with
  | none => pure ()
  | some r =>
    if r.op ≠ op ∨ r.executed ∨ r.finished ∨ c.tripped then pure ()
    else
      let dbg := r.debug || c.debugOn (pgQ q :: c.unitPages (unitOf q))
      match ← (runBody q body r).run with
      | .ok st =>
        chipM fun c => c.setRunning q (some { r with
          executed := true, finished := true, sat := r.sat + st.sat, clamped := r.clamped + st.clamped,
          dropped := r.dropped + st.dropped, poison := r.poison || st.poison, flooded := r.flooded || st.flooded, debug := dbg })
      | .error e =>
        if 0x20 ≤ e ∧ e < 0x80 then
          for d in dests r e do havocDest r d
        chipM fun c => c.setRunning q (some { (c.running q).getD r with executed := true, finished := true, status := e, debug := dbg })

/-! Retirement and errors (R167, R173, R184). -/

/-- The bank locks that a queue's command holds are freed (R109, R156). Revoked ones stay with the Verger. -/
def Chip.freeLocks (c : Chip) (q : Nat) : Chip :=
  c.dropLocks ((c.vrg.locks.filter fun e => e.2.queue == q && (c.leaseAux (lockSel e.1)).state == 1).map Prod.fst)

/-- A number saturated to 32 bits (R173). -/
def sat32u (n : Nat) : Nat := min n (2 ^ 32 - 1)

/-- The completion record of a command (R173), written at its ring entry; a fault of this write is recorded by
the Rood and changes nothing else. -/
def writeRecord (q : Nat) (r : Running) : WM Unit := do
  let (t, c) ← modifyGet fun w => let x := w.useChip fun c => c.stamp 5; ((x.1, x.2.chip), x.2)
  let u := unitOf q
  let dbg := r.debug || c.debugOn (pgQ q :: c.unitPages u)
  let rec32 := leBytes 2 (bits (r.w 0) 16 16) ++ leBytes 1 r.op ++ leBytes 1 r.status ++
    leBytes 4 (pflags c.taint r.poison r.flooded dbg) ++ leBytes 4 (sat32u r.sat) ++ leBytes 4 (sat32u r.clamped) ++
    leBytes 4 (sat32u r.dropped) ++ leBytes 4 r.count.toNat ++ leBytes 8 t
  let va := c.rd64 (pgQ q) 0x050 + 32 * (r.count.toNat % c.qslots q)
  let _ ← (writeVa (c.qctx q) (c.unitSrc u) va (rec32.map some)).run

/-- The queue after a command boundary: stopped where its ENABLE is clear (R186) or a STOP retired (R188). -/
def Chip.boundary (c : Chip) (q : Nat) (stop : Bool) : Chip :=
  if stop ∨ !c.enabled (pgQ q) then (c.setQstate q qStopped).raise (pgQ q) 2 else c.setQstate q qRunning

/-- A successful retirement (R167): the record where REC asks for it, HEAD past the command, DONE where IRQ
asks for it. -/
def retireOk (q : Nat) (r : Running) : WM Unit := do
  if bits (r.w 0) 9 1 = 1 then writeRecord q r
  chipM fun c =>
    let c := (c.wr (pgQ q) 0x058 (r.count + 1)).count (pgQ q) 0x068
    let c := if bits (r.w 0) 8 1 = 1 then c.raise (pgQ q) 0 else c
    ((c.freeLocks q).setRunning q none).boundary q (r.op == 0x03)

/-- A command that ended in error (R184): the record, QERR and ERR, and the queue in ERROR with HEAD at the
command. -/
def retireErr (q : Nat) (r : Running) : WM Unit := do
  writeRecord q r
  chipM fun c =>
    let owner := if c.leaseState (pgQ q) = 1 then c.leaseOwner (pgQ q) else 0
    let c := (c.setFld (pgQ q) 0x060 8 8 r.status).count (pgQ q) 0x06C
    let c := (c.raise (pgQ q) 1).logErr (pgQ q) clsCmd r.status owner r.count
    ((c.freeLocks q).setRunning q none).setQstate q qError

/-- A SIGNAL acts on a counter of this chip (R177). -/
def Chip.signalsHere (c : Chip) (r : Running) : Bool :=
  r.op == 0x02 && (bits r.param 8 8 == 0 || bits (bits r.param 8 8) c.chPos 1 == 1)

/-- The retirement of a command that is ready for it, and the command as it retired. A SIGNAL takes its effect on this chip's counter
as it retires: one that is revoked before has issued none (R187). -/
def retireCommand (q : Nat) : WM (Option Running) := do
  let c ← getChip
  match c.running q with
  | none => return none
  | some r =>
    if r.finished ∧ r.awaiting = [] ∧ !c.tripped then
      let r ← if r.status = 0 ∧ c.signalsHere r then
          let past ← modifyGet fun w => w.useChip fun c => c.signal (bits r.param 0 8) (bits r.param 16 16)
          pure { r with status := if past then 0x27 else 0 }
        else pure r
      if r.status ≠ 0 then retireErr q r else retireOk q r
      return some r
    else return none

/-! The common opcodes without operands (R172, R178). -/

/-- NOP (R172): nothing but its retirement. -/
def execNop (q : Fin 128) (s : State) : Host.Outcome State Fault Refusal :=
  s.onMem (execOp q 0x00 (fun _ => return {}) fun _ _ => [])

/-- STOP (R172, R188): the queue stops when it retires. -/
def execStop (q : Fin 128) (s : State) : Host.Outcome State Fault Refusal :=
  s.onMem (execOp q 0x03 (fun _ => return {}) fun _ _ => [])

/-- The counter of a WAIT has reached its threshold (R178). -/
def Chip.waitMet (c : Chip) (r : Running) : Bool := decide (r.w 1 ≤ c.evt (bits r.param 0 8))

/-- WAIT (R178): the queue is WAITING unless the counter has reached the threshold already. -/
def Chip.waitStart (c : Chip) (q : Nat) : Chip :=
  match c.running q with
  | some r =>
    if r.op = 0x01 ∧ !r.executed ∧ !r.finished ∧ !c.tripped then
      let c := c.setRunning q (some { r with executed := true, started := c.time.tb.toNat })
      if c.waitMet r then c
      else (c.setQstate q qWaiting).setFld (pgQ q) 0x070 0 8 (bits r.param 0 8)
    else c
  | none => c

/-- WAIT. -/
def execWait (q : Fin 128) (s : State) : Host.Outcome State Fault Refusal := .next (s.onChip fun c => c.waitStart q)

/-- WAIT_TIMEOUT: a WAIT with a timeout that is not satisfied in time ends with WAIT_TIMEOUT (R178); a counter
that has reached the threshold wins (R187). Time moves to the timeout's moment on the timebase. -/
def Chip.waitTimeout (c : Chip) (q : Nat) : Chip :=
  match c.waiting q with
  | some r =>
    let us := bits (r.w 2) 0 32
    if us = 0 ∨ c.waitMet r then c
    else ((c.advanceTb (r.started + 1000 * us)).endRunning q 0x28).setQstate q qRunning
  | none => c

/-- WAIT_TIMEOUT. -/
def execWaitTimeout (q : Fin 128) (s : State) : Host.Outcome State Fault Refusal :=
  .next (s.onChip fun c => c.waitTimeout q)

/-! Queue control (R182, R184-R186, R188). -/

/-- A write to TAIL (R182): taken only in [old TAIL, HEAD + 2^QSIZE], counted from HEAD. -/
def Chip.tailWrite (c : Chip) (req : Requester) (q : Nat) (v : Word) : Chip :=
  let n := (v - c.qhead q).toNat
  if (c.qtail q - c.qhead q).toNat ≤ n ∧ n ≤ c.qslots q then c.wr (pgQ q) 0x05C v
  else c.logUse (pgQ q) 0x06 req (regAddr (pgQ q) 0x05C)

/-- QTAIL_WRITE (R168, R182). -/
def execQtailWrite (req : Requester) (q : Fin 128) (value : Word) (s : State) : Host.Outcome State Fault Refusal :=
  .next (s.onChip fun c => c.gated req (pgQ q) 0x05C fun c => c.tailWrite req q value)

/-- DOORBELL: an access to BAR4 (R188). A write at offset 8q is a HOST write of QTAIL; every other offset ignores writes and reads
0. What a read at a doorbell's own offset returns is open (DESIGN CHOICE: log entry 85). The reply is noted under 9. -/
def execDoorbell (offset : BitVec 16) (write : Option Word) (s : State) : Host.Outcome State Fault Refusal :=
  let q := offset.toNat / 8
  let bell := offset.toNat % 8 = 0 ∧ q < 128
  .next (s.onChip fun c => match write with
    | some v => if bell then c.gated .host (pgQ q) 0x05C fun c => c.tailWrite .host q v else c
    | none =>
      if bell then
        let (n, c) := c.draw
        c.reply 9 (.data (BitVec.ofNat 64 (Config.choice n % 2 ^ 32)))
      else c.reply 9 (.data 0))

/-- A write to QCMD (R184, R187): SKIP passes the failing command, DRAIN discards every pending one. -/
def Chip.qcmd (c : Chip) (req : Requester) (q : Nat) (skip drain : Bool) : Chip :=
  if !skip && !drain then c
  else if (skip && drain) || c.qstate q ≠ qError then c.logUse (pgQ q) 0x07 req (regAddr (pgQ q) 0x064)
  else
    let c := c.wr (pgQ q) 0x058 (if skip then c.qhead q + 1 else c.qtail q)
    c.setQstate q (if c.enabled (pgQ q) then qRunning else qStopped)

/-- SKIP (R184). -/
def execSkip (req : Requester) (q : Fin 128) (s : State) : Host.Outcome State Fault Refusal :=
  .next (s.onChip fun c => c.gated req (pgQ q) 0x064 fun c => c.qcmd req q true false)

/-- DRAIN (R184). -/
def execDrain (req : Requester) (q : Fin 128) (s : State) : Host.Outcome State Fault Refusal :=
  .next (s.onChip fun c => c.gated req (pgQ q) 0x064 fun c => c.qcmd req q false true)

/-- CTRL.ENABLE of a queue page written (R186, R525): 1 runs a stopped queue; 0 stops it at its next command
boundary, which is at once where no command is in progress, and abandons a WAIT with HEAD on it. -/
def Chip.queueEnableTo (c : Chip) (q : Nat) (on : Bool) : Chip :=
  let was := c.enabled (pgQ q)
  let c := c.setBit (pgQ q) 0x00C 0 on
  if on then (if c.qstate q = qStopped then c.setQstate q qRunning else c)
  else if !was then c
  else if c.qstate q = qRunning ∧ (c.running q).isNone then (c.setQstate q qStopped).raise (pgQ q) 2
  else if (c.running q).any fun r => r.op == 0x01 && !r.finished then ((c.setRunning q none).setQstate q qStopped).raise (pgQ q) 2
  else c

/-- QUEUE_ENABLE (R525). -/
def execQueueEnable (req : Requester) (q : Fin 128) (s : State) : Host.Outcome State Fault Refusal :=
  .next (s.onChip fun c => c.gated req (pgQ q) 0x00C fun c => c.queueEnableTo q true)

/-- QUEUE_DISABLE (R186). -/
def execQueueDisable (req : Requester) (q : Fin 128) (s : State) : Host.Outcome State Fault Refusal :=
  .next (s.onChip fun c => c.gated req (pgQ q) 0x00C fun c => c.queueEnableTo q false)

/-- EVT_SIG: a local SIGNAL from the holder of page 0x011 (R179, R189); an INC of 0 is ignored. -/
def execEvtSig (req : Requester) (inc : BitVec 16) (evt : BitVec 8) (s : State) : Host.Outcome State Fault Refusal :=
  .next (s.onChip fun c => c.gated req 0x011 0x840 fun c => if inc = 0 then c else c.signal' evt.toNat inc.toNat)

/-- A queue's tiled Choir command abandoned with its running tiles. -/
def Chip.choDrop (c : Chip) (q : Nat) : Chip :=
  { c with cho := { c.cho with
      cmds := c.cho.cmds.filter fun k => k.q != q, tiles := c.cho.tiles.filter fun t => t.2.q != q } }

/-- The running command of a queue ends with a code at once: its record and its error are written as for any
command that ends in error (R184, R185). -/
def abortRunning (q code : Nat) : WM Unit := do
  match (← getChip).running q with
  | none => pure ()
  | some r =>
    chipM fun c => c.choDrop q
    havocDests q r
    if r.op = 0xA0 ∧ r.executed then
      chipM fun c => { c with prc := { c.prc with rewrites := c.prc.rewrites ++ [r.handle 3] } }
    retireErr q { r with status := code, finished := true, awaiting := [] }

/-- The running commands of queues that a test picks end ABORTED. -/
def abortQueues (qs : List Nat) (pick : Running → Bool) : WM Unit := do
  for q in qs do
    if ((← getChip).running q).any pick then abortRunning q 0x2D

/-- The command that a vision engine runs ends ABORTED, by the page of the engine (R255, R275). -/
def abortEngine (p : Nat) : WM Unit :=
  let u : EngUnit := if p = 0x030 then .pyr else if p = 0x031 then .wrp else if p = 0x032 then .ftr else if p = 0x033 then .flw else .str
  abortQueues (unitQueues u) fun r => !(r.op == 0x01 && r.executed && !r.finished)

/-- The running command of a queue is to end with a code as its unit fails or its lock is revoked: it waits for its retirement. -/
def failRunning (q code : Nat) : WM Unit := do
  match (← getChip).running q with
  | none => pure ()
  | some r =>
    havocDests q r
    chipM fun c => (c.choDrop q).endRunning q code

/-- The quarantine action of a queue page (R185, R474): the running command ends ABORTED, the pending ones are
discarded, and the queue is QUARANTINED. -/
def queueQuarantine (q : Nat) : WM Unit := do
  abortRunning q 0x2D
  chipM fun c => (c.wr (pgQ q) 0x058 (c.qtail q)).setQstate q qQuarantined

/-- SOFT_RESET of a queue page (R70, R185): as a quarantine's drain, with HEAD and TAIL 0. -/
def queueSoftReset (q : Nat) : WM Unit := do
  abortRunning q 0x2D
  chipM fun c =>
    ((c.wr (pgQ q) 0x058 0).wr (pgQ q) 0x05C 0).setQstate q (if c.enabled (pgQ q) then qRunning else qStopped)

end Sys2Proof.Machine
end

