-- ==== Sys2Proof/Machine/Dma.lean ====
section
/-! DEFINITION. The DMA engine (chapter 14): descriptors and their checks (R331, R332, R336), bursts (R328, R335,
R337, R338, R342), descriptor boundaries (R333, R334, R339), and the engine halt (R340, R341). -/

namespace Sys2Proof.Machine

/-! Descriptors (R331, R332, R347, R348). -/

/-- A descriptor: addresses, element size in bytes, loop counts, steps in bytes, and for a plain channel COUNT. -/
structure DmaDesc where
  src : Nat
  dst : Nat
  esize : Nat
  ctx : Nat
  circular : Bool
  count : Option Nat
  ns : List Nat
  ss : List Int
  ds : List Int
deriving DecidableEq, Repr

/-- A channel is patterned (R327). -/
def dmaPatterned (ch : Nat) : Bool := decide (8 ≤ ch)

/-- The descriptor of a channel's active set, or of its shadow set (`base` 0x080). A plain channel is one loop over
its elements, with steps of ESIZE, or of 0 where the address is fixed. -/
def Chip.dmaDesc (c : Chip) (ch base : Nat) : DmaDesc :=
  let p := pgDma ch
  let cfg := (c.rd p (if dmaPatterned ch then base + 0x058 else 0x054)).toNat
  let es := 2 ^ bits cfg 4 2
  let step := fun k => (c.rd p (base + 0x05C + 4 * k)).toInt
  let d : DmaDesc := {
    src := c.rd64 p (base + 0x040), dst := c.rd64 p (base + 0x048), esize := es, ctx := bits cfg 0 4,
    circular := bits cfg 7 1 == 1, count := none, ns := [], ss := [], ds := [] }
  if dmaPatterned ch then
    { d with ns := [c.fld p (base + 0x050) 0 16 + 1, c.fld p (base + 0x054) 0 16 + 1, c.fld p (base + 0x054) 16 16 + 1],
             ss := [step 0, step 1, step 2], ds := [step 3, step 4, step 5] }
  else
    let n := (c.rd p 0x050).toNat
    { d with count := some n, ns := [n / es], ss := [if bits cfg 8 1 = 1 then 0 else (es : Int)], ds := [if bits cfg 9 1 = 1 then 0 else (es : Int)] }

/-- The elements of a pass, and its bytes T. -/
def DmaDesc.elems (d : DmaDesc) : Nat := d.ns.foldl (· * ·) 1
def DmaDesc.total (d : DmaDesc) : Nat := d.count.getD (d.elems * d.esize)

/-- The address of element k from a base and steps (R332). -/
def DmaDesc.addr (d : DmaDesc) (base : Nat) (steps : List Int) (k : Nat) : Nat :=
  let go := (d.ns.zip steps).foldl (fun (a : Int × Nat) (n, s) => (a.1 + s * (a.2 % n : Nat), a.2 / n)) ((base : Int), k)
  go.1.toNat

/-- The footprint [lo, hi] of one side (R336). -/
def DmaDesc.side (d : DmaDesc) (base : Nat) (steps : List Int) : Int × Int :=
  let r := (d.ns.zip steps).foldl (fun (a : Int × Int) (n, s) =>
    let x := s * ((n : Int) - 1)
    (a.1 + min 0 x, a.2 + max 0 x)) (0, 0)
  (base + r.1, base + r.2 + d.esize - 1)

/-- The first field that is not a multiple of ESIZE (R336). -/
def DmaDesc.misField (d : DmaDesc) : Option Nat :=
  let at0 : List Int := [(d.src : Int), (d.dst : Int), ((d.count.getD 0 : Nat) : Int)]
  (at0 ++ (if d.count.isNone then d.ss ++ d.ds else [])).findIdx? fun v => v % (d.esize : Int) != 0

/-- The first failing start check after HALTED (R336). -/
def Chip.dmaCheck (c : Chip) (d : DmaDesc) : Nat :=
  let s := d.side d.src d.ss
  let t := d.side d.dst d.ds
  if !c.ctxEnabled d.ctx then 0x02
  else if d.count = some 0 ∨ 2 ^ 32 - 1 < d.total then 0x03
  else if d.misField.isSome then 0x04
  else if s.1 < 0 ∨ t.1 < 0 ∨ 2 ^ 39 ≤ s.2 ∨ 2 ^ 39 ≤ t.2 then 0x05
  else if s.1 ≤ t.2 ∧ t.1 ≤ s.2 then 0x06
  else 0x00

/-! Channel state (R349). -/

def dmaIdle : Nat := 0
def dmaRunning : Nat := 1
def dmaStopping : Nat := 2
def dmaHalted : Nat := 3
def dmaError : Nat := 4
def dmaQuarantined : Nat := 5

/-- CH_STATE. -/
def Chip.dmaState (c : Chip) (ch : Nat) : Nat := c.fld (pgDma ch) 0x110 0 3

/-- CH_STATE set, with the channel's bit of RUNNING (R346). -/
def Chip.setDmaState (c : Chip) (ch s : Nat) : Chip :=
  (c.setFld (pgDma ch) 0x110 0 3 s).setBit 0x090 0x054 ch (s != dmaIdle)

/-- The channel runs a pass. -/
def Chip.dmaActive (c : Chip) (ch : Nat) : Bool := c.dmaState ch == dmaRunning || c.dmaState ch == dmaStopping

/-- The engine is halted (R340). -/
def Chip.dmaHalt (c : Chip) : Bool := c.bit 0x090 0x010 8

/-- START and STOP cleared. -/
def Chip.dmaClear (c : Chip) (ch : Nat) : Chip := c.setFld (pgDma ch) 0x100 0 2 0

/-- A failed start check: its code in CH_ERR and the error log, and START cleared (R336). -/
def Chip.dmaFail (c : Chip) (ch code state mis : Nat) : Chip :=
  let p := pgDma ch
  let c := (c.setBit p 0x100 0 false).setFld p 0x110 8 8 code
  let c := if code = 0x04 then c.setFld p 0x110 20 4 mis else c
  ((c.raise p 3).logErr p clsUse 0x05 0 (word code)).setDmaState ch state

/-- A pass begins (R335). -/
def Chip.dmaBegin (c : Chip) (ch : Nat) : Chip :=
  ((c.wr (pgDma ch) 0x104 0).setFld (pgDma ch) 0x110 8 8 0).setDmaState ch dmaRunning

/-- A soft reset of a channel page at a boundary (R339). -/
def Chip.dmaChanReset (c : Chip) (ch : Nat) : Chip :=
  (((c.setFld (pgDma ch) 0x100 0 3 0).wr (pgDma ch) 0x104 0).setFld (pgDma ch) 0x110 8 8 0).setDmaState ch dmaIdle

/-- A soft reset of a channel page that has waited for the channel takes effect (R339). -/
def Chip.dmaLateReset (c : Chip) (ch : Nat) : Chip :=
  ((c.dmaChanReset ch).setBit (pgDma ch) 0x010 0 false).setBit (pgDma ch) 0x00C 1 false

/-- The channel reaches IDLE: a soft reset that waits takes effect, and STOP clears with STOPPED (R339). -/
def Chip.dmaToIdle (c : Chip) (ch : Nat) : Chip :=
  if c.resetBusy (pgDma ch) then c.dmaLateReset ch
  else
    let c' := (c.dmaClear ch).setDmaState ch dmaIdle
    if c.bit (pgDma ch) 0x100 1 then c'.raise (pgDma ch) 2 else c'

/-- START (R336, R345): refused while the engine is halted, with the channel left IDLE; without effect on a channel that runs. -/
def Chip.dmaStart (c : Chip) (req : Requester) (ch : Nat) : Chip :=
  let p := pgDma ch
  if c.dmaHalt then ((c.dmaFail ch 0x01 dmaIdle 0).dmaToIdle ch).logUse p 0x0B req (regAddr p 0x100)
  else if c.bit p 0x100 0 then c
  else
    let d := c.dmaDesc ch 0
    let code := c.dmaCheck d
    if code ≠ 0 then c.dmaFail ch code dmaIdle (d.misField.getD 0) else (c.setBit p 0x100 0 true).dmaBegin ch

/-- STOP (R339): a request to a channel that runs. -/
def Chip.dmaStop (c : Chip) (ch : Nat) : Chip :=
  if c.dmaActive ch then (c.setBit (pgDma ch) 0x100 1 true).setDmaState ch dmaStopping else c

/-- SHADOW_ARM (R333). -/
def Chip.shadowArm (c : Chip) (ch : Nat) : Chip := if dmaPatterned ch then c.setBit (pgDma ch) 0x100 2 true else c

/-- A write to the command register: the bits written 1. -/
def Chip.dmaCmd (c : Chip) (req : Requester) (ch v : Nat) : Chip :=
  let c := if bits v 2 1 = 1 then c.shadowArm ch else c
  let c := if bits v 0 1 = 1 then c.dmaStart req ch else c
  if bits v 1 1 = 1 then c.dmaStop ch else c

/-- DMA_START. -/
def execDmaStart (req : Requester) (ch : Fin 16) (s : State) : Host.Outcome State Fault Refusal :=
  .next (s.onChip fun c => c.gated req (pgDma ch) 0x100 fun c => c.dmaStart req ch)

/-- DMA_STOP. -/
def execDmaStop (req : Requester) (ch : Fin 16) (s : State) : Host.Outcome State Fault Refusal :=
  .next (s.onChip fun c => c.gated req (pgDma ch) 0x100 fun c => c.dmaStop ch)

/-- SHADOW_ARM. -/
def execShadowArm (req : Requester) (ch : Fin 16) (s : State) : Host.Outcome State Fault Refusal :=
  .next (s.onChip fun c => c.gated req (pgDma ch) 0x100 fun c => c.shadowArm ch)

/-! The halt (R340, R341). -/

/-- A channel that runs as the engine halts: a soft reset that waits for it takes effect, since it runs no more (R339, R340). -/
def Chip.dmaHaltOne (c : Chip) (ch : Nat) : Chip :=
  if !c.dmaActive ch then c else if c.resetBusy (pgDma ch) then c.dmaLateReset ch else c.setDmaState ch dmaHalted

/-- The context of an access of a channel: that of the shadow set where the prefetcher reads for it alone (R338, R340). -/
def Chip.dmaErrCtx (c : Chip) (ch va : Nat) (prefetch : Bool) : Nat :=
  let within := fun (d : DmaDesc) => decide ((d.side d.src d.ss).1 ≤ va) && decide ((va : Int) ≤ (d.side d.src d.ss).2)
  let d := c.dmaDesc ch 0
  let sh := c.dmaDesc ch 0x080
  if prefetch && dmaPatterned ch && c.bit (pgDma ch) 0x100 2 && !within d && within sh then sh.ctx else d.ctx

/-- A bus error of a channel: the first halts the engine, later ones are counted. -/
def Chip.dmaBusErr (c : Chip) (ch va ctx : Nat) (write prefetch : Bool) (cause code : Nat) : Chip :=
  if c.dmaHalt then c.count 0x090 0x04C
  else
    let c := (c.setBit 0x090 0x010 8 true).count 0x090 0x050
    let c := c.wr64 0x090 0x040 (va % 2 ^ 39)
    let c := c.wr 0x090 0x048 (word (prefetch.toNat * 2 ^ 31 + write.toNat * 2 ^ 30 + ch * 2 ^ 20 + ctx * 2 ^ 16 + code * 2 ^ 8 + cause))
    let c := (c.raise 0x090 0).logErr 0x090 clsAccess 0x23 0 0
    (List.range 16).foldl Chip.dmaHaltOne c

/-- DMA_BUS_ERROR: the fabric reports a bus error on an access of a channel, one of the prefetcher's among them. A
Rood fault is recorded in its FIFO (R341). A write is never the prefetcher's (R340). -/
def execDmaBusError (ch : Fin 16) (va : BitVec 39) (write prefetch : Bool) (cause : BusErr) (s : State) :
    Host.Outcome State Fault Refusal :=
  .next (s.onChip fun c =>
    let prefetch := prefetch && !write
    let ctx := c.dmaErrCtx ch va.toNat prefetch
    match cause with
    | .rood code => (c.roodFault ctx (if write then 1 else 0) va.toNat code.toNat (0x40 + ch)).dmaBusErr ch va.toNat ctx write prefetch 1 code.toNat
    | .hostCpl => c.dmaBusErr ch va.toNat ctx write prefetch 2 0
    | .poisonRefused => c.dmaBusErr ch va.toNat ctx write prefetch 3 0)

/-! Bursts (R330, R335, R337, R342). -/

/-- The blocks that a channel that runs needs within the 4 KiB ahead of its position (R338). -/
def Chip.dmaWindow (c : Chip) (ch : Nat) : List Nat :=
  if !c.dmaActive ch then []
  else
    let d := c.dmaDesc ch 0
    let k := (c.rd (pgDma ch) 0x104).toNat / d.esize
    ((List.range (min (4096 / d.esize) (d.elems - k))).map fun i => d.ctx * 2 ^ 31 + d.addr d.src d.ss (k + i) / 256).eraseDups

/-- The prefetcher asked for the blocks ahead of a channel: those that no other channel has asked for are the channel's, and those
that no channel needs any more are dropped. -/
def Chip.dmaPrefetch (c : Chip) (ch : Nat) : Chip :=
  let need := (List.range 16).flatMap c.dmaWindow
  let kept := c.dma.blocks.filter fun b => need.contains b.1
  let new := (c.dmaWindow ch).filter fun b => !kept.any fun x => x.1 == b
  { c with dma := { c.dma with blocks := new.foldl (fun l b => aput l b ch) kept } }

/-- The channel under whose source ID a byte of a context is read (R338). -/
def Chip.dmaReader (c : Chip) (ch ctx va : Nat) : Nat := (aget c.dma.blocks (ctx * 2 ^ 31 + va / 256)).getD ch

/-- One side of a burst translated: the physical address, or the halt. -/
def dmaTranslate (ch ctx : Nat) (write : Bool) (va : Nat) : WM (Option Nat) := do
  match ← translate ctx (if write then 1 else 0) va with
  | .ok pa => return some pa
  | .error e =>
    chipM fun c => (c.roodFault ctx (if write then 1 else 0) va e (0x40 + ch)).dmaBusErr ch va ctx write (!write) 1 e
    return none

/-- The elements of the next burst: at most 256 bytes, none past a 4 KiB boundary of either side. -/
def DmaDesc.burst (d : DmaDesc) (k : Nat) : List Nat :=
  let page := fun a => a / 4096
  let s := page (d.addr d.src d.ss k)
  let t := page (d.addr d.dst d.ds k)
  ((List.range (min (256 / d.esize) (d.elems - k))).map (k + ·)).takeWhile fun i =>
    page (d.addr d.src d.ss i) == s && page (d.addr d.dst d.ds i) == t

/-- The bytes at the physical addresses of a burst's source; none where the completion was an error. -/
def dmaRead (ch pa n : Nat) : WM (Option (List (Option Byte))) := do
  if target pa = .host then
    let (bs, bad) ← hostRead pa n
    return if bad then none else some bs
  else return some (← readPhys (0x40 + ch) pa n)

/-- Consecutive runs of bytes by address. -/
def byteRuns : List (Nat × Option Byte) → List (Nat × List (Option Byte))
  | [] => []
  | (a, b) :: l => match byteRuns l with
    | (x, bs) :: r => if x = a + 1 then (a, b :: bs) :: r else (a, [b]) :: (x, bs) :: r
    | [] => [(a, [b])]

/-- Progress after a burst (R335): DONE_BYTES, HALF where it first reaches half of the pass, and DONE with PASSES
at its end. -/
def Chip.dmaProgress (c : Chip) (ch : Nat) (d : DmaDesc) (done : Nat) : Chip :=
  let p := pgDma ch
  let half := ((d.total + 1) / 2 + d.esize - 1) / d.esize * d.esize
  let was := (c.rd p 0x104).toNat
  let c := c.wr p 0x104 (word done)
  let c := if was < half ∧ half ≤ done then c.raise p 1 else c
  if done = d.total then (c.raise p 0).count p 0x108 else c

/-- A burst meets the commands in progress (R28): what it wrote is undefined where it lies in an operand of one, and all of it where
the burst read what one stores to. -/
def dmaMeets (ch : Nat) (reads writes : List (Nat × Nat)) : WM Unit := do
  modify fun w => { w with wrote := writes }
  meetWrites (256 + ch) (0x40 + ch)
  let (stored, loaded) := (← get).opdRanges
  let spoilt := if (meetRanges reads stored).isEmpty then meetRanges writes (stored ++ loaded) else writes
  for r in spoilt do havocPhys (0x40 + ch) r.1 r.2

/-- The elements of a burst read and written. An element counts as done where its write, and those of the elements before it, were
taken (R335); each read or write that fails is a bus error of its own (R340, R341). -/
def dmaMove (ch : Nat) (d : DmaDesc) (ks : List Nat) (spa dpa sva dva : Nat) : WM Unit := do
  let reader := (← getChip).dmaReader ch d.ctx
  let at? := fun k => dpa + d.addr d.dst d.ds k - dva
  let reads ← (ks.map (d.addr d.src d.ss)).eraseDups.mapM fun va => do return (va, ← dmaRead (reader va) (spa + va - sva) d.esize)
  let lost := reads.filter fun r => r.2.isNone
  if lost ≠ [] then chipM fun c => lost.foldl (fun (c : Chip) r => c.dmaBusErr (reader r.1) r.1 d.ctx false true 2 0) c
  else
    let got := fun va => ((reads.find? fun r => r.1 == va).bind Prod.snd).getD []
    let gran := (← getChip).granSize spa
    let bad := ((reads.filter fun r => (r.2.getD []).any Option.isNone).map fun r => (spa + r.1 - sva) / gran).eraseDups.length
    chipM fun c => if bad = 0 then c else (c.count (pgDma ch) 0x10C bad).raise (pgDma ch) 4
    let bytes := ks.foldl (fun l k => (got (d.addr d.src d.ss k)).zipIdx.foldl (fun l (b, i) => aput l (at? k + i) b) l) []
    let runs := byteRuns bytes
    let oks ← runs.mapM fun (a, bs) => do return (a, bs.length, ← writePhys (0x40 + ch) a bs)
    let taken := (oks.filter fun r => r.2.2).map fun r => (r.1, r.2.1)
    let refused := (oks.filter fun r => !r.2.2).map fun r => (r.1, r.2.1)
    chipM fun c => refused.foldl (fun (c : Chip) r => c.dmaBusErr ch (dva + r.1 - dpa) d.ctx true false 3 0) c
    dmaMeets ch (reads.map fun r => (spa + r.1 - sva, d.esize)) taken
    let good := (ks.takeWhile fun k => (meetRanges refused [(at? k, d.esize)]).isEmpty).length
    chipM fun c => c.dmaProgress ch d ((c.rd (pgDma ch) 0x104).toNat + good * d.esize)

/-- A burst of a channel that runs. -/
def dmaBurst (ch : Nat) : WM Unit := do
  let c ← getChip
  let d := c.dmaDesc ch 0
  let done := (c.rd (pgDma ch) 0x104).toNat
  if c.dmaActive ch && decide (done < d.total) && !c.tripped && c.pstate != 2 then
    let k := done / d.esize
    let sva := d.addr d.src d.ss k
    let dva := d.addr d.dst d.ds k
    chipM fun c => c.dmaPrefetch ch
    match ← dmaTranslate ((← getChip).dmaReader ch d.ctx sva) d.ctx false sva with
    | none => pure ()
    | some spa => match ← dmaTranslate ch d.ctx true dva with
      | none => pure ()
      | some dpa => dmaMove ch d (d.burst k) spa dpa sva dva

/-- DMA_BURST: a running channel moves its next burst (R330). -/
def execDmaBurst (ch : Fin 16) (s : State) : Host.Outcome State Fault Refusal := s.onMem (dmaBurst ch)

/-! Boundaries (R333, R334, R339). -/

/-- The shadow set copied into the active set. -/
def Chip.shadowLoad (c : Chip) (ch : Nat) : Chip :=
  ((List.range 13).foldl (fun (c : Chip) k => c.wr (pgDma ch) (0x040 + 4 * k) (c.rd (pgDma ch) (0x0C0 + 4 * k))) c).setBit (pgDma ch) 0x100 2 false

/-- The end of a pass (R333): soft reset, STOP, shadow load, repeat or stop. -/
def Chip.passEnd (c : Chip) (ch : Nat) : Chip :=
  let p := pgDma ch
  let d := c.dmaDesc ch 0
  if !c.dmaActive ch || (c.rd p 0x104).toNat != d.total then c
  else if c.resetBusy p ∨ c.bit p 0x100 1 then c.dmaToIdle ch
  else if c.bit p 0x100 2 then
    let sh := c.dmaDesc ch 0x080
    let code := c.dmaCheck sh
    if code ≠ 0 then c.dmaFail ch code dmaError (sh.misField.getD 0) else (c.shadowLoad ch).dmaBegin ch
  else if d.circular then c.dmaBegin ch
  else c.dmaToIdle ch

/-- PASS_END. -/
def execPassEnd (ch : Fin 16) (s : State) : Host.Outcome State Fault Refusal := .next (s.onChip fun c => c.passEnd ch)

/-! Resets and quarantine (R339, R343-R345). -/

/-- SOFT_RESET of page 0x090: every channel IDLE, with CH_ERR 0 and DONE_BYTES kept, and HALTED cleared. -/
def Chip.dmaEngineReset (c : Chip) : Chip :=
  (List.range 16).foldl (fun (c : Chip) k => (c.dmaToIdle k).setFld (pgDma k) 0x110 8 8 0) (c.setBit 0x090 0x010 8 false)

/-- Revocation of a channel page's lease (R344). -/
def Chip.dmaQuarantine (c : Chip) (ch : Nat) : Chip := c.setDmaState ch dmaQuarantined

/-- The end of a channel's quarantine (R344). -/
def Chip.dmaQuarEnd (c : Chip) (ch : Nat) : Chip := c.dmaToIdle ch

end Sys2Proof.Machine
end

