-- ==== Sys2Proof/Machine/Peripheral.lean ====
section
/-! DEFINITION. The timebase and PPS (R419-R421), GPIO (R418), the UARTs (R413-R415), I2C (R416, R417), and the parts of the
PCI Express endpoint that need no lease (R406, R410, R424). -/

namespace Sys2Proof.Machine

/-! Timebase (R419-R421). -/

/-- TB_SET_HI written: the timebase steps at the next tick (R420). -/
def Chip.tbSet (c : Chip) (req : Requester) (hi : Word) : Chip :=
  let c := c.pairHiWrite req 0x0D0 0x048 hi
  { c with time := { c.time with tbStep := some (BitVec.ofNat 64 (c.rd64 0x0D0 0x048)) } }

/-- TB_SET. -/
def execTbSet (req : Requester) (hi : Word) (s : State) : Host.Outcome State Fault Refusal :=
  .next (s.onChip fun c => c.gated req 0x0D0 0x04C fun c => c.tbSet req hi)

/-- RATE_ADJ stored within its limit (R419). -/
def Chip.setRate (c : Chip) (r : Int) : Chip := c.wr 0x0D0 0x050 (BitVec.ofInt 32 (satTo (-858993) 858993 r).1)

/-- The PPS error of a captured value (R421). -/
def ppsError (cap : Nat) : Int := ((cap + 500000000) % 1000000000 : Nat) - 500000000

/-- PPS_LOCK after an accepted edge: three in a row within 1 µs (R421). -/
def Chip.ppsLock (c : Chip) (e : Int) : Chip :=
  let n := if e.natAbs < 1000 then min 3 (c.time.ppsGood + 1) else 0
  let c := { c with time := { c.time with ppsGood := n } }
  if n = 0 then c.setBit 0x0D0 0x05C 0 false else if n = 3 then c.setBit 0x0D0 0x05C 0 true else c

/-- The correction of an accepted edge under PPS_AUTO (R421). -/
def Chip.ppsCorrect (c : Chip) (e : Int) : Chip :=
  if e.natAbs < 1000000 then
    (c.wr 0x0D0 0x054 (BitVec.ofInt 32 (-e))).setRate ((c.rd 0x0D0 0x050).toInt - (e * 4398 + 2048) / 4096)
  else c.stepBy (-e)

/-- An active PPS edge (R421): early ones are counted, others are captured. -/
def Chip.ppsEdge (c : Chip) : Chip :=
  if !c.bit 0x0D0 0x058 0 then c
  else if c.time.ppsLast.any fun t => decide (c.time.now < t + 900000000) then c.count 0x0D0 0x0A4
  else
    let (cap, c) := c.stamp 5
    let e := ppsError cap
    let c := (c.wr64 0x0D0 0x060 cap).wr 0x0D0 0x068 (BitVec.ofInt 32 e)
    let c := { c with time := { c.time with ppsLast := some c.time.now, ppsMiss := 0 } }
    let c := ((c.raise 0x0D0 1).setBit 0x0D0 0x05C 1 false).ppsLock e
    if c.bit 0x0D0 0x058 5 && (!c.bit 0x0B4 0x040 0 || c.bit 0x0B4 0x040 1) then c.ppsCorrect e else c

/-- PPS_EDGE. -/
def execPpsEdge (s : State) : Host.Outcome State Fault Refusal := .next (s.onChip Chip.ppsEdge)

/-- PPS_LOST: 1.1 s after the previous edge, and each further second, an expected edge is missing (R421). -/
def Chip.ppsLost (c : Chip) : Chip :=
  match c.time.ppsLast with
  | some t =>
    if !c.bit 0x0D0 0x058 0 then c
    else
      let c := c.advance (t + 1100000000 + 1000000000 * c.time.ppsMiss)
      let c := { c with time := { c.time with ppsMiss := c.time.ppsMiss + 1, ppsGood := 0 } }
      (((c.setFld 0x0D0 0x05C 0 2 2).count 0x0D0 0x0A8).raise 0x0D0 2)
  | none => c

/-- PPS_LOST. -/
def execPpsLost (s : State) : Host.Outcome State Fault Refusal := .next (s.onChip Chip.ppsLost)

/-! GPIO (R418, R427, R430). -/

/-- A sampled change of a pin. -/
def Chip.gpioEdge (c : Chip) (i : Nat) (level : Bool) : Chip :=
  if c.bit 0x0D5 0x050 i = level then c
  else
    let c := c.setBit 0x0D5 0x050 i level
    if c.bit 0x0D5 (if level then 0x054 else 0x058) i then
      let c := c.raise 0x0D5 i
      if i < 4 ∧ c.bit 0x0D0 0x058 (1 + i) then
        let (t, c) := c.stamp 5
        (c.wr64 0x0D0 (0x080 + 8 * i) t).raise 0x0D0 3
      else c
    else c

/-- GPIO_EDGE. -/
def execGpioEdge (pin : Fin 16) (level : Bool) (s : State) : Host.Outcome State Fault Refusal :=
  .next (s.onChip fun c => c.gpioEdge pin level)

/-- GPIO_SET and GPIO_CLR change the output bits written as 1, and no others. -/
def Chip.gpioOut (c : Chip) (mask : Nat) (v : Bool) : Chip :=
  c.wr 0x0D5 0x044 (if v then c.rd 0x0D5 0x044 ||| word (mask % 65536) else c.rd 0x0D5 0x044 &&& ~~~(word (mask % 65536)))

/-- GPIO_SET. -/
def execGpioSet (req : Requester) (mask : BitVec 16) (s : State) : Host.Outcome State Fault Refusal :=
  .next (s.onChip fun c => c.gated req 0x0D5 0x048 fun c => c.gpioOut mask.toNat true)

/-- GPIO_CLR. -/
def execGpioClr (req : Requester) (mask : BitVec 16) (s : State) : Host.Outcome State Fault Refusal :=
  .next (s.onChip fun c => c.gated req 0x0D5 0x04C fun c => c.gpioOut mask.toNat false)

/-! UARTs (R413-R415, R428). -/

/-- A UART's state. -/
def Chip.uart (c : Chip) (n : Nat) : UartState := (aget c.uarts n).getD {}

/-- A UART's state replaced; the level and oldest-entry fields follow it. -/
def Chip.setUart (c : Chip) (n : Nat) (u : UartState) : Chip := { c with uarts := aput c.uarts n u }

/-- RXDATA: the oldest entry (R414). -/
def UartState.rxWord (u : UartState) : Word :=
  match u.rx with
  | [] => 0
  | e :: _ => word (2 ^ 31 + e)

/-- TX_LEVEL and RX_LEVEL. -/
def UartState.levels (u : UartState) : Word := word (u.tx.length * 2 ^ 16 + u.rx.length)

/-- A character in the format of FORMAT (R413): 7 or 8 data bits. -/
def Chip.uartBits (c : Chip) (n : Nat) (ch : Byte) : Byte := if c.bit (pgUart n) 0x044 0 then ch else ch &&& 0x7F

/-- TXDATA written: the character is queued, or dropped (R414). -/
def Chip.txData (c : Chip) (n : Nat) (ch : Byte) : Chip :=
  let u := c.uart n
  if 64 ≤ u.tx.length then c.count (pgUart n) 0x068 else c.setUart n { u with tx := u.tx ++ [c.uartBits n ch] }

/-- TXDATA. -/
def execTxdata (req : Requester) (uart : Fin 2) (char : Byte) (s : State) : Host.Outcome State Fault Refusal :=
  .next (s.onChip fun c => c.gated req (pgUart uart) 0x048 fun c => c.txData uart char)

/-- RX_POP written 1. -/
def Chip.rxPop (c : Chip) (n : Nat) : Chip := c.setUart n { c.uart n with rx := (c.uart n).rx.drop 1 }

/-- RX_POP. -/
def execRxPop (req : Requester) (uart : Fin 2) (s : State) : Host.Outcome State Fault Refusal :=
  .next (s.onChip fun c => c.gated req (pgUart uart) 0x050 fun c => c.rxPop uart)

/-- A received character (R413-R415). -/
def Chip.uartChar (c : Chip) (n : Nat) (ch : Byte) (pe fe brk : Bool) : Chip :=
  let p := pgUart n
  let u := c.uart n
  if u.deaf ∨ c.fld 0x002 0x06C 0 3 = 2 then c
  else
    let pe := pe && c.fld p 0x044 1 2 != 0
    let c := if fe then c.count p 0x060 else c
    let c := if pe then c.count p 0x064 else c
    if 64 ≤ u.rx.length then (c.count p 0x05C).raise p 3
    else
      let e := (c.uartBits n ch).toNat + 256 * pe.toNat + 512 * fe.toNat + 1024 * brk.toNat
      let c := c.setUart n { u with rx := u.rx ++ [e] }
      if c.fld p 0x058 0 6 ≤ u.rx.length + 1 then c.raise p 0 else c

/-- UART_CHAR. -/
def execUartChar (uart : Fin 2) (char : Byte) (pe fe brk : Bool) (s : State) : Host.Outcome State Fault Refusal :=
  .next (s.onChip fun c => c.uartChar uart char pe fe brk)

/-- RX_IDLE: the line has been idle for 4 character times; a receiver that lost characters after a wake hears
again (R414, R415). -/
def execRxIdle (uart : Fin 2) (s : State) : Host.Outcome State Fault Refusal :=
  .next (s.onChip fun c =>
    let u := c.uart uart
    let c := if u.deaf then c.setUart uart { u with deaf := false } else c
    if u.rx = [] then c else c.raise (pgUart uart) 1)

/-- TX_EMPTY: a character has left; TX_EMPTY is set as the FIFO empties. -/
def execTxEmpty (uart : Fin 2) (s : State) : Host.Outcome State Fault Refusal :=
  .next (s.onChip fun c =>
    let u := c.uart uart
    match u.tx with
    | [] => c
    | x :: rest =>
      let c := c.setUart uart { u with tx := rest, out := some x }
      if rest = [] then c.raise (pgUart uart) 2 else c)

/-- What waking by UART_0 leaves of its receiver (R415). -/
def Chip.wakeUart (c : Chip) : Chip :=
  ((c.setUart 0 { c.uart 0 with deaf := true }).count (pgUart 0) 0x06C).raise (pgUart 0) 4

/-! I2C (R416, R417, R429). -/

/-- The minimum of SCL_LOW and SCL_HIGH of a mode, and the values a SPEED write loads (R416). -/
def sclMin (m : Nat) : Nat × Nat := if m = 1 then (130, 60) else if m = 2 then (50, 26) else (470, 400)
def sclLoad (m : Nat) : Nat × Nat := if m = 1 then (140, 110) else if m = 2 then (55, 40) else (500, 460)

/-- SPEED written; 3 stores 0. -/
def Chip.i2cSpeed (c : Chip) (n code : Nat) : Chip :=
  let m := if code % 4 = 3 then 0 else code % 4
  (c.wr (pgI2c n) 0x040 (word m)).wr (pgI2c n) 0x044 (word ((sclLoad m).2 * 2 ^ 16 + (sclLoad m).1))

/-- SPEED. -/
def execSpeed (req : Requester) (i2c : Fin 2) (code : BitVec 2) (s : State) : Host.Outcome State Fault Refusal :=
  .next (s.onChip fun c => c.gated req (pgI2c i2c) 0x040 fun c => c.i2cSpeed i2c code.toNat)

/-- SCL_HIGH and SCL_LOW written: below the minimum of the mode the minimum is stored. -/
def Chip.i2cScl (c : Chip) (n : Nat) (v : Word) : Chip :=
  let m := sclMin (c.fld (pgI2c n) 0x040 0 2)
  c.wr (pgI2c n) 0x044 (word (max m.2 (bits v.toNat 16 16) * 2 ^ 16 + max m.1 (bits v.toNat 0 16)))

/-- A transaction is in progress. -/
def Chip.i2cBusy (c : Chip) (n : Nat) : Bool := c.bit (pgI2c n) 0x048 31

/-- The end of a transaction (R417). -/
def Chip.i2cEnd (c : Chip) (n result acked : Nat) : Chip :=
  let p := pgI2c n
  let c := ((c.wr p 0x06C (word (acked * 2 ^ 8 + result))).setBit p 0x048 31 false).count p 0x090
  if result = 0 then c else c.count p 0x094

/-- GO written 1 (R417, R423). -/
def Chip.i2cGo (c : Chip) (req : Requester) (n : Nat) : Chip :=
  let p := pgI2c n
  if c.i2cBusy n then c.logUse p 0x12 req (regAddr p 0x048)
  else
    let a := c.fld p 0x048 0 7
    let c := c.setBit p 0x048 31 true
    if a < 8 ∨ 0x78 ≤ a ∨ 32 < c.fld p 0x048 8 6 ∨ 32 < c.fld p 0x048 16 6 then c.i2cEnd n 6 0 else c

/-- I2C_GO. -/
def execI2cGo (req : Requester) (i2c : Fin 2) (s : State) : Host.Outcome State Fault Refusal :=
  .next (s.onChip fun c => c.gated req (pgI2c i2c) 0x048 fun c => c.i2cGo req i2c)

/-- The transaction ends as the bus gives it. -/
def Chip.i2cDone (c : Chip) (n : Nat) (bus : I2cBus) : Chip :=
  let p := pgI2c n
  let wlen := c.fld p 0x048 8 6
  let rlen := c.fld p 0x048 16 6
  let acked := if bus.stuck ∨ !bus.addrAck then 0 else min bus.acked wlen
  let r := if bus.stuck then 5 else if bus.busError then 3 else if !bus.addrAck then 1 else if acked < wlen then 2 else 0
  let c := if r = 0 then
      ((bus.read.take rlen).zipIdx).foldl (fun (c : Chip) ((b, i) : Byte × Nat) =>
        c.setFld p (0x070 + i / 4 * 4) (8 * (i % 4)) 8 b.toNat) c
    else c
  c.i2cEnd n r acked

/-- I2C_DONE. -/
def execI2cDone (i2c : Fin 2) (bus : I2cBus) (s : State) : Host.Outcome State Fault Refusal :=
  .next (s.onChip fun c => if c.i2cBusy i2c then c.i2cDone i2c bus else c)

/-- STRETCH_TIMEOUT: the bytes acknowledged before it are the environment's. -/
def execStretchTimeout (i2c : Fin 2) (s : State) : Host.Outcome State Fault Refusal :=
  .next (s.onChip fun c =>
    if c.i2cBusy i2c then
      let (k, c) := c.draw
      c.i2cEnd i2c 4 (Config.choice k % (c.fld (pgI2c i2c) 0x048 8 6 + 1))
    else c)

/-- A transaction ended by a revocation or a reset of the page. -/
def Chip.i2cAbort (c : Chip) (n : Nat) : Chip := if c.i2cBusy n then c.i2cEnd n 7 0 else c

/-! The endpoint (R406, R410, R424, R425). -/

/-- IRQ_EOI written: the vector is armed again (R410). -/
def Chip.irqEoi (c : Chip) (v : Nat) : Chip := { c with pcie := { c.pcie with armed := c.pcie.armed ||| BitVec.ofNat 64 (2 ^ (v % 64)) } }

/-- IRQ_EOI: a line still high sends a new message. -/
def execIrqEoi (req : Requester) (vec : BitVec 6) (s : State) : Host.Outcome State Fault Refusal :=
  .next (s.onChip fun c => c.gated req 0x0C0 0x044 fun c => c.irqEoi vec.toNat)

/-- CPL_TIMEOUT: an outbound read got no completion; a read for a channel, which the prefetcher made at its VA, halts the DMA engine
(R340, R424). -/
def execCplTimeout (dma : Option (Fin 16 × BitVec 39)) (s : State) : Host.Outcome State Fault Refusal :=
  .next (s.onChip fun c =>
    let c := c.count 0x0C0 0x050
    match dma with
    | some (ch, va) => c.dmaBusErr ch va.toNat (c.dmaErrCtx ch va.toNat true) false true 2 0
    | none => c)

/-- An AER error (R406, R424): it is counted, and its message leaves while the link is up; an uncorrectable one may meet an
outbound read, which then returns POISON. -/
def Chip.aer (c : Chip) (kind : AerKind) (read : Bool) : Chip :=
  let c := (c.count 0x0C0 (if kind = .correctable then 0x048 else 0x04C)).raise 0x0C0 0
  { c with pcie := { c.pcie with
      errors := if c.linkUp then c.pcie.errors ++ [kind] else c.pcie.errors
      badRead := c.pcie.badRead || (read && kind != .correctable) } }

/-- AER_ERROR. -/
def execAerError (kind : AerEvent) (s : State) : Host.Outcome State Fault Refusal :=
  .next (s.onChip fun c => c.aer kind.kind kind.read)

/-- LINK_UP: training completes. -/
def execLinkUp (width speed : BitVec 3) (s : State) : Host.Outcome State Fault Refusal :=
  .next (s.onChip fun c => c.wr 0x0C0 0x040 (word (2 ^ 8 + width.toNat * 2 ^ 4 + speed.toNat)))

/-- D3HOT. -/
def execD3hot (s : State) : Host.Outcome State Fault Refusal :=
  .next (s.onChip fun c => { c with pcie := { c.pcie with d3hot := true } })

end Sys2Proof.Machine
end

