-- ==== Sys2Proof/Machine/Lantern.lean ====
section
/-! DEFINITION. The Lantern Illumination Sequencer (chapter 8): codes (R191), enable (R190), fires and their edges
(R193, R194, R205), the flood restart (R201), the exposure loop (R204) and strobe faults (R206). -/

namespace Sys2Proof.Machine

/-! Codes (R191). -/

/-- K of a code index; 0 where it is reserved. -/
def codeLen (i : Nat) : Nat := if i < 2 then 4 else if i < 4 then 8 else if i < 6 then 16 else 0

/-- The pattern of a code index. -/
def codePattern (i : Nat) : Nat := [0x3, 0x6, 0xC3, 0x99, 0xC3C3, 0x6699].getD i 0

/-- The chip at a position is lit. -/
def codeLit (i k : Nat) : Bool := bits (codePattern i) k 1 == 1

/-- The coefficient s_k. -/
def codeCoeff (i k : Nat) : Int := if codeLit i k then 1 else -1

/-! Source records of running graphs (R314). -/

/-- A source record noted by the slots that take that source. -/
def Chip.srcRecord (c : Chip) (r : SrcRec) : Chip :=
  let takes := fun (s : Nat × GSlot) => c.slotLive s.1 &&
    s.2.img.nodes.any fun n => n.kind == (if r.dmd then 0 else 1) && n.srcPort % 4 == r.port
  let slots := c.prc.slots.map fun s => if takes s then (s.1, { s.2 with recs := s.2.recs ++ [r] }) else s
  { c with prc := { c.prc with slots := slots } }

/-! Registers (R209). -/

/-- A sequencer's state. -/
def Chip.seq (c : Chip) (n : Nat) : SeqState := (aget c.lis.seqs n).getD {}

/-- A sequencer's state replaced. -/
def Chip.setSeq (c : Chip) (n : Nat) (q : SeqState) : Chip := { c with lis := { c.lis with seqs := aput c.lis.seqs n q } }

/-- ROT_LEN and ROT_i. -/
def Chip.rotLen (c : Chip) (n : Nat) : Nat := c.fld 0x027 (seqOff n 0) 28 2 + 1
def Chip.rotCode (c : Chip) (n i : Nat) : Nat := c.fld 0x027 (seqOff n 0) (12 + 3 * i) 3

/-- The code state as +0x24 holds it. -/
def Chip.seqCode (c : Chip) (n : Nat) : Nat := c.fld 0x027 (seqOff n 0x24) 0 3
def Chip.seqChip (c : Chip) (n : Nat) : Nat := c.fld 0x027 (seqOff n 0x24) 4 4
def Chip.seqRot (c : Chip) (n : Nat) : Nat := c.fld 0x027 (seqOff n 0x24) 8 2

/-- The code state stored. -/
def Chip.setCode (c : Chip) (n code chip rot : Nat) (flooded : Bool) : Chip :=
  c.wr 0x027 (seqOff n 0x24) (word (code + 16 * chip + 256 * rot + 4096 * flooded.toNat))

/-- FIRES. -/
def Chip.fires (c : Chip) (n : Nat) : Nat := (c.rd 0x027 (seqOff n 0x28)).toNat

/-- The numbers whose bits are set in a mask of n bits. -/
def maskBits (n m : Nat) : List Nat := (List.range n).filter fun i => bits m i 1 == 1

/-- A fire number has come to or past another, in the 32-bit count of FIRES. -/
def firePast (a b : Nat) : Bool := decide ((a + 2 ^ 32 - b) % 2 ^ 32 < 2 ^ 31)

/-- The fire number n steps on. -/
def fireAdd (f n : Nat) : Nat := (f + n) % 2 ^ 32

/-! Enable and disable (R190, R191, R194, R200). -/

/-- The configuration breaks R190 or R191. -/
def Chip.lisCfgBad (c : Chip) : Bool :=
  let ns := List.range 4
  ns.any fun n =>
    let codes := (List.range (c.rotLen n)).map (c.rotCode n)
    (codes.any fun i => codeLen i == 0 || codeLen i != codeLen (c.rotCode n 0)) ||
    ns.any fun m => m != n && ((c.seqPorts n &&& c.seqPorts m) != 0 || (c.seqStrobes n &&& c.seqStrobes m) != 0)

/-- Every strobe and trigger driven inactive, and every step in progress ended (R194). -/
def Chip.lisQuiet (c : Chip) : Chip :=
  { c with lis := { c.lis with
      strobes := 0, trigs := 0, seqs := c.lis.seqs.map fun (n, q) => (n, { q with step := none }) } }

/-- The code states at rotation entry 0, with nothing latched (R200). -/
def Chip.lisRestart (c : Chip) : Chip :=
  let c := { c with lis := { c.lis with seqs := [] } }
  (List.range 4).foldl (fun c n => c.setCode n (c.rotCode n 0) 0 0 false) c

/-- CTRL.ENABLE of page 0x027 written (R190, R194): a bad configuration leaves the LIS disabled. -/
def Chip.lisEnableTo (c : Chip) (req : Requester) (on : Bool) : Chip :=
  let was := c.enabled 0x027
  let c := c.setBit 0x027 0x00C 0 on
  if on && was then c
  else if !on then { c with lis := { c.lis with on := false } }.lisQuiet
  else if c.lisCfgBad then c.logUse 0x027 0x05 req (regAddr 0x027 0x00C)
  else { c with lis := { c.lis with on := true } }.lisRestart

/-- LIS_ENABLE. -/
def execLisEnable (req : Requester) (s : State) : Host.Outcome State Fault Refusal :=
  .next (s.onChip fun c => c.gated req 0x027 0x00C fun c => c.lisEnableTo req true)

/-- LIS_DISABLE. -/
def execLisDisable (req : Requester) (s : State) : Host.Outcome State Fault Refusal :=
  .next (s.onChip fun c => c.gated req 0x027 0x00C fun c => c.lisEnableTo req false)

/-! The exposure loop (R204). -/

/-- The combined record of a period over the sequencer's ports; none where a port's record is not yet written.
A period that a port passed over without a record counts as INCOMPLETE, as does one of a sequencer without ports. -/
def Chip.combinedRec (c : Chip) (n : Nat) (period : Int) : Option AeRec :=
  if period < 0 then some {}
  else
    let q := c.seq n
    let ps := maskBits 4 (c.seqPorts n)
    match ps.mapM fun p => match aget q.recs (4 * period.toNat + p) with
        | some r => some r
        | none => if (aget q.last p).any fun l => decide (period.toNat < l) then some {} else none with
    | none => none
    | some [] => some {}
    | some rs => some {
        dstatus := if rs.any (fun r => r.dstatus == 1) then 1 else if rs.all fun r => r.dstatus == 0 then 0 else 3
        valid := (rs.map AeRec.valid).sum, sum := (rs.map AeRec.sum).sum, invalid := (rs.map AeRec.invalid).sum }

/-- E2 of the loop (R204). -/
def aeNext (e target satMax : Nat) (flooded : Bool) (r : AeRec) : Nat :=
  if flooded then e / 2
  else if r.dstatus ≠ 0 then e
  else if r.valid = 0 ∨ satMax < r.invalid then e - e / 4
  else if 5 * target * r.valid < 4 * r.sum then e - e / 8
  else if 4 * r.sum < 3 * target * r.valid then e + e / 8 + 1
  else e

/-- The exposure loop at a code boundary of a period (R204, R205). -/
def Chip.aeLoop (c : Chip) (n period : Nat) (flooded : Bool) : Chip :=
  if !c.bit 0x027 (seqOff n 0x10) 31 then c
  else
    let e := c.fld 0x027 (seqOff n 0x10) 0 20
    match if flooded then some {} else c.combinedRec n ((period : Int) - 2) with
    | none => c.logErr 0x027 clsUse 0x16 0 0
    | some r =>
      let e2 := aeNext e (c.fld 0x027 (seqOff n 0x1C) 0 16) (c.rd 0x027 (seqOff n 0x20)).toNat flooded r
      let e' := min (max e2 (c.fld 0x027 (seqOff n 0x14) 0 20)) (c.fld 0x027 (seqOff n 0x18) 0 20)
      let c := c.setFld 0x027 (seqOff n 0x10) 0 20 e'
      c.setFld 0x027 (seqOff n 0x0C) 0 20 (min (e' + c.fld 0x027 (seqOff n 0x1C) 16 16) 200000)

/-! Fires (R193, R201, R205). -/

/-- A port of the demodulator. -/
def Chip.dmdPort (c : Chip) (p : Nat) : DmdPort := (aget c.dmd.ports p).getD {}

/-- A port of the demodulator replaced. -/
def Chip.setDmdPort (c : Chip) (p : Nat) (d : DmdPort) : Chip := { c with dmd := { c.dmd with ports := aput c.dmd.ports p d } }

/-- An offset of a port's block on page 0x026 (R210). -/
def dmdOff (p k : Nat) : Nat := 0x080 + 0x20 * p + k

/-- The fields of page 0x026 latched for a port at a moment (R210); those of the four latest boundaries are kept for the sub-frames
still on their way. -/
def Chip.latchDmd (c : Chip) (t p : Nat) : Chip :=
  let l : DmdLatch := {
    thresh := c.fld 0x026 (dmdOff p 0x08) 0 24
    inShift := c.fld 0x026 (dmdOff p 0x0C) 16 3
    satLevel := c.fld 0x026 (dmdOff p 0x0C) 0 16 }
  c.setDmdPort p { c.dmdPort p with latches := ((t, l) :: (c.dmdPort p).latches).take 4 }

/-- The settings that a sub-frame of a port stands under: those latched at the boundary that its tag's period began with, or at the
port's enable where that came later; without a code period the latest (R36, R193, R210). -/
def DmdPort.latch (d : DmdPort) (t : Tag) : DmdLatch :=
  let newest := (d.latches.head?.map Prod.snd).getD {}
  if codeLen t.code = 0 then newest
  else match d.latches.find? fun l => decide (l.1 ≤ t.bound) with
    | some l => l.2
    | none => (d.latches.getLast?.map Prod.snd).getD {}

/-- A code boundary at fire `fire` and moment t0 (R36, R193, R204): the period number, LAST_FLOODED, the exposure loop, then the fields
marked L as they stand. A gap fire whose chip is 0 begins no period of its own, so the restart that follows it begins the same one
(R193, R201). -/
def Chip.codeBoundary (c : Chip) (n fire t0 : Nat) (flooded : Bool) : Chip :=
  let q := c.seq n
  let per := if flooded && q.boundFire.isSome && q.boundFire == q.gapFire then q.next - 1 else q.next
  let c := c.setBit 0x027 (seqOff n 0x24) 12 flooded
  let c := c.aeLoop n per flooded
  let c := c.setSeq n { q with
    cur := per, next := per + 1
    trigDelay := c.fld 0x027 (seqOff n 0x04) 16 16
    trigWidth := c.fld 0x027 (seqOff n 0x04) 0 16
    stbDelay := c.fld 0x027 (seqOff n 0x08) 0 16
    stbWidth := c.fld 0x027 (seqOff n 0x0C) 0 20
    recs := q.recs.filter fun r => decide (per ≤ r.1 / 4 + 2)
    boundFire := some fire, boundAt := t0 }
  (maskBits 4 (c.seqPorts n)).foldl (Chip.latchDmd · t0) c

/-- The LIS takes fires: it is enabled, and neither in reset nor QUARANTINED (R194). -/
def Chip.lisRuns (c : Chip) : Bool := c.lis.on && !c.resetBusy 0x027 && c.leaseState 0x027 != 2

/-- The rotation moves on at the fire that restarts the code (R201). -/
def Chip.rotate (c : Chip) (n : Nat) : Chip :=
  let rot := (c.seqRot n + 1) % c.rotLen n
  let c := c.setCode n (c.rotCode n rot) 0 rot false
  c.setSeq n { c.seq n with restart := none, restartNext := false }

/-- A fire that is taken at t0 (R193): every fire at chip 0 is a code boundary, a gap fire's among them. The LIS SIGNALs one event
counter for the step (R18); which one the spec does not state (DESIGN CHOICE: log entry 86). -/
def Chip.takeFire (c : Chip) (n t0 : Nat) : Chip :=
  let c := c.count 0x027 (seqOff n 0x28)
  let fire := c.fires n
  let q := c.seq n
  let restart := q.restartNext || q.restart.any (firePast fire)
  let gap := !restart && q.gapFire == some fire
  let c := if restart then c.rotate n else c
  let chip := c.seqChip n
  let c := if chip = 0 then c.codeBoundary n fire t0 restart else c
  let q := c.seq n
  let code := c.seqCode n
  let tag : Tag := { code := code, chip := chip, fire := fire, period := if gap then none else some q.cur, bound := q.boundAt }
  let on := t0 + 10 * q.trigDelay
  let son := t0 + 10 * q.stbDelay
  let lit := codeLit code chip && q.stbWidth != 0
  let st : FireStep := { tag := tag, trigOn := on, trigOff := on + 10 * q.trigWidth, stbOn := son, stbOff := son + 10 * q.stbWidth,
                         stb := if lit then 0 else 2 }
  ((c.setSeq n { q with lastFire := some t0, step := some st }).setFld 0x027 (seqOff n 0x24) 4 4 ((chip + 1) % codeLen code)).signal'
    (Config.lisEvent n % 256) 1

/-- A fire of a sequencer (R193, R205): t0 lies 20–60 ns ahead. It is refused while the previous step's edges are
not all done, or within 4 ms of the previous fire. -/
def Chip.fireSeq (c : Chip) (n : Nat) : Chip :=
  if !c.lisRuns then c
  else
    let (k, c) := c.draw
    let t0 := c.time.now + 20 + Config.choice k % 41
    let q := c.seq n
    if q.step.isSome || q.lastFire.any fun t => decide (t0 < t + 4000000) then c.count 0x027 (seqOff n 0x2C)
    else c.takeFire n t0

/-- A write to LIS_FIRE. -/
def Chip.lisFire (c : Chip) (m : Nat) : Chip := (maskBits 4 m).foldl Chip.fireSeq c

/-- LIS_FIRE. -/
def execLisFire (req : Requester) (mask : BitVec 4) (s : State) : Host.Outcome State Fault Refusal :=
  .next (s.onChip fun c => c.gated req 0x027 0x040 fun c => c.lisFire mask.toNat)

/-! Edges. -/

/-- A step whose edges are all done is over. -/
def Chip.setStep (c : Chip) (n : Nat) (st : FireStep) : Chip :=
  c.setSeq n { c.seq n with step := if st.trig = 2 ∧ st.stb = 2 then none else some st }

/-- A camera port's state. -/
def Chip.ntxPort (c : Chip) (p : Nat) : NtxPort := (aget c.ntx.ports p).getD {}

/-- A camera port's state replaced. -/
def Chip.setNtxPort (c : Chip) (p : Nat) (x : NtxPort) : Chip := { c with ntx := { c.ntx with ports := aput c.ntx.ports p x } }

/-- A trigger of a port places its tag in the pending queue of a port that uses triggers (R218): a third one
displaces the oldest. -/
def Chip.trigTag (c : Chip) (p : Nat) (t : Tag) : Chip :=
  if !c.enabled (pgCam p) || !c.bit (pgCam p) 0x040 24 || c.bit (pgCam p) 0x010 8 then c
  else
    let x := c.ntxPort p
    let tags := x.tags ++ [(t, c.time.now)]
    if tags.length ≤ 2 then c.setNtxPort p { x with tags := tags }
    else ((c.setNtxPort p { x with tags := tags.drop 1 }).count (pgCam p) 0x074).raise (pgCam p) 3

/-- The triggers of a step assert (R193, step 1). -/
def Chip.trigAssert (c : Chip) (n : Nat) : Chip :=
  match (c.seq n).step with
  | some st =>
    if st.trig = 0 then
      let c := c.advance st.trigOn
      let c := { c with lis := { c.lis with trigs := c.lis.trigs ||| c.seqPorts n } }
      (maskBits 4 (c.seqPorts n)).foldl (fun c p => c.trigTag p st.tag) (c.setStep n { st with trig := 1 })
    else c
  | none => c

/-- TRIGGER_ASSERT. -/
def execTriggerAssert (seq : Fin 4) (s : State) : Host.Outcome State Fault Refusal := .next (s.onChip fun c => c.trigAssert seq)

/-- The triggers of a step deassert (R193, step 2). -/
def Chip.trigDeassert (c : Chip) (n : Nat) : Chip :=
  match (c.seq n).step with
  | some st =>
    if st.trig = 1 then
      let c := c.advance st.trigOff
      { c with lis := { c.lis with trigs := c.lis.trigs &&& (15 - c.seqPorts n) } }.setStep n { st with trig := 2 }
    else c
  | none => c

/-- TRIGGER_DEASSERT. -/
def execTriggerDeassert (seq : Fin 4) (s : State) : Host.Outcome State Fault Refusal := .next (s.onChip fun c => c.trigDeassert seq)

/-- VDDIO_GEN is on: the IO group is up (R502, R504). -/
def Chip.ioOn (c : Chip) : Bool := c.fld 0x002 0x080 0 3 == 4 || (c.fld 0x002 0x080 0 3 == 3 && bits c.pwr.railOk 3 1 == 1)

/-- The strobe outputs driven: a lamp head applies its latest CUR_MA at the rising edge of its own (R392). -/
def Chip.drive (c : Chip) (outs : Nat) : Chip :=
  let rising := fun o => bits outs o 1 == 1 && bits c.lis.strobes o 1 == 0
  let head := fun n (d : Nat × CarDev) =>
    if rising (Config.lampOutput n (d.1 + 1) % 8) then (d.1, { d.2 with driveMa := d.2.curMa }) else d
  { c with
    lis := { c.lis with strobes := outs }
    car := { c.car with chains := c.car.chains.map fun x => (x.1, { x.2 with devs := x.2.devs.map (head x.1) }) } }

/-- The strobes of a lit chip rise (R193, step 3); none is driven while VDDIO_GEN is off (R499). -/
def Chip.strobeRise (c : Chip) (n : Nat) : Chip :=
  match (c.seq n).step with
  | some st =>
    if st.stb = 0 then
      let c := c.advance st.stbOn
      (c.drive (if c.ioOn then c.lis.strobes ||| c.seqStrobes n else 0)).setStep n { st with stb := 1 }
    else c
  | none => c

/-- STROBE_RISE. -/
def execStrobeRise (seq : Fin 4) (s : State) : Host.Outcome State Fault Refusal := .next (s.onChip fun c => c.strobeRise seq)

/-- The strobes fall (R193, step 4). -/
def Chip.strobeFall (c : Chip) (n : Nat) : Chip :=
  match (c.seq n).step with
  | some st =>
    if st.stb = 1 then
      let c := c.advance st.stbOff
      { c with lis := { c.lis with strobes := c.lis.strobes &&& (255 - c.seqStrobes n) } }.setStep n { st with stb := 2 }
    else c
  | none => c

/-- STROBE_FALL. -/
def execStrobeFall (seq : Fin 4) (s : State) : Host.Outcome State Fault Refusal := .next (s.onChip fun c => c.strobeFall seq)

/-- STB_FAULT: a strobe pad disagrees with its drive for 1 µs (R206). The bit is set in the block of the sequencer
that drives the output, SEQ_0 where none does. -/
def execStbFault (out : Fin 8) (s : State) : Host.Outcome State Fault Refusal :=
  .next (s.onChip fun c =>
    let n := ((List.range 4).find? fun n => bits (c.seqStrobes n) out 1 == 1).getD 0
    (c.setBit 0x027 (seqOff n 0x30) out true).logErr 0x027 clsUnit 0x61 0 (word out))

/-! What the demodulator tells the LIS. -/

/-- The flood decision of a fire reaches its sequencer (R201, R205): one flood for a period; a decision after fire
f + 2 restarts the code at the next fire. -/
def Chip.lisFlood (c : Chip) (n f : Nat) : Chip :=
  let q := { c.seq n with floodFire := some f, gapFire := some (fireAdd f 1) }
  if firePast (c.fires n) (fireAdd f 2) then (c.setSeq n { q with restartNext := true }).logErr 0x027 clsUse 0x15 0 0
  else c.setSeq n { q with restart := some (fireAdd f 2) }

/-- The record of a port's period is written (R204). -/
def Chip.lisReport (c : Chip) (n p : Nat) (period : Option Nat) (r : AeRec) : Chip :=
  match period with
  | none => c
  | some per =>
    let q := c.seq n
    c.setSeq n { q with recs := aput q.recs (4 * per + p) r, last := aput q.last p (max per ((aget q.last p).getD 0)) }

/-- SOFT_RESET of page 0x027 (R70, R194): the code states return to rotation entry 0 and the outputs are
inactive. -/
def Chip.lisSoftReset (c : Chip) : Chip := c.lisQuiet.lisRestart

end Sys2Proof.Machine
end

