-- ==== Sys2Proof/Machine/Moves.lean ====
section
/-! DEFINITION. Moving tensors (chapter 6): COPY, GATHER, SCATTER, BGATHER and BSCATTER (R152-R158, R162-R164,
R172). -/

namespace Sys2Proof.Machine

/-- An operand of a started command, which its start checks have proved present. -/
def needOpd (q : Nat) (r : Running) (i : Nat) : EM Opd := do
  match (← get).chip.opd q r i with
  | some o => return o
  | none => throw 0x07

/-- The least failing code, if any check fails (R183: checks are made in ascending code order). -/
def checkCodes (codes : List Nat) : EM Unit := do
  let bad := codes.filter fun c => c != 0
  if bad ≠ [] then throw (bad.foldl min 0xFF)

/-- A check of R162 or of an opcode. -/
def check (bad : Bool) (code : Nat) : EM Unit := do
  if bad then throw code

/-- CHO_NO_STALL, which the Choir checks after the common checks of any command (R279, R295). -/
def checkStalls (q : Nat) : EM Unit := do check ((← get).chip.noStall q) 0x80

/-- The XFORM check of a slot (R162). -/
def xformOf (r : Running) (i : Nat) (d : Desc) (use : PortUse) (et : Option Nat) (indexed : Bool) : Nat :=
  xformCode d (r.xform i) use et indexed

/-- The type of the values a load delivers to a store of type `dst` (R146): widened to the destination's type, or
to INT32 when the destination narrows. -/
def widenType (src dst : Opd) : Nat := if dst.conv = 2 then 6 else if src.conv = 1 then dst.d.type else src.d.type

/-- The XFORM codes of a source and a destination (R146, R162). Under NONE on both ports COPY leaves unequal
types to SHAPE (`strict` false). -/
def pairCodes (r : Running) (si di : Nat) (s d : Opd) (duse : PortUse) (indexed strict : Bool) : List Nat :=
  let vt := if s.conv = 1 then widenType s d else s.d.type
  let set := if s.conv = 1 then some (widenType s d) else if strict && d.conv == 0 then some d.d.type else none
  let det := if d.conv = 2 then some vt else if strict || s.conv == 1 then some vt else none
  [xformOf r si s.d .load set indexed, xformOf r di d.d duse det indexed]

/-- The view indices of a destination in the order its vectors are stored. -/
def storeOrder (o : Opd) : List (List Nat) :=
  (List.range o.d.vectors).flatMap fun lin => (List.range (o.d.realLanes lin)).map fun l => o.toView (o.d.laneIndex lin l)

/-- A view groups its descriptor's own vectors. -/
def Opd.ownVectors (o : Opd) : Bool := o.perm.getD o.vv 0 == o.d.vdim

/-- The element that a move takes from a source view (R126, R146). Under NONE a block-scaled source passes its value x × 2^E, as INT32, to
a block-scaled destination, whose store derives a new E (R127), and its mantissa alone to a destination without scale (DESIGN CHOICE:
log entry 28). -/
def moveElem (s d : Opd) (m : Loaded) (v : List Int) : Elem :=
  if s.conv = 0 ∧ s.d.scaleEn ∧ d.d.scaleEn then elemAt { s with conv := 1 } m 6 v else elemAt s m (widenType s d) v

/-! COPY (R172). -/

/-- A compressed operand of a copy whose view vectors are not those of the other view is no stream of whole vectors (R136, R147;
log entry 92). -/
def copyStream (s d : Opd) : Nat := if (s.d.comp ≠ 0 ∨ d.d.comp ≠ 0) ∧ s.vv ≠ d.vv then 0x0F else 0

/-- COPY: destination view B takes source view A (R162, R172). -/
def copyBody (q : Nat) (r : Running) : EM Stats := do
  let s ← needOpd q r 0
  let d ← needOpd q r 1
  checkCodes (pairCodes r 0 1 s d .store false false ++ [copyStream s d])
  let same := r.descs.getD 0 none == r.descs.getD 1 none && r.xform 0 == 0 && r.xform 1 == 0
  check (!same && d.d.meets s.d) 0x13
  check (s.sizes != d.sizes || (s.conv == 0 && d.conv == 0 && s.d.type != d.d.type)) 0x16
  checkStalls q
  let m ← loadFor s ((storeOrder d).map toInts)
  storeTensor d fun v => moveElem s d m (toInts v)

/-- The destination of a slot, left undefined by an error of the execution (R184). -/
def destSlots (q : Nat) (is : List Nat) (c : Chip) (r : Running) (_e : Nat) : List (Nat × Opd) :=
  is.filterMap fun i => (c.opd q r i).map fun o => (i, o)

/-- A queue command's row: its opcode runs on the queue, and `is` are the slots it writes. -/
def opRow (q : Fin 128) (op : Nat) (body : Nat → Running → EM Stats) (is : List Nat) (s : State) :
    Host.Outcome State Fault Refusal :=
  s.onMem (execOp q op (body q) (destSlots q is s.chip))

/-- COPY. -/
def execCopy (q : Fin 128) (s : State) : Host.Outcome State Fault Refusal := opRow q 0x10 copyBody [1] s

/-! Gathers (R152, R154, R157, R158). -/

/-- An index tensor has a type of R152 (R162, INDEX_TYPE). -/
def indexTypeBad (o : Opd) : Bool := !(o.d.type == 3 || o.d.type == 6) || o.d.scaleEn

/-- A block list has the form of R157 (R162, INDEX_TYPE). -/
def blockTypeBad (o : Opd) : Bool := o.d.type != 6 || o.d.ndim != 2 || o.d.scaleEn

/-- Sizes that agree in every dimension but one. -/
def sizesExcept (g : Nat) (a b : Opd) : Bool :=
  a.ndim == b.ndim && (List.range a.ndim).all fun k => k == g || a.size k == b.size k

/-- A list of natural or integer numbers with one entry replaced. -/
def replaceAt (v : List Int) (g : Nat) (x : Int) : List Int := v.zipIdx.map fun (y, k) => if k = g then x else y

/-- The destination of a gather stored: element v of O is the element of S at `at? v`, none under a poisoned index
(R154, R164). -/
def gatherInto (s o : Opd) (at? : List Nat → Option (List Int)) : EM Stats := do
  let want := (storeOrder o).filterMap at?
  check (s.d.edge == 2 && want.any fun v => !s.d.inRange (s.toDesc v)) 0x22
  let m ← loadFor s want
  storeTensor o fun v => match at? v with
    | some i => moveElem s o m i
    | none => { v := none }

/-- GATHER: O(k) = S(k with k_G replaced by I(k)) (R152). -/
def gatherBody (q : Nat) (r : Running) : EM Stats := do
  let s ← needOpd q r 0
  let i ← needOpd q r 1
  let o ← needOpd q r 2
  let g := bits r.param 0 3
  checkCodes (pairCodes r 0 2 s o .store true true ++ [xformOf r 1 i.d .load none true])
  check (indexTypeBad i) 0x10
  check (!(o.sizes == i.sizes && sizesExcept g i s)) 0x11
  check (o.d.meets s.d || o.d.meets i.d) 0x13
  checkStalls q
  let mi ← loadFor i ((storeOrder o).map toInts)
  gatherInto s o fun v => ((elemAt i mi 6 (toInts v)).v).map fun x => replaceAt (toInts v) g x

/-- GATHER. -/
def execGather (q : Fin 128) (s : State) : Host.Outcome State Fault Refusal := opRow q 0x11 gatherBody [2] s

/-- The block origins of a list (R157): entry m, none where an element of it is poisoned. -/
def blockOrigins (l : Opd) (c : Nat) : EM (List (Option (List Int))) := do
  let ms := List.range (l.size 1)
  let idx := fun m d => [Int.ofNat d, Int.ofNat m]
  let loaded ← loadFor l (ms.flatMap fun m => (List.range c).map (idx m))
  return ms.map fun m => (List.range c).mapM fun d => (elemAt l loaded 6 (idx m d)).v

/-- BGATHER: O(k, m) = S(o(m) + k) (R158). A poisoned block-list entry ends it (R164). -/
def bgatherBody (q : Nat) (r : Running) : EM Stats := do
  let s ← needOpd q r 0
  let l ← needOpd q r 1
  let o ← needOpd q r 2
  let c := s.ndim
  checkCodes (pairCodes r 0 2 s o .store true true ++ [xformOf r 1 l.d .load none true])
  check (blockTypeBad l) 0x10
  check (decide (4 < c) || l.size 0 != c || o.ndim != c + 1 || o.size c != l.size 1) 0x11
  check (o.d.meets s.d || o.d.meets l.d) 0x13
  checkStalls q
  let os ← blockOrigins l c
  check (os.contains none) 0x23
  gatherInto s o fun v => (os.getD (v.getD c 0) none).map fun b =>
    (b.zip (toInts (v.take c))).map fun (x, k) => x + k

/-- BGATHER. -/
def execBgather (q : Fin 128) (s : State) : Host.Outcome State Fault Refusal := opRow q 0x13 bgatherBody [2] s

/-! Scatters (R153-R156, R158, R163, R164). -/

/-- The destination breaks R155 (SCATTER_TYPE). -/
def scatterTypeBad (d : Opd) (op : Nat) : Bool := d.d.type == 0 || d.d.scaleEn || (op == 1 && d.d.type == 5)

/-- One contribution to an element (R153, R155): the new value and whether it saturated; none is poison. -/
def combine (t op : Nat) (old x : Option Int) : Option Int × Bool :=
  match op, old, x with
  | 0, _, x => (x, false)
  | _, some d, some x =>
    if op = 1 then let r := satType t (d + x); (some r.1, r.2)
    else
      let nan := t == 5 && bf16Nan x.toNat
      let key := fun y : Int => if t = 5 then bf16Key y.toNat else y
      let take := if t = 5 ∧ bf16Nan d.toNat then true else if op = 2 then decide (key d < key x) else decide (key x < key d)
      (some (if nan then d else if take then x else d), false)
  | _, _, _ => (none, false)

/-- What a scatter has done so far: the counts of R154, the elements that saturated, the last element, and the code that has
ended it (0 while none). -/
structure ScatterAcc where
  st : Stats := {}
  sats : List (List Nat) := []
  last : Option (List Nat) := none
  err : Nat := 0

/-- The element of D that an index names under the EDGE rule (R154): clamped, or dropped (none). -/
def scatterTarget (d : Opd) (t : List Int) : EM (Option (List Nat × Bool)) := do
  if d.d.inRange (d.toDesc t) then return some (t.map Int.toNat, false)
  else if d.d.edge = 0 then
    return some (t.zipIdx.map fun (x, k) => (max 0 (min x ((d.size k : Int) - 1))).toNat, true)
  else if d.d.edge = 1 then return none
  else throw 0x22

/-- A NaN in the destination of MAX or MIN meets a number: R155 speaks of a NaN source alone, and which of the two stays is open
(DESIGN CHOICE: log entry 81). -/
def openNan (t op : Nat) (old x : Option Int) : Bool :=
  t == 5 && decide (2 ≤ op) && (old.any fun d => bf16Nan d.toNat) && x.any fun v => !bf16Nan v.toNat

/-- One contribution (R153, R154): read, combined, saturated to D's type and written in place. ADD takes the source's value as the load
port delivers it, and NARROW on D saturates the sum (DESIGN CHOICE: log entry 82). -/
def contribute (d : Opd) (op : Nat) (a : ScatterAcc) (t : List Int) (x : Elem) : EM ScatterAcc := do
  match ← scatterTarget d t with
  | none => return { a with st := { a.st with dropped := a.st.dropped + 1 } }
  | some (i, clamped) =>
    let old ← if op = 0 then pure none else loadElem d i
    let keep ← if openNan d.d.type op old x.v then do pure (Config.choice (← liftM drawM) % 2 == 0) else pure false
    let (y, s1) := if keep then (old, false) else combine d.d.type op old x.v
    let fin := y.map fun v => if d.d.type = 5 then (v, false) else satType d.d.type v
    storeElem d i (fin.map Prod.fst)
    let sat := x.sat || s1 || fin.any Prod.snd
    let sats := if sat && !a.sats.contains i then i :: a.sats else a.sats
    return { st := { a.st with clamped := a.st.clamped + clamped.toNat, poison := a.st.poison || y.isNone },
             sats := sats, last := some i }

/-- One more contribution of a scatter that nothing has ended: an error stops it, and what it counted stands (R154). -/
def ScatterAcc.step (a : ScatterAcc) (m : EM ScatterAcc) : EM ScatterAcc := do
  if a.err ≠ 0 then return a
  match ← (liftM m.run : EM (Except Nat ScatterAcc)) with
  | .ok b => return b
  | .error e => return { a with err := e }

/-- The result of a scatter. -/
def ScatterAcc.stats (a : ScatterAcc) : Stats := { a.st with sat := a.sats.length }

/-- The least free LOCK entry (R470). -/
def Chip.freeLock (c : Chip) : Option Nat :=
  (List.range 64).find? fun n => ((aget c.vrg.leases (lockSel n)).getD {}).state == 0 && (aget c.vrg.locks n).isNone

/-- The lock of the last read-modify-write sequence of a scatter into Cloister, held until the command retires
(R109, R156; DESIGN CHOICE: log entry 27). -/
def holdLock (q : Nat) (d : Opd) (i : List Nat) : WM Unit := do
  let w ← get
  match (translate d.ctx 1 (elemAddr d i).1 w).1 with
  | .error _ => pure ()
  | .ok pa =>
    if target pa = .cls then
      match w.chip.freeLock with
      | none => pure ()
      | some n => chipM fun c => (({ c with vrg := { c.vrg with
          locks := aput c.vrg.locks n { holder := BitVec.ofNat 8 d.src, queue := q, words := [c.cellOf (pa / 8 * 8)] } } } : Chip)).leaseGrant (lockSel n)

/-- A queue's command takes counts into its record (R173). -/
def Chip.addStats (c : Chip) (q : Nat) (st : Stats) : Chip :=
  match c.running q with
  | some r => c.setRunning q (some { r with sat := r.sat + st.sat, clamped := r.clamped + st.clamped, dropped := r.dropped + st.dropped,
                                            poison := r.poison || st.poison })
  | none => c

/-- The end of a scatter: the lock of its last sequence stays held where it takes locks. One that an error ended records what it had
counted. -/
def scatterEnd (q op : Nat) (d : Opd) (a : ScatterAcc) : EM Stats := do
  if a.err ≠ 0 then
    liftM (chipM fun c => c.addStats q a.stats)
    throw a.err
  match a.last with
  | some i => if op ≠ 0 then holdLock q d i
  | none => pure ()
  return a.stats

/-- SCATTER: S(k) contributes to D(k with k_G replaced by I(k)), in ascending dense order of k (R153). -/
def scatterBody (q : Nat) (r : Running) : EM Stats := do
  let s ← needOpd q r 0
  let i ← needOpd q r 1
  let d ← needOpd q r 2
  let g := bits r.param 0 3
  let op := bits r.param 4 2
  checkCodes (pairCodes r 0 2 s d (if op = 0 then .store else .both) true true ++ [xformOf r 1 i.d .load none true])
  check (indexTypeBad i) 0x10
  check (!(i.sizes == s.sizes && sizesExcept g d s)) 0x11
  check (scatterTypeBad d op) 0x12
  check (d.d.meets s.d || d.d.meets i.d) 0x13
  checkStalls q
  let ks := allIndices s.sizes
  let mi ← loadFor i (ks.map toInts)
  let ms ← loadFor s (ks.map toInts)
  let a ← ks.foldlM (fun (a : ScatterAcc) k => a.step do
    match (elemAt i mi 6 (toInts k)).v with
    | none => throw 0x23
    | some x => contribute d op a (replaceAt (toInts k) g x) (moveElem s d ms (toInts k))) {}
  scatterEnd q op d a

/-- BSCATTER: entry m contributes O(k, m) to D(o(m) + k), in ascending m and dense k (R158). -/
def bscatterBody (q : Nat) (r : Running) : EM Stats := do
  let s ← needOpd q r 0
  let l ← needOpd q r 1
  let d ← needOpd q r 2
  let c := d.ndim
  let op := bits r.param 4 2
  checkCodes (pairCodes r 0 2 s d (if op = 0 then .store else .both) true true ++ [xformOf r 1 l.d .load none true])
  check (blockTypeBad l) 0x10
  check (decide (4 < c) || l.size 0 != c || s.ndim != c + 1 || s.size c != l.size 1) 0x11
  check (scatterTypeBad d op) 0x12
  check (d.d.meets s.d || d.d.meets l.d) 0x13
  checkStalls q
  let os ← blockOrigins l c
  let ms ← loadFor s ((allIndices s.sizes).map toInts)
  let a ← os.zipIdx.foldlM (fun (a : ScatterAcc) (b, m) =>
    match b with
    | none => a.step (throw 0x23)
    | some o => (allIndices (s.sizes.take c)).foldlM (fun (a : ScatterAcc) k => a.step
        (contribute d op a ((o.zip (toInts k)).map fun (x, y) => x + y) (moveElem s d ms (toInts (k ++ [m]))))) a) {}
  scatterEnd q op d a

/-- The destinations a scatter's error leaves undefined: none where its contributions stand as written (R154,
R164). -/
def scatterDests (q : Nat) (c : Chip) (r : Running) (e : Nat) : List (Nat × Opd) :=
  if e = 0x22 ∨ e = 0x23 then [] else destSlots q [2] c r e

/-- A scatter takes bank locks: it combines, into a destination in Cloister, and no start check ends it (R156). -/
def takesLocks (q : Nat) (body : Nat → Running → EM Stats) (r : Running) : WM Bool := do
  let w ← get
  let inCls := match w.chip.opd q r 2 with
    | some d => match (translate d.ctx 1 d.d.base w).1 with
      | .ok pa => target pa == .cls
      | .error _ => false
    | none => false
  let starts := match ((body q r).run w).1 with
    | .error e => decide (0x20 ≤ e ∧ e < 0x80)
    | .ok _ => true
  return bits r.param 4 2 != 0 && inCls && starts

/-- A scatter waits while every LOCK entry is taken (R470), unless it takes no locks. -/
def scatterRow (q : Fin 128) (op : Nat) (body : Nat → Running → EM Stats) (s : State) : Host.Outcome State Fault Refusal :=
  s.onMem do
    let c ← getChip
    let takes ← match c.running q with
      | some r => takesLocks q body r
      | none => pure false
    if !takes ∨ c.freeLock.isSome then execOp q op (body q) (scatterDests q c)

/-- SCATTER. -/
def execScatter (q : Fin 128) (s : State) : Host.Outcome State Fault Refusal := scatterRow q 0x12 scatterBody s

/-- BSCATTER. -/
def execBscatter (q : Fin 128) (s : State) : Host.Outcome State Fault Refusal := scatterRow q 0x14 bscatterBody s

end Sys2Proof.Machine
end

