-- ==== Sys2Proof/Machine/Dmd.lean ====
section
/-! DEFINITION. The code demodulator (chapter 8): its arithmetic (R198, R199), sub-frames, floods and incomplete
periods (R197, R201, R202), records (R208) and commands (R207). -/

namespace Sys2Proof.Machine

/-! Planes. -/

/-- A plane of elements, row by row. -/
abbrev Plane := List (List (Option Int))

/-- An element of a plane. -/
def planeAt (p : Plane) (x y : Nat) : Option Int := (p.getD y []).getD x none

/-- The view index of a pixel, in an outer slice where the operand has one. -/
def pixelIdx (o : Opd) (k x y : Nat) : List Int := if o.ndim = 2 then [(x : Int), y] else [(x : Int), y, k]

/-- A plane loaded from a tensor W × H, or from slice k of one W × H × K. -/
def loadPlane (o : Opd) (k : Nat) : EM Plane := do
  let rows := (List.range (o.size 1)).map fun y => (List.range (o.size 0)).map fun x => pixelIdx o k x y
  let m ← loadFor o rows.flatten
  return rows.map fun r => r.map fun v => (elemAt o m o.d.type v).v

/-- The vectors of slice k of a tensor with VDIM 0. -/
def sliceVecs (o : Opd) (k : Nat) : List Nat :=
  let n := o.d.vcount 0 * o.d.vcount 1
  (List.range n).map (k * n + ·)

/-- A plane stored into a tensor, or into slice k of it. -/
def storePlane (o : Opd) (k : Nat) (f : Nat → Nat → Elem) : EM Stats :=
  (sliceVecs o k).foldlM (fun st lin => do
    let xs := (List.range (o.d.realLanes lin)).map fun l =>
      let i := o.d.laneIndex lin l
      f (i.getD 0 0) (i.getD 1 0)
    let sats ← storeVec o lin xs
    return st.add { sat := (sats.filter id).length, poison := xs.any fun x => x.v.isNone }) {}

/-! Arithmetic (R198). -/

/-- The shift of R198. -/
def dmdShift (k shift : Nat) : Nat := Nat.log2 (k / 2) + shift

/-- The output of a pixel from its accumulator and its number of saturated sub-frames. -/
def dmdValue (sh : Nat) (acc cnt : Option Int) : Elem :=
  match acc, cnt with
  | some a, some n =>
    if n ≠ 0 then { v := some (-32768) }
    else let r := satTo (-32767) 32767 (rshift a sh); { v := some r.1, sat := r.2 }
  | _, _ => { v := none }

/-- A sum of elements that is poisoned with any of them. -/
def addElem (a b : Option Int) : Option Int := match a, b with
  | some x, some y => some (x + y)
  | _, _ => none

/-- The product of a coefficient and a pixel. -/
def coeffPx (s : Int) (p : Option Nat) : Option Int := p.map fun v => s * (v : Int)

/-- A pixel of a sub-frame and its mark. -/
def SubFrame.px (f : SubFrame) (x y : Nat) : Option Nat := (f.plane.getD y []).getD x none
def SubFrame.mark (f : SubFrame) (x y : Nat) : Option Int := ((f.marks.getD y []).getD x (some false)).map fun m => if m then 1 else 0

/-! Outputs (R198, R201, R202, R208). -/

/-- The command that executes for a port (R202). -/
def Chip.dmdCmd (c : Chip) (p : Nat) : Option Running :=
  (c.running (104 + p)).filter fun r => r.op == 0xD0 && r.executed && !r.finished

/-- The sums of the valid pixels of an output (R208). The exposure loop takes them over the pixels that are not poisoned (DESIGN
CHOICE: log entry 87). -/
def aeSums (dstatus : Nat) (xs : List (Option Int)) : AeRec :=
  let vs := (xs.filterMap id).filter fun v => v != -32768
  { dstatus := dstatus, valid := vs.length, sum := vs.sum, invalid := (xs.filter fun x => x == some (-32768)).length }

/-- The 64-byte record of an output (R208); the fields summed over poisoned pixels are poisoned (R45). -/
def dmdRecord (c : Chip) (p : Nat) (o : DmdOut) (n flags : Nat) (poison : Bool) (r : AeRec) (t : Nat) : List (Option Byte) :=
  let sums := leBytes 4 r.valid ++ leBytes 4 r.invalid ++ leBytes 8 (unsext 64 r.sum)
  (leBytes 1 (c.fld 0x0B4 0x044 4 3) ++ leBytes 1 p ++ leBytes 1 o.code ++ leBytes 1 o.dstatus ++ leBytes 4 o.frame ++ leBytes 4 n ++
    leBytes 4 flags).map some ++
  (if poison then List.replicate 16 none else sums.map some) ++ (leBytes 8 t ++ List.replicate 24 0).map some

/-- One output written: A, then the record in DMD_CTX (R208). -/
def dmdWrite (p : Nat) (r : Running) (o : DmdOut) (f : Nat → Nat → Elem) : EM (Stats × AeRec) := do
  let q := 104 + p
  let a ← needOpd q r 0
  let st ← storePlane a 0 f
  let (t, c) ← modifyGet fun w => let x := w.useChip fun c => c.stamp 5; ((x.1, x.2.chip), x.2)
  let xs := (List.range (a.size 1)).flatMap fun y => (List.range (a.size 0)).map fun x => (f x y).v
  let ae := aeSums o.dstatus xs
  let n := (c.dmdPort p).nOut
  let flags := pflags c.taint st.poison (o.dstatus == 1) (r.debug || c.debugOn [pgQ q, 0x026])
  let va := c.rd64 0x026 (dmdOff p 0) + 64 * (n % 2 ^ c.fld 0x026 (dmdOff p 0x08) 28 4)
  writeVa (c.fld 0x026 0x040 0 4) 0x28 va (dmdRecord c p o (n % 2 ^ 32) flags st.poison ae t)
  return ({ st with flooded := o.dstatus == 1 }, ae)

/-- The slots that a DMD_PERIOD writes. -/
def dmdSlots (r : Running) : List Nat := [0, 1, 3] ++ (if (r.descs.getD 2 none).isSome then [2] else [])

/-- A DMD_PERIOD ends with an error of its execution (R183, R184). -/
def dmdFail (p code : Nat) : WM Unit := do
  let q := 104 + p
  let c ← getChip
  match c.running q with
  | none => pure ()
  | some r =>
    for o in (dmdSlots r).filterMap (c.opd q r) do havocOpd o
    chipM fun c => c.endRunning q code

/-- The executing command takes an output and is ready to retire; the sequencer learns of the record (R204). -/
def dmdFinish (p : Nat) (r : Running) (o : DmdOut) (f : Nat → Nat → Elem) : WM Unit := do
  let out ← (dmdWrite p r o f).run
  meetWrites (104 + p) 0x28
  match out with
  | .error e => dmdFail p e
  | .ok (st, ae) =>
    chipM fun c =>
      let d := c.dmdPort p
      let c := (c.setDmdPort p { d with nOut := d.nOut + 1 }).setRunning (104 + p) (some { r with
        finished := true, sat := r.sat + st.sat, poison := r.poison || st.poison, flooded := r.flooded || st.flooded })
      let c := c.srcRecord { port := p, dmd := true, status := o.dstatus, code := o.code, num := o.frame }
      match c.seqOfPort p with
      | some n => c.lisReport n p o.period ae
      | none => c

/-- Every pixel invalid. -/
def allInvalid : Nat → Nat → Elem := fun _ _ => { v := some (-32768) }

/-- An all-invalid output: written by the executing command, or by the port's next one at its start. -/
def dmdInvalid (p : Nat) (o : DmdOut) : WM Unit := do
  match (← getChip).dmdCmd p with
  | some r => dmdFinish p r o allInvalid
  | none => chipM fun c =>
    let d := c.dmdPort p
    c.setDmdPort p { d with outs := d.outs ++ [o] }

/-- The period in progress ends INCOMPLETE (R202). -/
def dmdIncomplete (p : Nat) : WM Unit := do
  let d := (← getChip).dmdPort p
  chipM fun c => (c.setDmdPort p { d with mode := 0, window := [], held := none }).count 0x026 (dmdOff p 0x18)
  dmdInvalid p { dstatus := 3, code := d.code, frame := d.frame, period := d.period }

/-- A period in progress of a port ends INCOMPLETE, if there is one. -/
def dmdBreak (p : Nat) : WM Unit := do
  if ((← getChip).dmdPort p).mode = 1 then dmdIncomplete p

/-- A sub-frame counted as lost or discarded (R202, R210). -/
def dmdDiscard (p : Nat) : WM Unit := chipM fun c => c.count 0x026 (dmdOff p 0x1C)

/-- The period is abandoned at the flooded sub-frame (R201, step 1): `f` is that sub-frame where it is at hand, and
`own` says that it is not yet counted; without it the port has taken it already. -/
def dmdAbandon (p : Nat) (f : Option SubFrame) (own : Bool) : WM Unit := do
  let d := (← getChip).dmdPort p
  let t := f.map SubFrame.tag
  let fire := (t.map Tag.fire).getD d.fire
  chipM fun c => c.setDmdPort p { d with mode := 2, gap := fireAdd fire 1, floodAt := none, window := [], held := none }
  if d.mode = 1 ∨ t.any fun t => t.chip == 0 || d.mode == 3 then
    let code := if d.mode = 1 then d.code else (t.map Tag.code).getD d.code
    let per := if d.mode = 1 then d.period else (t.map Tag.period).getD d.period
    chipM fun c => c.count 0x026 (dmdOff p 0x14)
    dmdInvalid p { dstatus := 1, code := code, frame := (f.map SubFrame.num).getD d.frame, period := per }
  else if own then dmdDiscard p

/-! Taking a sub-frame (R198, R199). -/

/-- Block form: the accumulator and the saturation counts with one more sub-frame; at chip K − 1 the output. -/
def dmdBlock (p : Nat) (r : Running) (f : SubFrame) (shift : Nat) : EM (Option (Nat → Nat → Elem)) := do
  let q := 104 + p
  let b ← needOpd q r 1
  let d ← needOpd q r 3
  let s := codeCoeff f.tag.code f.tag.chip
  let zero : Plane := (List.range (b.size 1)).map fun _ => List.replicate (b.size 0) (some 0)
  let acc ← if f.tag.chip = 0 then pure zero else loadPlane b 0
  let cnt ← if f.tag.chip = 0 then pure zero else loadPlane d 0
  let na := fun x y => addElem (planeAt acc x y) (coeffPx s (f.px x y))
  let nc := fun x y => addElem (planeAt cnt x y) (f.mark x y)
  let _ ← storePlane b 0 fun x y => { v := na x y }
  let _ ← storePlane d 0 fun x y => { v := nc x y }
  let k := codeLen f.tag.code
  if f.tag.chip + 1 < k then return none
  else return some fun x y => dmdValue (dmdShift k shift) (na x y) (nc x y)

/-- Sliding form: the history with the sub-frame in its chip's slice, then the sums over the window; the output
where the window holds K sub-frames. -/
def dmdSlide (p : Nat) (r : Running) (f : SubFrame) (shift : Nat) (win : List (Nat × List (List (Option Bool)))) :
    EM (Option (Nat → Nat → Elem)) := do
  let q := 104 + p
  let b ← needOpd q r 1
  let h ← needOpd q r 2
  let d ← needOpd q r 3
  let _ ← storePlane h f.tag.chip fun x y => { v := (f.px x y).map Int.ofNat }
  let planes ← win.mapM fun (k, m) => do return (codeCoeff f.tag.code k, ← loadPlane h k, m)
  let acc := fun x y => planes.foldl (fun a (s, pl, _) => addElem a ((planeAt pl x y).map fun v => s * v)) (some 0)
  let cnt := fun x y => planes.foldl (fun a (_, _, m) =>
    addElem a (((m.getD y []).getD x (some false)).map fun b => if b then (1 : Int) else 0)) (some 0)
  let _ ← storePlane b 0 fun x y => { v := acc x y }
  let _ ← storePlane d 0 fun x y => { v := cnt x y }
  let k := codeLen f.tag.code
  if win.length < k then return none
  else return some fun x y => dmdValue (dmdShift k shift) (acc x y) (cnt x y)

/-- A sub-frame taken by the executing command of its port. -/
def dmdTake (n : Nat) (r : Running) (f : SubFrame) : WM Unit := do
  let p := f.port
  let c ← getChip
  let d := c.dmdPort p
  let slide := c.seqSliding n
  let win := if slide then aput (if d.mode = 1 then d.window else []) f.tag.chip f.marks else []
  let shift := (d.latch f.tag).inShift
  chipM fun c => c.setDmdPort p { d with
    mode := 1, code := f.tag.code, chip := f.tag.chip, fire := f.tag.fire, period := f.tag.period, cmd := r.count
    frame := f.num, window := win, held := none }
  let out := { dstatus := 0, code := f.tag.code, frame := f.num, period := f.tag.period : DmdOut }
  if slide then
    match ← (dmdSlide p r f shift win).run with
    | .error e => dmdFail p e
    | .ok (some g) => dmdFinish p r { out with period := if f.tag.chip + 1 = codeLen f.tag.code then f.tag.period else none } g
    | .ok none =>
      dmdFinish p r { out with dstatus := 2, period := if f.tag.chip + 1 = codeLen f.tag.code then f.tag.period else none } allInvalid
  else
    match ← (dmdBlock p r f shift).run with
    | .error e => dmdFail p e
    | .ok none => pure ()
    | .ok (some g) =>
      chipM fun c => c.setDmdPort p { c.dmdPort p with mode := 3 }
      dmdFinish p r out g

/-- A sub-frame continues the period in progress: the next chip of its code at the next fire, and in block form
under the command that accumulates it. -/
def DmdPort.follows (d : DmdPort) (slide : Bool) (r : Running) (t : Tag) : Bool :=
  t.code == d.code && t.fire == fireAdd d.fire 1 &&
  (if slide then t.chip == (d.chip + 1) % codeLen t.code else t.chip == d.chip + 1 && r.count == d.cmd)

/-- A sub-frame begins the period that is due: chip 0, at the fire after the port's last. -/
def DmdPort.begins (d : DmdPort) (t : Tag) : Bool := t.chip == 0 && t.fire == fireAdd d.fire 1

/-- The period that is due has lost sub-frames (R202): its output names the code and period of the tag where that is of the same
period, and the period after the last one where the tag begins a later one. -/
def DmdPort.missed (d : DmdPort) (t : Tag) : DmdPort :=
  { d with code := t.code, period := if t.chip = 0 ∧ !d.begins t then d.period.map (· + 1) else t.period }

/-- A sub-frame of a code period that the demodulator takes, begins a period with, or discards (R198, R199,
R202). -/
def dmdAccept (n : Nat) (r : Running) (f : SubFrame) : WM Unit := do
  let p := f.port
  let c ← getChip
  let d := c.dmdPort p
  if d.mode = 1 ∧ d.follows (c.seqSliding n) r f.tag then dmdTake n r f
  else if d.mode = 1 ∨ (d.mode = 3 ∧ !d.begins f.tag) then
    if d.mode = 3 then chipM fun c => c.setDmdPort p (d.missed f.tag)
    dmdIncomplete p
    if f.tag.chip = 0 then chipM fun c => c.setDmdPort p { c.dmdPort p with held := some f } else dmdDiscard p
  else if f.tag.chip = 0 then dmdTake n r f
  else dmdDiscard p

/-- A sub-frame that is missing at the demodulator (R202): a capture error, no tag, no enabled sequencer, or no
DMD_PERIOD executing. -/
def dmdLost (f : SubFrame) (n : Option Nat) : WM Unit := do
  let p := f.port
  dmdDiscard p
  let d := (← getChip).dmdPort p
  let tagged := codeLen f.tag.code != 0
  if tagged ∧ d.floodAt = some f.tag.fire then dmdAbandon p (some f) false
  else if d.mode = 1 ∨ d.held.isSome then dmdIncomplete p
  else if tagged ∧ n.isSome ∧ (d.mode = 3 ∨ (d.mode = 0 ∧ f.tag.chip = 0)) then
    chipM fun c => c.setDmdPort p (if d.mode = 3 then d.missed f.tag else { d with code := f.tag.code, period := f.tag.period })
    dmdIncomplete p

/-- The frames of a camera port between their start and the demodulator. -/
def Chip.framesOnWay (c : Chip) (p : Nat) : List Frame :=
  let x := c.ntxPort p
  ((x.cap.toList.filter fun k => !k.ended).map fun k => k.frame) ++
    (((c.ntx.inl ++ c.ntx.ready ++ c.ntx.mem.toList).map PipeItem.frame).filter fun f => f.port == p) ++ x.errs.map Prod.fst

/-- A port's sub-frame of a fire is still to reach the demodulator: its trigger waits for a frame start, or its frame is on its way. -/
def Chip.subOnWay (c : Chip) (p fire : Nat) : Bool :=
  let is := fun (t : Tag) => codeLen t.code != 0 && t.fire == fire
  ((c.ntxPort p).tags.any fun t => is t.1) || (c.framesOnWay p).any fun f => is f.tag

/-- A flood (R201, R205): the sequencer restarts, and every port of it abandons the period, at once where no sub-frame of it is to
come first, and otherwise as the flooded sub-frame arrives. -/
def dmdFlood (n fire : Nat) : WM Unit := do
  chipM fun c => c.lisFlood n fire
  for p in maskBits 4 ((← getChip).seqPorts n) do
    let c ← getChip
    let d := c.dmdPort p
    if c.subOnWay p fire || c.dmd.inbox.any fun f => f.port == p then chipM fun c => c.setDmdPort p { d with floodAt := some fire }
    else dmdAbandon p none false

/-- The saturation count of a sub-frame (R201, R227). A pixel whose raw word is poisoned does not count as saturated (DESIGN CHOICE:
log entry 88). -/
def SubFrame.satCount (f : SubFrame) : Nat := (f.marks.map fun r => r.countP fun m => m == some true).sum

/-- A flood that the port has not reported and that a later sub-frame shows to be past is reported, and the gap after a flood ends
with the first sub-frame that is past it. -/
def dmdPass (p : Nat) (t : Tag) : WM Unit := do
  let d := (← getChip).dmdPort p
  if d.floodAt.any fun g => g != t.fire && firePast t.fire g then dmdAbandon p none false
  chipM fun c =>
    let d := c.dmdPort p
    if d.mode = 2 ∧ firePast t.fire d.gap then c.setDmdPort p { d with mode := 3, fire := d.gap, period := none } else c

/-- A sub-frame reaches the demodulator (R197, R201, R202). -/
def dmdArrive (f : SubFrame) : WM Unit := do
  let p := f.port
  match (← getChip).seqOfPort p with
  | none => dmdLost f none
  | some n =>
    if codeLen f.tag.code = 0 then dmdLost f (some n)
    else
      dmdPass p f.tag
      let c ← getChip
      if (c.seq n).gapFire = some f.tag.fire then dmdDiscard p
      else if f.lost then dmdLost f (some n)
      else if (c.dmdPort p).floodAt = some f.tag.fire then dmdAbandon p (some f) true
      else match c.dmdCmd p with
        | none => dmdLost f (some n)
        | some r => dmdAccept n r f

/-- A sub-frame counts more saturated pixels than its port's threshold (R201). -/
def Chip.floods (c : Chip) (f : SubFrame) : Bool := !f.lost && decide (((c.dmdPort f.port).latch f.tag).thresh < f.satCount)

/-- What a sub-frame of a fire meets at the demodulator (R201): a flood of that fire at a port of its sequencer that is not yet
decided; a port whose sub-frame of that fire may still decide one; or neither. -/
inductive FloodView
  | flood
  | waits
  | clear
deriving DecidableEq

/-- Whether a sub-frame at the demodulator may be taken: the flood decision of its fire is made over every port of the sequencer, so
it waits for the sub-frames of that fire that are on their way (DEDUCED: log entry 31). -/
def Chip.floodView (c : Chip) (n : Nat) (f : SubFrame) : FloodView :=
  let fire := f.tag.fire
  let open' := codeLen f.tag.code != 0 && (c.seq n).floodFire.all fun g => firePast fire (fireAdd g 2)
  let ports := maskBits 4 (c.seqPorts n)
  if !open' then .clear
  else if c.dmd.inbox.any fun x => ports.contains x.port && codeLen x.tag.code != 0 && x.tag.fire == fire && c.floods x then .flood
  else if ports.any fun p => p != f.port && c.subOnWay p fire then .waits
  else .clear

/-- DMD_SUBFRAME: the oldest sub-frame of a port in the demodulator's inbox is taken up, once the flood decision of its fire can be
made. -/
def execDmdSubframe (port : Fin 4) (s : State) : Host.Outcome State Fault Refusal :=
  s.onMem do
    let c ← getChip
    match c.dmd.inbox.find? fun f => f.port == port.val with
    | none => pure ()
    | some f =>
      let view := ((c.seqOfPort port).map fun n => c.floodView n f).getD .clear
      if view ≠ .waits ∧ !c.tripped then
        match view, c.seqOfPort port with
        | .flood, some n => dmdFlood n f.tag.fire
        | _, _ => pure ()
        chipM fun c => { c with dmd := { c.dmd with inbox := c.dmd.inbox.erase f } }
        dmdArrive f

/-! Commands (R207). -/

/-- The operand differs from a shape: rank, sizes, VDIM or a set XFORM (DMD_SHAPE). -/
def dmdShapeBad (r : Running) (i : Nat) (o : Opd) (sizes : List Nat) : Bool :=
  r.xform i != 0 || o.d.vdim != 0 || o.sizes != sizes

/-- The operand's type is not the one given, or it is block-scaled or compressed (DMD_TYPE). -/
def dmdTypeBad (o : Opd) (t : Nat) : Bool := o.d.type != t || o.d.scaleEn || o.d.comp != 0

/-- The checks of DMD_PERIOD (R162, R207). -/
def dmdCheck (p : Nat) (r : Running) : EM Unit := do
  let q := 104 + p
  let c := (← get).chip
  let a ← needOpd q r 0
  let b ← needOpd q r 1
  let d ← needOpd q r 3
  let h := c.opd q r 2
  checkCodes ([xformOf r 0 a.d .store none false, xformOf r 1 b.d .both none false, xformOf r 3 d.d .both none false] ++
    (h.map fun h => xformOf r 2 h.d .both none false).toList)
  let os := [a, b, d] ++ h.toList
  check (os.zipIdx.any fun (x, i) => os.zipIdx.any fun (y, j) => i != j && x.d.meets y.d) 0x13
  match c.seqOfPort p with
  | none => throw 0x80
  | some n =>
    let w := c.fld (pgCam p) 0x044 0 13
    let ht := c.fld (pgCam p) 0x044 16 13
    let k := codeLen (c.seqCode n)
    check (dmdShapeBad r 0 a [w, ht] || dmdShapeBad r 1 b [w, ht] || dmdShapeBad r 3 d [w, ht] ||
      h.any fun h => dmdShapeBad r 2 h [w, ht, k]) 0x81
    check (dmdTypeBad a 3 || dmdTypeBad b 6 || dmdTypeBad d 2 || h.any fun h => dmdTypeBad h 4) 0x82
    check (c.qctx q != c.fld 0x026 0x040 0 4) 0x83

/-- DMD_PERIOD: the command begins to execute for its port; an output that is due is written by it at once, and a
sub-frame that waits for it is taken. -/
def execDmdPeriod (q : Fin 128) (s : State) : Host.Outcome State Fault Refusal :=
  s.onMem do
    let c ← getChip
    match c.running q with
    | none => pure ()
    | some r =>
      if r.op ≠ 0xD0 ∨ r.executed ∨ r.finished ∨ c.tripped ∨ q.val < 104 ∨ 108 ≤ q.val then pure ()
      else
        let p := q.val - 104
        match ← (dmdCheck p r).run with
        | .error e => chipM fun c => c.setRunning q (some { r with executed := true, finished := true, status := e })
        | .ok _ =>
          let r := { r with executed := true }
          chipM fun c => c.setRunning q (some r)
          let d := (← getChip).dmdPort p
          match d.outs, d.held, (← getChip).seqOfPort p with
          | o :: rest, _, _ =>
            chipM fun c => c.setDmdPort p { d with outs := rest }
            dmdFinish p r o allInvalid
          | [], some f, some n => dmdTake n r f
          | _, _, _ => pure ()

/-- DMD_OFFLINE (R198, R207): the output of a stack of K sub-frames; saturation is judged on the stacked values. -/
def dmdOffline (q : Nat) (r : Running) : EM Stats := do
  let a ← needOpd q r 0
  let st ← needOpd q r 2
  let code := bits r.param 0 3
  let k := codeLen code
  checkCodes [xformOf r 0 a.d .store none false, xformOf r 2 st.d .load none false]
  check (a.d.meets st.d) 0x13
  check (r.xform 0 != 0 || a.ndim != 2 || a.d.vdim != 0 || dmdShapeBad r 2 st [a.size 0, a.size 1, k]) 0x81
  check (dmdTypeBad a 3 || dmdTypeBad st 4) 0x82
  let c := (← get).chip
  check (c.qctx q != c.fld 0x026 0x040 0 4) 0x83
  let planes ← (List.range k).mapM fun i => do return (codeCoeff code i, ← loadPlane st i)
  let level : Int := bits r.param 16 16
  let acc := fun x y => planes.foldl (fun s (c, pl) => addElem s ((planeAt pl x y).map fun v => c * v)) (some 0)
  let cnt := fun x y => planes.foldl (fun s (_, pl) => addElem s ((planeAt pl x y).map fun v => if level ≤ v then (1 : Int) else 0)) (some 0)
  storePlane a 0 fun x y => dmdValue (dmdShift k (bits r.param 8 3)) (acc x y) (cnt x y)

/-- DMD_OFFLINE. -/
def execDmdOffline (q : Fin 128) (s : State) : Host.Outcome State Fault Refusal := opRow q 0xD1 dmdOffline [0] s

/-! Port enable and reset. -/

/-- A restart of a port at its enable (R199, R208): PERIOD_NUM counts from 0 again, and the L fields are latched. -/
def Chip.dmdPortEnable (c : Chip) (p : Nat) : Chip := (c.setDmdPort p {}).latchDmd c.time.now p

/-- SOFT_RESET of page 0x026 (R526): each port's period in progress ends INCOMPLETE and windows restart. -/
def dmdSoftReset : WM Unit := do
  for p in List.range 4 do
    dmdBreak p
    chipM fun c => c.setDmdPort p { c.dmdPort p with mode := 0, window := [], held := none, floodAt := none }

end Sys2Proof.Machine
end

