-- ==== Sys2Proof/Machine/Narthex.lean ====
section
/-! DEFINITION. The pipeline of the Narthex (chapter 9): its stages (R225), taps (R226), statistics (R227, R228),
poison (R231), error frames (R220) and the order of its work (R221, R223). -/

namespace Sys2Proof.Machine

/-! Stages (R225). -/

/-- Lines of a frame from line `base` on. -/
structure Rows where
  base : Nat
  rows : List (List (Option Nat))
deriving DecidableEq, Repr

/-- A pixel of the lines held; none where it is poisoned. -/
def Rows.px (r : Rows) (x y : Nat) : Option Nat := (r.rows.getD (y - r.base) []).getD x none

/-- Every pixel of the lines lo to hi computed. -/
def Rows.make (w lo hi : Nat) (f : Nat → Nat → Option Nat) : Rows :=
  { base := lo, rows := (List.range (hi + 1 - lo)).map fun j => (List.range w).map fun x => f x (lo + j) }

/-- What tells a frame from every other of its port (R217, R219): the port enable it belongs to, and its number. -/
def Frame.key (f : Frame) : Nat × Nat := (f.gen, f.num)

/-- Two frames are the same frame. -/
def Frame.is (a b : Frame) : Bool := a.port == b.port && a.key == b.key

/-- A frame of a port started before another. -/
def Frame.before (a b : Frame) : Bool := decide (a.gen < b.gen) || (a.gen == b.gen && decide (a.num < b.num))

/-- Saturation to the pixel range. -/
def pxSat (b v : Nat) : Nat := min v (2 ^ b - 1)

/-- The CFA phase. -/
def Frame.phase (f : Frame) (x y : Nat) : Nat := if f.cfa = 0 then 0 else 2 * (y % 2) + x % 2

/-- The distance of the neighbours that DEF and the sharpness compare. -/
def Frame.dist (f : Frame) : Nat := if f.cfa = 0 then 1 else 2

/-- DEF_DYN, DEF_STATIC, SHADE_EN, DEMOSAIC_EN and a tap's enable. -/
def Frame.defDyn (f : Frame) : Bool := bits f.ctl 31 1 == 1
def Frame.defStatic (f : Frame) : Bool := bits f.ctl 30 1 == 1
def Frame.shadeEn (f : Frame) : Bool := bits f.ctl 29 1 == 1
def Frame.demosaic (f : Frame) : Bool := bits f.ctl 28 1 == 1 && f.cfa != 0
def Frame.tapOn (f : Frame) (k : Nat) : Bool := bits f.ctl (24 + k) 1 == 1

/-- SHADE_SHIFT; values outside 5–8 are stored as 6 (R233). -/
def Frame.shadeShift (f : Frame) : Nat := bits f.ctl 0 4

/-- BL. -/
def blPx (f : Frame) (v x y : Nat) : Nat := v - f.black.getD (f.phase x y) 0

/-- The pixels at distance d in the four directions that lie inside the frame. -/
def Frame.around (f : Frame) (d x y : Nat) : List (Nat × Nat) :=
  (if d ≤ x then [(x - d, y)] else []) ++ (if x + d < f.w then [(x + d, y)] else []) ++
  (if d ≤ y then [(x, y - d)] else []) ++ (if y + d < f.h then [(x, y + d)] else [])

/-- Insertion into an ascending list. -/
def insNat (v : Nat) : List Nat → List Nat
  | [] => [v]
  | a :: l => if v ≤ a then v :: a :: l else a :: insNat v l

/-- The median that replaces a flagged pixel. -/
def defMedian (ns : List Nat) : Nat :=
  let s := ns.foldl (fun l v => insNat v l) []
  let n := fun i => s.getD i 0
  if s.length = 4 then (n 1 + n 2 + 1) / 2 else if s.length = 3 then n 1 else if s.length = 2 then (n 0 + n 1 + 1) / 2 else n 0

/-- DEF: the pixel flagged (none where that depends on poison) and p2 (R225, R231). -/
def defPx (f : Frame) (p1 : Rows) (map : Nat → Nat → Option Bool) (x y : Nat) : Option Bool × Option Nat :=
  let ns := (f.around f.dist x y).map fun (a, b) => p1.px a b
  let own := p1.px x y
  let stat := if f.defStatic then map x y else some false
  let dyn := if !f.defDyn then some false else match own, ns.mapM id with
    | some p, some (n :: l) => some (decide (l.foldl max n + f.thresh < p) || decide (p + f.thresh < l.foldl min n))
    | _, _ => none
  match stat, dyn with
  | some true, _ => (some true, (ns.mapM id).map defMedian)
  | some false, some true => (some true, (ns.mapM id).map defMedian)
  | some false, some false => (some false, own)
  | _, _ => (none, none)

/-- SHADE: the gain's weighted sum Σ; a knot of weight 0 does not enter. -/
def shadeSum (cs : Nat) (g : Nat → Nat → Option Nat) (x y : Nat) : Option Nat :=
  let s := 2 ^ cs
  let cx := x / s
  let fx := x % s
  let cy := y / s
  let fy := y % s
  [(0, 0, (s - fx) * (s - fy)), (1, 0, fx * (s - fy)), (0, 1, (s - fx) * fy), (1, 1, fx * fy)].foldl (fun acc (i, j, w) =>
    if w = 0 then acc else match acc, g (cx + i) (cy + j) with
      | some a, some k => some (a + k * w)
      | _, _ => none) (some 0)

/-- SHADE of a pixel. -/
def shadePx (f : Frame) (gain : Nat → Nat → Nat → Option Nat) (p2 : Option Nat) (x y : Nat) : Option Nat :=
  if !f.shadeEn then p2
  else match p2, shadeSum f.shadeShift (gain (f.phase x y)) x y with
    | some p, some s => some (pxSat f.depth ((p * s + 2 ^ (11 + 2 * f.shadeShift)) / 2 ^ (12 + 2 * f.shadeShift)))
    | _, _ => none

/-- The colour of a phase under a CFA: 0 R, 1 G, 2 B. -/
def cfaColour (cfa ph : Nat) : Nat :=
  ((if cfa = 1 then [0, 1, 1, 2] else if cfa = 2 then [1, 0, 2, 1] else if cfa = 3 then [1, 2, 0, 1] else [2, 1, 1, 0]) : List Nat).getD ph 1

/-- A coordinate mirrored at the borders (R225). -/
def mirror (n : Nat) (x : Int) : Nat := if x < 0 then 1 else if (n : Int) ≤ x then n - 2 else x.toNat

/-- The rounded mean of two or four neighbours. -/
def meanPx (l : List (Option Nat)) : Option Nat := (l.mapM id).map fun v => (v.sum + l.length / 2) / l.length

/-- DEMOSAIC: R, G and B of a pixel. -/
def demosaicPx (f : Frame) (p3 : Rows) (x y : Nat) : List (Option Nat) :=
  let at' := fun (i j : Int) => p3.px (mirror f.w (x + i)) (mirror f.h (y + j))
  let col := cfaColour f.cfa (f.phase x y)
  if col = 1 then
    let hcol := cfaColour f.cfa (f.phase (x + 1) y)
    let hv := meanPx [at' (-1) 0, at' 1 0]
    let vv := meanPx [at' 0 (-1), at' 0 1]
    if hcol = 0 then [hv, p3.px x y, vv] else [vv, p3.px x y, hv]
  else
    let g := meanPx [at' (-1) 0, at' 1 0, at' 0 (-1), at' 0 1]
    let o := meanPx [at' (-1) (-1), at' 1 (-1), at' (-1) 1, at' 1 1]
    if col = 0 then [p3.px x y, g, o] else [o, g, p3.px x y]

/-! Maps (R225). -/

/-- A map reader's bytes: none where a byte is poisoned. -/
abbrev MapBytes := List (Option Byte)

/-- Bytes per line of the static map. -/
def Frame.mapStride (f : Frame) : Nat := ((f.w + 7) / 8 + 63) / 64 * 64

/-- The static map of the lines lo to hi. -/
def loadDefMap (f : Frame) (lo hi : Nat) : EM (List (Nat × MapBytes)) := do
  if !f.defStatic then return []
  (List.range (hi + 1 - lo)).mapM fun j => do
    return (lo + j, ← readVa f.ctx 0x30 (f.defMap + (lo + j) * f.mapStride) ((f.w + 7) / 8))

/-- A bit of the static map. -/
def mapBit (m : List (Nat × MapBytes)) (x y : Nat) : Option Bool :=
  ((((aget m y).getD []).getD (x / 8) none)).map fun b => b.toNat / 2 ^ (x % 8) % 2 == 1

/-- GX and GY. -/
def Frame.knotsX (f : Frame) : Nat := (f.w + 2 ^ f.shadeShift - 1) / 2 ^ f.shadeShift + 1
def Frame.knotsY (f : Frame) : Nat := (f.h + 2 ^ f.shadeShift - 1) / 2 ^ f.shadeShift + 1

/-- The gain map. -/
def loadGains (f : Frame) : EM MapBytes := do
  if !f.shadeEn then return []
  readVa f.ctx 0x30 f.shadeMap (2 * (if f.cfa = 0 then 1 else 4) * f.knotsY * f.knotsX)

/-- A knot of a phase. -/
def gainAt (f : Frame) (m : MapBytes) (ph gx gy : Nat) : Option Nat :=
  leNat ((m.drop (2 * ((ph * f.knotsY + gy) * f.knotsX + gx))).take 2)

/-! Output of a piece of work. -/

/-- The planes of the output lines of an item: raw, p2, p3 and the OUT planes, with the flags of DEF. -/
structure ItemOut where
  raw : Rows
  p2 : Rows
  p3 : Rows
  out : List Rows
  flags : List (List (Option Bool))

/-- The stages over the lines of an item (R225). -/
def itemOut (f : Frame) (it : PipeItem) (map : List (Nat × MapBytes)) (gains : MapBytes) : ItemOut :=
  let raw : Rows := { base := it.first, rows := it.taken }
  let p1 := Rows.make f.w it.first it.inHi fun x y => (raw.px x y).map fun v => blPx f v x y
  let lo := it.outLo - 1
  let hi := min (it.outHi + 1) (f.h - 1)
  let d := (List.range (hi + 1 - lo)).map fun j => (List.range f.w).map fun x => defPx f p1 (mapBit map) x (lo + j)
  let p2 : Rows := { base := lo, rows := d.map fun r => r.map Prod.snd }
  let p3 := Rows.make f.w lo hi fun x y => shadePx f (gainAt f gains) (p2.px x y) x y
  let dem := fun k => Rows.make f.w it.outLo it.outHi fun x y => (demosaicPx f p3 x y).getD k none
  { raw := raw, p2 := p2, p3 := p3, out := if f.demosaic then [dem 0, dem 1, dem 2] else [p3],
    flags := (d.drop (it.outLo - lo)).map fun r => r.map Prod.fst }

/-- An output line of an item as the statistics and the demodulator take it. -/
def itemLines (f : Frame) (it : PipeItem) (o : ItemOut) : List OutLine :=
  (List.range (it.outHi + 1 - it.outLo)).map fun j =>
    let y := it.outLo + j
    { p3 := (List.range f.w).map fun x => o.p3.px x y
      sat := (List.range f.w).map fun x => (o.raw.px x y).map fun v => decide (f.satLevel ≤ v)
      flagged := ((o.flags.getD j []).mapM id).map fun bs => bs.countP id }

/-! Taps (R226). -/

/-- The operand of a descriptor copied at the enable of a frame's port. -/
def Frame.opd (f : Frame) (k src : Nat) : Option Opd :=
  (aget f.descs k).map fun qw => Opd.of (Desc.ofWords qw) 0 f.ctx src

/-- The vectors of line y of channel ch of slot s of a tap or raw tensor. -/
def lineVecs (o : Opd) (s ch y : Nat) : List Nat :=
  let v := o.d.vcount 0
  let outer := if o.ndim = 4 then ch + o.size 2 * s else s
  (List.range v).map fun j => j + v * (y + o.size 1 * outer)

/-- One line of pixels stored. -/
def storeLine (o : Opd) (s ch y : Nat) (px : List (Option Nat)) : EM Unit := do
  for (lin, j) in (lineVecs o s ch y).zipIdx do
    let xs := ((px.drop (32 * j)).take 32).map fun v => { v := v.map Int.ofNat : Elem }
    let _ ← storeVec o lin xs

/-- The slot of a frame in a tensor whose outer dimension counts frames. -/
def slotOf (o : Opd) (num : Nat) : Nat := num % o.size (o.ndim - 1)

/-- The enabled taps of a frame that have an operand. -/
def Frame.taps (f : Frame) : List (Nat × Opd) :=
  (List.range 4).filterMap fun k => if f.tapOn k then (f.opd k 0x30).map fun o => (k, o) else none

/-- The taps of an item's output lines written. -/
def writeTaps (f : Frame) (it : PipeItem) (o : ItemOut) : EM Unit := do
  for (k, t) in f.taps do
    let planes := if k = 0 then [o.raw] else if k = 1 then [o.p2] else if k = 2 then [o.p3] else o.out
    for (pl, ch) in planes.zipIdx do
      for j in List.range (it.outHi + 1 - it.outLo) do
        let y := it.outLo + j
        storeLine t (slotOf t f.num) ch y ((List.range f.w).map fun x => pl.px x y)

/-- The tap slots of a frame left undefined from a line on (R220). -/
def havocTaps (f : Frame) (fromLine : Nat) : WM Unit := do
  for (_, o) in f.taps do
    for ch in List.range (if o.ndim = 4 then o.size 2 else 1) do
      for j in List.range (f.h - fromLine) do
        for lin in lineVecs o (slotOf o f.num) ch (fromLine + j) do
          havocBytes o.ctx o.src ((o.d.base : Int) + o.d.offset lin * vecBytes o.d.type).toNat (vecBytes o.d.type)

/-! Statistics (R227, R228). -/

/-- The zone 0–7 of a coordinate along a dimension. -/
def zoneOf (n x : Nat) : Nat := ((List.range 8).filter fun i => decide (i * n / 8 ≤ x)).length - 1

/-- The gradient of a pixel, where its four neighbours lie inside the frame; the outer none says they do not. -/
def sharpAt (f : Frame) (p3 : Rows) (x y : Nat) : Option (Option Nat) :=
  let d := f.dist
  if (f.around d x y).length < 4 then none
  else some (match p3.px (x + d) y, p3.px (x - d) y, p3.px x (y + d), p3.px x (y - d) with
    | some a, some b, some c, some e => some ((a - b) + (b - a) + (c - e) + (e - c))
    | _, _, _, _ => none)

/-- A statistics field of n bytes; none is poisoned. -/
def statBytes (n : Nat) (v : Option Nat) : List (Option Byte) := match v with
  | some x => (leBytes n x).map some
  | none => List.replicate n none

/-- The statistics of a frame from its output lines: SAT_COUNT, DEF_COUNT, HIST, ZONE_SUM and SHARP. -/
structure FrameStats where
  sat : Option Nat := some 0
  defects : Option Nat := some 0
  hist : List (Option Nat) := List.replicate 256 (some 0)
  zones : List (Option Nat) := List.replicate 64 (some 0)
  sharp : List (Option Nat) := List.replicate 64 (some 0)
  poison : Bool := false

/-- The statistics computed (R228, R231). -/
def frameStats (f : Frame) (ls : List OutLine) : FrameStats :=
  let p3 : Rows := { base := 0, rows := ls.map OutLine.p3 }
  let all := ls.flatMap OutLine.p3
  let vals := all.filterMap id
  let dark := ls.any fun l => l.sat.any Option.isNone
  let poison := all.any Option.isNone
  let core := bits f.sharp 16 16
  let shift := bits f.sharp 0 4
  let px := (List.range f.h).flatMap fun y => (List.range f.w).map fun x => (8 * zoneOf f.h y + zoneOf f.w x, x, y)
  let zone := fun z => px.filter fun p => p.1 == z
  let bins := vals.map fun v => v / 2 ^ (f.depth - 8)
  { sat := if poison || dark then none else some ((ls.map fun l => l.sat.countP fun s => s == some true).sum)
    defects := (ls.mapM OutLine.flagged).map List.sum
    hist := (List.range 256).map fun i => if poison then none else some (bins.count i)
    zones := (List.range 64).map fun z => ((zone z).mapM fun p => p3.px p.2.1 p.2.2).map List.sum
    sharp := (List.range 64).map fun z =>
      match (zone z).mapM fun p => p3.px p.2.1 p.2.2, ((zone z).filterMap fun p => sharpAt f p3 p.2.1 p.2.2).mapM id with
      | some _, some gs => some (min (2 ^ 32 - 1) ((gs.map fun g => if core ≤ g then g / 2 ^ shift else 0).sum))
      | _, _ => none
    poison := poison || dark || ls.any fun l => l.flagged.isNone }

/-- The 2048 bytes of a statistics record (R227). -/
def statRecord (c : Chip) (f : Frame) (status t : Nat) (s : FrameStats) : List (Option Byte) :=
  let flags := pflags c.taint s.poison false (f.debug || c.debugOn [pgCam f.port, 0x024, 0x025])
  (leBytes 1 (c.fld 0x0B4 0x044 4 3) ++ leBytes 1 f.port ++ leBytes 1 f.tag.code ++ leBytes 1 status ++ leBytes 4 f.num ++
    leBytes 1 f.tag.chip ++ leBytes 3 0 ++ leBytes 4 f.tag.fire ++ leBytes 4 flags).map some ++
  statBytes 4 s.sat ++ statBytes 4 s.defects ++ (leBytes 4 0 ++ leBytes 8 t ++ List.replicate 24 0).map some ++
  s.hist.flatMap (statBytes 4) ++ s.zones.flatMap (statBytes 8) ++ s.sharp.flatMap (statBytes 4) ++
  List.replicate 192 (some 0)

/-- The record of a frame written where STAT_EN is set (R227). -/
def writeStats (f : Frame) (status : Nat) (s : FrameStats) : EM Unit := do
  let c := (← get).chip
  let off := 0x080 + 0x20 * f.port
  if c.bit 0x025 (off + 8) 31 then
    let (t, c) ← modifyGet fun w => let x := w.useChip fun c =>
        let (k, c) := c.draw
        ((f.time + Config.stampError k % 76821 + 2 ^ 64 - 38410) % 2 ^ 64, c); ((x.1, x.2.chip), x.2)
    writeVa f.ctx 0x30 (c.rd64 0x025 off + 2048 * (f.num % 2 ^ c.fld 0x025 (off + 8) 0 4)) (statRecord c f status t s)

/-! Frames that leave the pipeline (R220). -/

/-- An event counter of a port signalled where EVT_EN is set: CAP_EVT at 0, PIPE_EVT at 8. -/
def Chip.camEvent (c : Chip) (p lo : Nat) : Chip :=
  if c.bit (pgCam p) 0x054 31 then c.signal' (c.fld (pgCam p) 0x054 lo 8) 1 else c

/-- A frame's raw slot is free again (R222). -/
def Chip.freeSlot (c : Chip) (f : Frame) : Chip :=
  let x := c.ntxPort f.port
  c.setNtxPort f.port { x with busy := x.busy.filter fun b => b.1 != f.key }

/-- A sub-frame handed to the demodulator. -/
def Chip.toDmd (c : Chip) (s : SubFrame) : Chip := { c with dmd := { c.dmd with inbox := c.dmd.inbox ++ [s] } }

/-- Frames of a port that are still in the pipeline. -/
def Chip.inPipe (c : Chip) (p : Nat) : List Frame :=
  ((c.ntx.inl ++ c.ntx.ready ++ c.ntx.mem.toList).filter fun it => it.frame.port == p).map PipeItem.frame

/-- The output lines of a frame done in stripes so far, and without them. -/
def NtxPort.doneOf (x : NtxPort) (f : Frame) : List OutLine := ((x.done.find? fun d => d.1 == f.key).map Prod.snd).getD []
def NtxPort.dropDone (x : NtxPort) (f : Frame) : NtxPort := { x with done := x.done.filter fun d => d.1 != f.key }

/-- An error frame leaves the pipeline (R220): undefined tap slots, its record with zeros, the demodulator told, and
PIPE_EVT. -/
def errorOut (f : Frame) (status fromLine : Nat) : WM Unit := do
  havocTaps f fromLine
  let _ ← (writeStats f status {}).run
  chipM fun c =>
    let c := c.srcRecord {
      port := f.port, dmd := false, status := status, code := f.tag.code, num := f.num, chip := f.tag.chip, fire := f.tag.fire }
    ((c.freeSlot f).toDmd { port := f.port, tag := f.tag, num := f.num, lost := true }).camEvent f.port 8

/-- The error frames of a port that no earlier frame still holds back leave. -/
def flushErrs (p : Nat) : WM Unit := do
  let c ← getChip
  let held := fun (f : Frame) => (c.inPipe p).any fun g => g.before f
  for (f, st) in (c.ntxPort p).errs do
    if !held f then errorOut f st 0
  chipM fun c =>
    let x := c.ntxPort p
    c.setNtxPort p { x with errs := x.errs.filter fun e => held e.1 }

/-- A frame becomes an error frame: its work is dropped, and it leaves in its turn. -/
def errorFrame (f : Frame) (status : Nat) : WM Unit := do
  let mine := fun (it : PipeItem) => it.frame.is f
  let c ← getChip
  let lines := ((c.ntxPort f.port).doneOf f).length
  chipM fun c => ({ c with ntx := { c.ntx with
      inl := c.ntx.inl.filter fun it => !mine it
      ready := c.ntx.ready.filter fun it => !mine it
      mem := c.ntx.mem.filter fun it => !mine it } }).freeSlot f
  if ((← getChip).inPipe f.port).any fun g => g.before f then
    chipM fun c =>
      let x := c.ntxPort f.port
      c.setNtxPort f.port { x with errs := x.errs ++ [(f, status)] }
  else
    chipM fun c => c.setNtxPort f.port ((c.ntxPort f.port).dropDone f)
    errorOut f status lines
    flushErrs f.port

/-- A frame whose lines have all left the pipeline completes (R220, R227): its record, the demodulator, its slot and
PIPE_EVT. A record that faults is not written (R231); its sub-frame has left the pipeline by then. -/
def frameOut (f : Frame) (ls : List OutLine) : WM Unit := do
  let status := match ← (writeStats f 0 (frameStats f ls)).run with
    | .error _ => 13
    | .ok _ => 0
  let sub := { port := f.port, tag := f.tag, num := f.num, lost := false, plane := ls.map OutLine.p3
               marks := ls.map OutLine.sat : SubFrame }
  chipM fun c =>
    let c := c.setNtxPort f.port ((c.ntxPort f.port).dropDone f)
    let c := c.srcRecord {
      port := f.port, dmd := false, status := status, code := f.tag.code, num := f.num, chip := f.tag.chip, fire := f.tag.fire }
    ((c.freeSlot f).toDmd sub).camEvent f.port 8
  flushErrs f.port

/-- The capture of a frame is still running. -/
def Chip.capturing (c : Chip) (f : Frame) : Bool := (c.ntxPort f.port).cap.any fun k => k.frame.is f && !k.ended

/-- What the end of a frame leaves in the port's registers (R216, R232). -/
def Chip.captureCount (c : Chip) (p status : Nat) : Chip :=
  let pg := pgCam p
  let c := (c.setFld pg 0x064 0 8 status).setBit pg 0x010 9 false
  let c := if status = 0 then (c.count pg 0x068).raise pg 0
    else if status = 11 then (c.count pg 0x070).raise pg 2
    else (c.count pg 0x06C).raise pg 1
  let c := if status = 10 then c.count pg 0x078 else c
  let c := if status = 7 then c.count pg 0x07C else c
  c.camEvent p 0

/-- A frame in the pipeline ends with a status: its capture ends too where it still runs (R216, R220). -/
def failFrame (f : Frame) (status : Nat) : WM Unit := do
  if (← getChip).capturing f then
    chipM fun c =>
      let x := c.ntxPort f.port
      (c.setNtxPort f.port { x with cap := x.cap.map fun k => { k with ended := true } }).captureCount f.port status
  errorFrame f status

/-- An item whose lines have all been taken (R223, R225): its stages and taps; the frame completes with its last
lines once its capture has ended OK. -/
def itemDone (it : PipeItem) : WM Unit := do
  let f := it.frame
  let r ← (do
    let map ← loadDefMap f (it.outLo - 1) (min (it.outHi + 1) (f.h - 1))
    let gains ← loadGains f
    let o := itemOut f it map gains
    writeTaps f it o
    return itemLines f it o : EM (List OutLine)).run
  match r with
  | .error _ => failFrame f 13
  | .ok ls =>
    if f.mode = 2 then
      let x := (← getChip).ntxPort f.port
      let all := x.doneOf f ++ ls
      chipM fun c => c.setNtxPort f.port { x.dropDone f with done := (f.key, all) :: (x.dropDone f).done }
      if it.last ∧ !(← getChip).capturing f then frameOut f all
    else frameOut f ls

/-! Lines (R221). -/

/-- A line whose failing line-buffer words poison their pixels (R231). -/
def parityLine (b : Nat) (parity : List Nat) (px : List (Option Nat)) : List (Option Nat) :=
  px.zipIdx.map fun (v, x) => if parity.contains (x / (if b = 8 then 8 else 4)) then none else v

/-- Line-buffer parity errors reported on page 0x024 (R231, R467). -/
def Chip.pipeParity (c : Chip) (n : Nat) : Chip := (List.range n).foldl (fun c _ => c.logErr 0x024 clsEcc 0x33 0 0) c

/-- The cycles of a line, and a context switch where the line belongs to another context or port than the last
(R224, R233). -/
def Chip.pipeCount (c : Chip) (f : Frame) : Chip :=
  let key := if f.mode = 0 then 8 else f.port
  let c := c.count 0x024 0x040 (f.w / 2)
  let c := if c.ntx.lastPort.any fun k => k != key then c.count 0x024 0x044 else c
  { c with ntx := { c.ntx with lastPort := some key } }

/-- An in-line frame completes when all its lines are taken and its capture ended OK. -/
def inlineDone (it : PipeItem) : WM Unit := do
  if it.closed ∧ it.waiting = [] ∧ it.pos = it.frame.h then
    chipM fun c => { c with ntx := { c.ntx with inl := c.ntx.inl.filter fun (x : PipeItem) => !x.frame.is it.frame } }
    itemDone it

/-- The pipeline takes a line of in-line input. -/
def takeInline (it : PipeItem) (parity : List Nat) : WM Unit := do
  match it.waiting with
  | [] => pure ()
  | l :: rest =>
    let n := (parity.eraseDups.filter fun i => decide (i * (if it.frame.depth = 8 then 8 else 4) < it.frame.w)).length
    let it' := { it with waiting := rest, pos := it.pos + 1, taken := it.taken ++ [parityLine it.frame.depth parity (l.map some)] }
    chipM fun c => ({ c with ntx := { c.ntx with
        inl := c.ntx.inl.map fun (x : PipeItem) => if x.frame.is it.frame then it' else x } }.pipeCount it.frame).pipeParity n
    inlineDone it'

/-- A line of the raw tensor read for the memory context (R222). -/
def loadRaw (f : Frame) (y : Nat) : EM (List (Option Nat)) := do
  match f.opd 4 0x30 with
  | none => throw 0x24
  | some o =>
    let vs ← (lineVecs o (slotOf o f.num) 0 y).mapM fun lin => loadVec o lin
    return (vs.flatMap fun v => v.lanes).take f.w |>.map fun x => x.map Int.toNat

/-- The pipeline takes a line of memory work. -/
def takeMemory (it : PipeItem) (parity : List Nat) : WM Unit := do
  match ← (loadRaw it.frame it.pos).run with
  | .error _ => failFrame it.frame 13
  | .ok l =>
    let n := (parity.eraseDups.filter fun i => decide (i * (if it.frame.depth = 8 then 8 else 4) < it.frame.w)).length
    let it' := { it with pos := it.pos + 1, taken := it.taken ++ [parityLine it.frame.depth parity l] }
    chipM fun c => ({ c with ntx := { c.ntx with mem := some it' } }.pipeCount it.frame).pipeParity n
    if it.inHi < it'.pos then
      chipM fun c => { c with ntx := { c.ntx with mem := none } }
      itemDone it'

/-- The pipeline is held in reset (R443), or the Narthex has failed (R481). -/
def Chip.pipeHeld (c : Chip) : Bool := c.pwr.held || c.resetBusy 0x024 || c.bit 0x005 0x060 8

/-- PIPELINE_LINE: a whole line of in-line input goes before memory work (R221). -/
def execPipelineLine (parity : List Nat) (s : State) : Host.Outcome State Fault Refusal :=
  s.onMem do
    let c ← getChip
    if c.pipeHeld ∨ c.tripped then pure ()
    else match c.ntx.inl.find? fun it => it.waiting != [], c.ntx.mem with
      | some it, _ => takeInline it parity
      | none, some it => takeMemory it parity
      | none, none => pure ()

/-- The memory context takes the work that became ready first, if it is of this port and mode (R221). -/
def Chip.memStart (c : Chip) (p mode : Nat) : Chip :=
  match c.ntx.mem, c.ntx.ready with
  | none, it :: rest =>
    if it.frame.port = p ∧ it.frame.mode = mode ∧ !c.pipeHeld then { c with ntx := { c.ntx with mem := some it, ready := rest } } else c
  | _, _ => c

/-- MEM_FRAME_START (R222). -/
def execMemFrameStart (port : Fin 4) (s : State) : Host.Outcome State Fault Refusal := .next (s.onChip fun c => c.memStart port 1)

/-- STRIPE_START (R223). -/
def execStripeStart (port : Fin 4) (s : State) : Host.Outcome State Fault Refusal := .next (s.onChip fun c => c.memStart port 2)

end Sys2Proof.Machine
end

