-- ==== Sys2Proof/Machine/Camera.lean ====
section
/-! DEFINITION. The camera ports of the Narthex (chapter 9): port enable (R214), frame starts and tags (R217,
R218), lines and their errors (R215, R216), raw tensors and stripes (R222, R223), clock faults (R216, R231) and the
pins that a port drives (R230, R232). -/

namespace Sys2Proof.Machine

/-! Port enable (R214, R222, R226). -/

/-- PIPE_MODE, b, and the active size of a port. -/
def Chip.camMode (c : Chip) (p : Nat) : Nat := c.fld (pgCam p) 0x040 30 2
def Chip.camBits (c : Chip) (p : Nat) : Nat := 8 + 2 * c.fld (pgCam p) 0x040 16 3
def Chip.camW (c : Chip) (p : Nat) : Nat := c.fld (pgCam p) 0x044 0 13
def Chip.camH (c : Chip) (p : Nat) : Nat := c.fld (pgCam p) 0x044 16 13

/-- The pipeline control word of a port, page 0x024 +0x00. -/
def pipeOff (p k : Nat) : Nat := 0x080 + 0x40 * p + k

/-- DEMOSAIC_EN applies to the port's OUT tap. -/
def Chip.camDemosaic (c : Chip) (p : Nat) : Bool := c.bit 0x024 (pipeOff p 0) 28 && c.fld (pgCam p) 0x040 12 3 != 0

/-- The handle of tap k, or of the raw tensor (4). -/
def Chip.camHandle (c : Chip) (p k : Nat) : Nat :=
  if k = 4 then c.fld (pgCam p) 0x04C 0 16 else c.fld 0x024 (pipeOff p (0x20 + 4 * (k / 2))) (16 * (k % 2)) 16

/-- The descriptor of a handle meets R222 (k = 4) or R226. -/
def Chip.camHandleOk (c : Chip) (p k : Nat) (d : Desc) : Bool :=
  let sizes := if k = 3 ∧ c.camDemosaic p then [c.camW p, c.camH p, 3] else [c.camW p, c.camH p]
  d.ndim == sizes.length + 1 && d.sizes.take sizes.length == sizes && d.vdim == 0 && d.writable && d.comp == 0 && !d.scaleEn &&
  d.type == (if c.camBits p = 8 then 2 else 4) && (k != 4 || (d.readable && decide (2 ≤ d.size 2)))

/-- The descriptors of a port's handles that meet their rules. -/
def Chip.camDescs (c : Chip) (p : Nat) : List (Nat × List DWord) :=
  (List.range 5).filterMap fun k => match c.copyDesc (c.fld (pgCam p) 0x040 0 4) (c.camHandle p k) with
    | .ok s => if c.camHandleOk p k (Desc.ofWords s.qw) then some (k, s.qw) else none
    | .error _ => none

/-- The number of the first failing check of R214, 0 if none fails. -/
def Chip.camCheck (c : Chip) (p : Nat) : Nat :=
  let mode := c.camMode p
  let w := c.camW p
  let h := c.camH p
  let cfa := c.fld (pgCam p) 0x040 12 3
  let stripe := c.fld (pgCam p) 0x04C 16 11
  let have' := (c.camDescs p).map Prod.fst
  if mode = 3 ∨ (mode = 0 ∧ (List.range 4).any fun o => o != p && c.enabled (pgCam o) && c.camMode o == 0) then 1
  else if 5 ≤ c.fld (pgCam p) 0x040 16 3 ∨ 5 ≤ cfa then 2
  else if w % 2 = 1 ∨ w < 16 ∨ 4096 < w ∨ h < 16 ∨ 4096 < h ∨ (cfa ≠ 0 ∧ h % 2 = 1) then 3
  else if mode = 2 ∧ (stripe % 16 ≠ 0 ∨ stripe < 16 ∨ 1024 < stripe) then 4
  else if !c.ctxEnabled (c.fld (pgCam p) 0x040 0 4) then 5
  else if (mode != 0 && !have'.contains 4) || (List.range 4).any fun k => c.bit 0x024 (pipeOff p 0) (24 + k) && !have'.contains k then 6
  else 0

/-- CTRL.ENABLE of a port page going to 1 (R199, R214, R217). -/
def Chip.portEnable (c : Chip) (req : Requester) (p : Nat) : Chip :=
  if c.enabled (pgCam p) then c
  else
    let bad := c.camCheck p
    let c := c.setBit (pgCam p) 0x00C 0 true
    if bad ≠ 0 then (c.setBit (pgCam p) 0x010 8 true).logErr (pgCam p) clsUse 0x05 (ownerCode req) (word bad)
    else
      let x := c.ntxPort p
      let c := c.noteDescReads ((List.range 5).map (c.camHandle p))
      (c.setNtxPort p { x with cap := none, next := 0, tags := [], descs := c.camDescs p, gen := x.gen + 1 }).dmdPortEnable p

/-- PORT_ENABLE. -/
def execPortEnable (req : Requester) (port : Fin 4) (s : State) : Host.Outcome State Fault Refusal :=
  .next (s.onChip fun c => c.gated req (pgCam port) 0x00C fun c => c.portEnable req port)

/-! The end of a capture (R216, R220). -/

/-- The piece of work of a whole frame. -/
def wholeFrame (f : Frame) : PipeItem :=
  { frame := f, inHi := f.h - 1, pos := 0, first := 0, outLo := 0, outHi := f.h - 1 }

/-- A frame being captured ends with a status (R216, R220, R222). -/
def captureEnd (p status : Nat) : WM Unit := do
  let x := (← getChip).ntxPort p
  match x.cap with
  | none => pure ()
  | some k =>
    if k.ended then pure ()
    else
      chipM fun c => (c.setNtxPort p { c.ntxPort p with cap := some { k with ended := true } }).captureCount p status
      let f := k.frame
      if status ≠ 0 then errorFrame f status
      else if f.mode = 0 then
        chipM fun c => { c with ntx := { c.ntx with
          inl := c.ntx.inl.map fun (it : PipeItem) => if it.frame.is f then { it with closed := true } else it } }
        match (← getChip).ntx.inl.find? fun it => it.frame.is f with
        | some it => inlineDone it
        | none => pure ()
      else if f.mode = 1 then chipM fun c => { c with ntx := { c.ntx with ready := c.ntx.ready ++ [wholeFrame f] } }
      else
        let ls := ((← getChip).ntxPort p).doneOf f
        if ls.length = f.h then frameOut f ls

/-! Frame starts (R217, R218, R229). -/

/-- The values a frame latches at its start (R229). -/
def Chip.newFrame (c : Chip) (p num time : Nat) (tag : Tag) : Frame :=
  let b := fun k => c.fld 0x024 (pipeOff p (4 + 4 * (k / 2))) (16 * (k % 2)) 16
  { port := p, num := num, tag := tag, time := time, ctx := c.fld (pgCam p) 0x040 0 4, w := c.camW p, h := c.camH p,
    depth := c.camBits p, cfa := c.fld (pgCam p) 0x040 12 3, ctl := (c.rd 0x024 (pipeOff p 0)).toNat, black := [b 0, b 1, b 2, b 3],
    thresh := c.fld 0x024 (pipeOff p 0x0C) 0 16, defMap := c.rd64 0x024 (pipeOff p 0x10), shadeMap := c.rd64 0x024 (pipeOff p 0x18),
    sharp := (c.rd 0x025 (0x080 + 0x20 * p + 0x0C)).toNat, satLevel := ((c.dmdPort p).latch tag).satLevel, mode := c.camMode p,
    stripe := c.fld (pgCam p) 0x04C 16 11, vstart := c.fld (pgCam p) 0x048 16 12, hstart := c.fld (pgCam p) 0x048 0 12,
    debug := c.debugOn [pgCam p, 0x024, 0x025], gen := (c.ntxPort p).gen, descs := (c.ntxPort p).descs }

/-- The moment a trigger leaves the window. -/
def Chip.windowEnd (c : Chip) (p t : Nat) : Nat := t + 10 * c.fld (pgCam p) 0x050 0 20

/-- Pending tags whose window has expired are discarded and counted (R218). -/
def Chip.dropTags (c : Chip) (p : Nat) : Chip :=
  let x := c.ntxPort p
  let live := x.tags.filter fun t => decide (c.time.now ≤ c.windowEnd p t.2)
  let n := x.tags.length - live.length
  if n = 0 then c
  else ((c.setNtxPort p { x with tags := live }).count (pgCam p) 0x074 n).raise (pgCam p) 3

/-- The raw slot of a memory-fed frame: the base of its tensor and the index in dimension 2 (R222). -/
def Frame.rawSlot (f : Frame) : Nat × Nat := ((f.opd 4 0).map fun o => (o.d.base, slotOf o f.num)).getD (0, 0)

/-- A frame start (R216-R218, R222): the next number, a tag, and the errors that a frame has at its start. -/
def frameStart (p blankPclk : Nat) : WM Unit := do
  chipM fun c => c.dropTags p
  let (t, c) ← modifyGet fun w => (((w.chip.time.tb.toNat), w.chip), w)
  let x := c.ntxPort p
  let trig := c.bit (pgCam p) 0x040 24
  let tag := if trig then (x.tags.head?.map Prod.fst).getD {} else {}
  let num := x.next
  let f := c.newFrame p num t tag
  let full := f.mode != 0 && x.busy.any fun b => b.2 == f.rawSlot
  let bad := if blankPclk < 64 then 5 else if trig ∧ x.tags = [] then 10 else if full then 11 else 0
  chipM fun c =>
    let c := c.setNtxPort p { x with
      cap := some { frame := f }, next := (num + 1) % 2 ^ 32, tags := if trig then x.tags.drop 1 else x.tags
      busy := if f.mode != 0 && bad == 0 then x.busy ++ [(f.key, f.rawSlot)] else x.busy }
    let c := (c.wr (pgCam p) 0x060 (word num)).setBit (pgCam p) 0x010 9 true
    if f.mode = 0 ∧ bad = 0 then { c with ntx := { c.ntx with inl := c.ntx.inl ++ [wholeFrame f] } } else c
  if bad ≠ 0 then captureEnd p bad

/-- A port captures: it is enabled with a valid configuration, neither in reset nor QUARANTINED, and its clock is
good (R217, R230). -/
def Chip.camRuns (c : Chip) (p : Nat) : Bool :=
  c.enabled (pgCam p) && !c.bit (pgCam p) 0x010 8 && !c.resetBusy (pgCam p) && c.leaseState (pgCam p) != 2 && !(c.ntxPort p).clkBad &&
  !c.bit 0x005 0x060 8

/-- FRAME_START: an active edge of VSYNC after `blankPclk` inactive cycles. -/
def execFrameStart (port : Fin 4) (blankPclk : Nat) (s : State) : Host.Outcome State Fault Refusal :=
  s.onMem do
    let c ← getChip
    if c.camRuns port ∧ ((c.ntxPort port).cap).isNone then frameStart port blankPclk

/-- TRIG_WINDOW_EXPIRY: time moves to the end of the oldest pending tag's window, and the tag is discarded
(R218). -/
def execTrigWindowExpiry (port : Fin 4) (s : State) : Host.Outcome State Fault Refusal :=
  .next (s.onChip fun c => match (c.ntxPort port).tags with
    | [] => c
    | t :: _ => (c.advance (c.windowEnd port t.2 + 1)).dropTags port)

/-! Lines (R215, R216). -/

/-- The runs of active DE in a line: first sample and length. -/
def deRuns : List Bool → Nat → Nat → List (Nat × Nat)
  | [], k, n => if n = 0 then [] else [(k - n, n)]
  | true :: l, k, n => deRuns l (k + 1) (n + 1)
  | false :: l, k, n => if n = 0 then deRuns l (k + 1) 0 else (k - n, n) :: deRuns l (k + 1) 0

/-- The first error in PCLK order, the lowest code where several arise together. -/
def firstError (l : List (Nat × Nat)) : Nat :=
  (l.foldl (fun (a : Option (Nat × Nat)) e => match a with
    | none => some e
    | some b => if e.1 < b.1 ∨ (e.1 = b.1 ∧ e.2 < b.2) then some e else some b) none).elim 0 Prod.snd

/-- The samples of a line that are active pixels, with their places (R215). -/
def Chip.activePx (c : Chip) (k : Capture) (l : CapLine) : List (Nat × Nat) :=
  let f := k.frame
  let de := c.bit (pgCam f.port) 0x040 29
  let low := c.bit (pgCam f.port) 0x040 26
  let vals := l.samples.zipIdx.map fun (s, i) => (i, s.1.toNat % 2 ^ f.depth, s.2 != low)
  (if de then vals.filter fun v => v.2.2 else (vals.drop f.hstart).take f.w).map fun v => (v.1, v.2.1)

/-- The free pixels of a port's capture FIFO (R211): an in-line port's lines that the pipeline has not taken stand in it. -/
def Chip.fifoRoom (c : Chip) (f : Frame) : Nat :=
  8192 - (((c.ntx.inl.filter fun it => it.frame.is f).flatMap fun it => it.waiting).map List.length).sum

/-- The errors of a line: place in PCLK order (0 before the line, 1 at its beginning, 2 + i at sample i) and code (R216). -/
def Chip.lineErrors (c : Chip) (k : Capture) (l : CapLine) : List (Nat × Nat) :=
  let f := k.frame
  let de := c.bit (pgCam f.port) 0x040 29
  let low := c.bit (pgCam f.port) 0x040 26
  let n := l.samples.length
  let counted := decide (f.vstart ≤ k.lines)
  let px := c.activePx k l
  let runs := if de then deRuns (l.samples.map fun s => s.2 != low) 0 0 else []
  (if k.lines ≠ 0 ∧ l.blankBefore < 8 then [(1, 5)] else []) ++
  (if counted ∧ k.counted = f.h then [(1, 4)] else []) ++
  (l.glitchAt.toList.map fun g => (g, 6)) ++
  (if n < 2 then [(n + 2, 6)] else []) ++
  ((runs.filter fun r => decide (r.2 < 2)).map fun r => (r.1 + r.2 + 2, 6)) ++
  ((runs.drop 1).map fun r => (r.1 + 2, 6)) ++
  (if counted ∧ px.length < f.w then [(n + 2, 1)] else []) ++
  (if counted ∧ f.w < px.length then [((px.getD f.w (0, 0)).1 + 2, 2)] else []) ++
  (match l.fullAt with
    | some i => if counted && px.any fun v => v.1 == i then [(i + 2, 7)] else []
    | none => []) ++
  (if counted ∧ c.fifoRoom f < px.length then [((px.getD (c.fifoRoom f) (0, 0)).1 + 2, 7)] else [])

/-- The stripes that become ready once an input line has been written (R223). -/
def readyStripes (f : Frame) (y : Nat) : List PipeItem :=
  (List.range ((f.h + f.stripe - 1) / f.stripe)).filterMap fun k =>
    let hi := min (k * f.stripe + f.stripe + 2) (f.h - 1)
    let out := min (k * f.stripe + f.stripe) f.h - 1
    if hi = y then
      some { frame := f, inHi := hi, pos := k * f.stripe - 3, first := k * f.stripe - 3, outLo := k * f.stripe, outHi := out,
             last := out == f.h - 1 }
    else none

/-- A counted line without error: in-line input, or a line of the raw tensor (R211, R222, R223). -/
def takeLine (p : Nat) (k : Capture) (px : List Nat) : WM Unit := do
  let f := k.frame
  if f.mode = 0 then
    chipM fun c => { c with ntx := { c.ntx with
      inl := c.ntx.inl.map fun (it : PipeItem) => if it.frame.is f then { it with waiting := it.waiting ++ [px] } else it } }
  else match f.opd 4 (0x2C + p) with
    | none => captureEnd p 13
    | some o =>
      match ← (storeLine o (slotOf o f.num) 0 k.counted (px.map some)).run with
      | .error _ => captureEnd p 13
      | .ok _ =>
        if f.mode = 2 then chipM fun c => { c with ntx := { c.ntx with ready := c.ntx.ready ++ readyStripes f k.counted } }

/-- A line ends (R215, R216). -/
def lineEnd (p : Nat) (l : CapLine) : WM Unit := do
  let c ← getChip
  match (c.ntxPort p).cap with
  | none => pure ()
  | some k =>
    if k.ended then pure ()
    else
      let bad := if c.tripped then 7 else firstError (c.lineErrors k l)
      if bad ≠ 0 then captureEnd p bad
      else
        let counted := decide (k.frame.vstart ≤ k.lines)
        chipM fun c => c.setNtxPort p { c.ntxPort p with
          cap := some { k with lines := k.lines + 1, counted := k.counted + counted.toNat } }
        if counted then takeLine p k ((c.activePx k l).map Prod.snd)

/-- LINE_END. -/
def execLineEnd (port : Fin 4) (line : CapLine) (s : State) : Host.Outcome State Fault Refusal := s.onMem (lineEnd port line)

/-- VSYNC goes inactive (R216); a sync glitch since the last line came first in PCLK order. -/
def frameEnd (p : Nat) (glitch : Bool) : WM Unit := do
  match ((← getChip).ntxPort p).cap with
  | none => pure ()
  | some k =>
    captureEnd p (if glitch then 6 else if k.counted < k.frame.h then 3 else 0)
    chipM fun c => c.setNtxPort p { c.ntxPort p with cap := none }

/-- FRAME_END. -/
def execFrameEnd (port : Fin 4) (glitch : Bool) (s : State) : Host.Outcome State Fault Refusal := s.onMem (frameEnd port glitch)

/-! Disable, reset and quarantine (R230, R526). -/

/-- The frame being captured ends ABORTED and the pending tags are discarded (R230). -/
def camAbort (p : Nat) : WM Unit := do
  captureEnd p 12
  chipM fun c => c.setNtxPort p { c.ntxPort p with cap := none, tags := [] }

/-- CTRL.ENABLE of a port page cleared (R205, R214, R230). -/
def portDisable (p : Nat) : WM Unit := do
  if (← getChip).enabled (pgCam p) then
    camAbort p
    dmdBreak p
    chipM fun c => (c.setBit (pgCam p) 0x00C 0 false).setBit (pgCam p) 0x010 8 false

/-- PORT_DISABLE. -/
def execPortDisable (req : Requester) (port : Fin 4) (s : State) : Host.Outcome State Fault Refusal :=
  s.onMem (gatedM req (pgCam port) 0x00C (portDisable port))

/-- The frames whose processing the pipeline has begun: in-line ones, the one in the memory context, and those with a stripe done. -/
def Chip.pipeFrames (c : Chip) : List Frame :=
  let striped := (List.range 4).flatMap fun p =>
    let x := c.ntxPort p
    ((x.cap.toList.filter fun k => !k.ended).map (fun k => k.frame) ++ c.inPipe p).filter fun f => x.done.any fun d => d.1 == f.key
  ((c.ntx.inl ++ c.ntx.mem.toList).map PipeItem.frame ++ striped).eraseDups

/-- SOFT_RESET of page 0x024 (R526): each frame in the pipeline ends ABORTED; a memory-fed frame not yet started
is kept. -/
def pipeSoftReset : WM Unit := do
  for f in (← getChip).pipeFrames do failFrame f 12

/-! Clock faults (R216, R217, R231). -/

/-- The port's clock is lost or too fast: the frame ends. -/
def clockBad (p status : Nat) : WM Unit := do
  captureEnd p status
  chipM fun c => c.setNtxPort p { c.ntxPort p with cap := none, clkBad := true }

/-- CLK_LOST: no PCLK edge for 12.8 µs. -/
def execClkLost (port : Fin 4) (s : State) : Host.Outcome State Fault Refusal :=
  s.onMem do
    chipM fun c => (c.setBit (pgCam port) 0x010 2 true).setFld (pgCam port) 0x064 8 16 0
    clockBad port 8

/-- PCLK_FAST: the number of PCLK edges of a 12.8 µs window; above 2000 the frame ends. -/
def execPclkFast (port : Fin 4) (edges : BitVec 16) (s : State) : Host.Outcome State Fault Refusal :=
  s.onMem do
    chipM fun c => c.setFld (pgCam port) 0x064 8 16 edges.toNat
    if 2000 < edges.toNat then clockBad port 9

/-- PCLK_RETURNS: capture waits for the next active edge of VSYNC (R230). -/
def execPclkReturns (port : Fin 4) (s : State) : Host.Outcome State Fault Refusal :=
  .next (s.onChip fun c =>
    (c.setBit (pgCam port) 0x010 2 false).setNtxPort port { c.ntxPort port with clkBad := false, cap := none })

/-! Software trigger and sensor reset (R230, R232). -/

/-- A write of 1 to TRIG_SW: refused while an enabled sequencer drives the port, else the trigger is active for
1.00 µs with tag NONE. -/
def Chip.trigSw (c : Chip) (req : Requester) (p : Nat) : Chip :=
  if (c.seqOfPort p).isSome then c.logUse (pgCam p) 0x10 req (regAddr (pgCam p) 0x058)
  else
    let c := { c with lis := { c.lis with trigs := c.lis.trigs ||| 2 ^ p } }
    (c.setNtxPort p { c.ntxPort p with swTrig := some (c.time.now + 1000) }).trigTag p {}

/-- TRIG_SW. -/
def execTrigSw (req : Requester) (port : Fin 4) (s : State) : Host.Outcome State Fault Refusal :=
  .next (s.onChip fun c => c.gated req (pgCam port) 0x058 fun c => c.trigSw req port)

/-- TRIG_SW_END: the software trigger's 1.00 µs end. -/
def execTrigSwEnd (port : Fin 4) (s : State) : Host.Outcome State Fault Refusal :=
  .next (s.onChip fun c => match (c.ntxPort port).swTrig with
    | none => c
    | some t =>
      let c := c.advance t
      { c with lis := { c.lis with trigs := c.lis.trigs &&& (15 - 2 ^ port.val) } }.setNtxPort port { c.ntxPort port with swTrig := none })

/-- RST_ASSERT: the port's CAM_n_RSTB is driven low while it is 1 (R212, R232). -/
def execRstAssert (req : Requester) (port : Fin 4) (level : Bool) (s : State) : Host.Outcome State Fault Refusal :=
  .next (s.onChip fun c => c.gated req (pgCam port) 0x058 fun c => c.setBit (pgCam port) 0x058 0 level)

end Sys2Proof.Machine
end

