-- ==== Sys2Proof/Machine/Sha.lean ====
section
/-! DEFINITION. The digests the spec names: SHA-256 for Ledger plates (R396) and SHA-384 for graph images and boot
(R310, R437), by the standard's round functions over numbers. -/

namespace Sys2Proof.Machine

/-- The round constants of SHA-256. -/
def shaK256 : List Nat :=
  [0x428A2F98, 0x71374491, 0xB5C0FBCF, 0xE9B5DBA5, 0x3956C25B, 0x59F111F1, 0x923F82A4, 0xAB1C5ED5] ++
  [0xD807AA98, 0x12835B01, 0x243185BE, 0x550C7DC3, 0x72BE5D74, 0x80DEB1FE, 0x9BDC06A7, 0xC19BF174] ++
  [0xE49B69C1, 0xEFBE4786, 0x0FC19DC6, 0x240CA1CC, 0x2DE92C6F, 0x4A7484AA, 0x5CB0A9DC, 0x76F988DA] ++
  [0x983E5152, 0xA831C66D, 0xB00327C8, 0xBF597FC7, 0xC6E00BF3, 0xD5A79147, 0x06CA6351, 0x14292967] ++
  [0x27B70A85, 0x2E1B2138, 0x4D2C6DFC, 0x53380D13, 0x650A7354, 0x766A0ABB, 0x81C2C92E, 0x92722C85] ++
  [0xA2BFE8A1, 0xA81A664B, 0xC24B8B70, 0xC76C51A3, 0xD192E819, 0xD6990624, 0xF40E3585, 0x106AA070] ++
  [0x19A4C116, 0x1E376C08, 0x2748774C, 0x34B0BCB5, 0x391C0CB3, 0x4ED8AA4A, 0x5B9CCA4F, 0x682E6FF3] ++
  [0x748F82EE, 0x78A5636F, 0x84C87814, 0x8CC70208, 0x90BEFFFA, 0xA4506CEB, 0xBEF9A3F7, 0xC67178F2]

/-- The round constants of SHA-384. -/
def shaK512 : List Nat :=
  [0x428A2F98D728AE22, 0x7137449123EF65CD, 0xB5C0FBCFEC4D3B2F, 0xE9B5DBA58189DBBC] ++
  [0x3956C25BF348B538, 0x59F111F1B605D019, 0x923F82A4AF194F9B, 0xAB1C5ED5DA6D8118] ++
  [0xD807AA98A3030242, 0x12835B0145706FBE, 0x243185BE4EE4B28C, 0x550C7DC3D5FFB4E2] ++
  [0x72BE5D74F27B896F, 0x80DEB1FE3B1696B1, 0x9BDC06A725C71235, 0xC19BF174CF692694] ++
  [0xE49B69C19EF14AD2, 0xEFBE4786384F25E3, 0x0FC19DC68B8CD5B5, 0x240CA1CC77AC9C65] ++
  [0x2DE92C6F592B0275, 0x4A7484AA6EA6E483, 0x5CB0A9DCBD41FBD4, 0x76F988DA831153B5] ++
  [0x983E5152EE66DFAB, 0xA831C66D2DB43210, 0xB00327C898FB213F, 0xBF597FC7BEEF0EE4] ++
  [0xC6E00BF33DA88FC2, 0xD5A79147930AA725, 0x06CA6351E003826F, 0x142929670A0E6E70] ++
  [0x27B70A8546D22FFC, 0x2E1B21385C26C926, 0x4D2C6DFC5AC42AED, 0x53380D139D95B3DF] ++
  [0x650A73548BAF63DE, 0x766A0ABB3C77B2A8, 0x81C2C92E47EDAEE6, 0x92722C851482353B] ++
  [0xA2BFE8A14CF10364, 0xA81A664BBC423001, 0xC24B8B70D0F89791, 0xC76C51A30654BE30] ++
  [0xD192E819D6EF5218, 0xD69906245565A910, 0xF40E35855771202A, 0x106AA07032BBD1B8] ++
  [0x19A4C116B8D2D0C8, 0x1E376C085141AB53, 0x2748774CDF8EEB99, 0x34B0BCB5E19B48A8] ++
  [0x391C0CB3C5C95A63, 0x4ED8AA4AE3418ACB, 0x5B9CCA4F7763E373, 0x682E6FF3D6B2B8A3] ++
  [0x748F82EE5DEFB2FC, 0x78A5636F43172F60, 0x84C87814A1F0AB72, 0x8CC702081A6439EC] ++
  [0x90BEFFFA23631E28, 0xA4506CEBDE82BDE9, 0xBEF9A3F7B2C67915, 0xC67178F2E372532B] ++
  [0xCA273ECEEA26619C, 0xD186B8C721C0C207, 0xEADA7DD6CDE0EB1E, 0xF57D4F7FEE6ED178] ++
  [0x06F067AA72176FBA, 0x0A637DC5A2C898A6, 0x113F9804BEF90DAE, 0x1B710B35131C471B] ++
  [0x28DB77F523047D84, 0x32CAAB7B40C72493, 0x3C9EBE0A15C9BEBC, 0x431D67C49C100D4C] ++
  [0x4CC5D4BECB3E42B6, 0x597F299CFC657E2A, 0x5FCB6FAB3AD6FAEC, 0x6C44198C4A475817]

/-- The initial state of SHA-256. -/
def shaH256 : List Nat :=
  [0x6A09E667, 0xBB67AE85, 0x3C6EF372, 0xA54FF53A, 0x510E527F, 0x9B05688C, 0x1F83D9AB, 0x5BE0CD19]

/-- The initial state of SHA-384. -/
def shaH384 : List Nat :=
  [0xCBBB9D5DC1059ED8, 0x629A292A367CD507, 0x9159015A3070DD17, 0x152FECD8F70E5939] ++
  [0x67332667FFC00B31, 0x8EB44A8768581511, 0xDB0C2E0D64F98FA7, 0x47B5481DBEFA4FA4]

/-- Rotation of a w-bit number to the right. -/
def rotr (w n x : Nat) : Nat := x / 2 ^ n + x % 2 ^ n * 2 ^ (w - n)

/-- The parameters of a digest of this kind: word width, the rotation amounts of its four functions, and its round
constants. -/
structure ShaKind where
  w : Nat
  big0 : Nat × Nat × Nat
  big1 : Nat × Nat × Nat
  small0 : Nat × Nat × Nat
  small1 : Nat × Nat × Nat
  k : List Nat

/-- SHA-256. -/
def kind256 : ShaKind :=
  { w := 32, big0 := (2, 13, 22), big1 := (6, 11, 25), small0 := (7, 18, 3), small1 := (17, 19, 10), k := shaK256 }

/-- SHA-384, a SHA-512 with its own initial state. -/
def kind384 : ShaKind :=
  { w := 64, big0 := (28, 34, 39), big1 := (14, 18, 41), small0 := (1, 8, 7), small1 := (19, 61, 6), k := shaK512 }

/-- Three rotations combined. -/
def ShaKind.big (s : ShaKind) (r : Nat × Nat × Nat) (x : Nat) : Nat :=
  (rotr s.w r.1 x).xor ((rotr s.w r.2.1 x).xor (rotr s.w r.2.2 x))

/-- Two rotations and a shift combined. -/
def ShaKind.small (s : ShaKind) (r : Nat × Nat × Nat) (x : Nat) : Nat :=
  (rotr s.w r.1 x).xor ((rotr s.w r.2.1 x).xor (x / 2 ^ r.2.2))

/-- The big-endian words of bytes. -/
def beWords (n : Nat) : Nat → List Byte → List Nat
  | 0, _ => []
  | k + 1, bs => (bs.take n).foldl (fun a b => 256 * a + b.toNat) 0 :: beWords n k (bs.drop n)

/-- The big-endian bytes of a number. -/
def beBytes (n v : Nat) : List Byte := (List.range n).map fun i => BitVec.ofNat 8 (v / 256 ^ (n - 1 - i))

/-- The message schedule, its latest word first. -/
def ShaKind.extend (s : ShaKind) : Nat → List Nat → List Nat
  | 0, ws => ws
  | k + 1, ws =>
    let at' := fun i => ws.getD i 0
    s.extend k ((s.small s.small1 (at' 1) + at' 6 + s.small s.small0 (at' 14) + at' 15) % 2 ^ s.w :: ws)

/-- One round over the eight working words. -/
def ShaKind.round (s : ShaKind) (v : List Nat) (kw : Nat × Nat) : List Nat :=
  match v with
  | [a, b, c, d, e, f, g, h] =>
    let m := 2 ^ s.w
    let ch := (e.land f).xor ((m - 1 - e).land g)
    let maj := (a.land b).xor ((a.land c).xor (b.land c))
    let t1 := h + s.big s.big1 e + ch + kw.1 + kw.2
    let t2 := s.big s.big0 a + maj
    [(t1 + t2) % m, a, b, c, (d + t1) % m, e, f, g]
  | _ => v

/-- One block absorbed. -/
def ShaKind.block (s : ShaKind) (h : List Nat) (bs : List Byte) : List Nat :=
  let ws := (s.extend (s.k.length - 16) (beWords (s.w / 8) 16 bs).reverse).reverse
  let v := (s.k.zip ws).foldl s.round h
  (h.zip v).map fun (x, y) => (x + y) % 2 ^ s.w

/-- Blocks absorbed in order. -/
def ShaKind.blocks (s : ShaKind) : Nat → List Nat → List Byte → List Nat
  | 0, h, _ => h
  | k + 1, h, bs => s.blocks k (s.block h (bs.take (2 * s.w))) (bs.drop (2 * s.w))

/-- A digest of some words of the final state. -/
def ShaKind.digest (s : ShaKind) (h0 : List Nat) (n : Nat) (msg : List Byte) : List Byte :=
  let size := 2 * s.w
  let lenBytes := s.w / 4
  let zeros := (size - (msg.length + 1 + lenBytes) % size) % size
  let padded := msg ++ [0x80] ++ List.replicate zeros 0 ++ beBytes lenBytes (8 * msg.length)
  ((s.blocks (padded.length / size) h0 padded).take n).flatMap (beBytes (s.w / 8))

/-- SHA-256 (R396). -/
def sha256 (msg : List Byte) : List Byte := kind256.digest shaH256 8 msg

/-- SHA-384 (R310, R437). -/
def sha384 (msg : List Byte) : List Byte := kind384.digest shaH384 6 msg

end Sys2Proof.Machine
end

