-- ==== Sys2Proof/Machine/Carillon.lean ====
section
/-! DEFINITION. The Carillon bus (chapter 16): transactions, resets and supply gating of the controller (R382-R388, R395,
R401-R403), and the devices on a chain: their switches and addresses (R380, R383, R389), common commands (R390, R391),
lamp heads and pod controllers (R392-R394) and Ledger plates (R396-R400). -/

namespace Sys2Proof.Machine

/-! Frames (R384-R387). -/

/-- One bit into a CRC-16 of polynomial 0x1021. -/
def crc16Bit (crc : Nat) (b : Bool) : Nat :=
  let x := 2 * crc % 65536
  if (crc / 32768 == 1) != b then x.xor 0x1021 else x

/-- The CRC of a frame (R386). -/
def carCrc (bs : List Byte) : Nat :=
  bs.foldl (fun crc b => (List.range 8).foldl (fun crc i => crc16Bit crc (b.getLsbD (7 - i))) crc) 0xFFFF

/-- A frame with its CRC, low byte first. -/
def carFrame (bs : List Byte) : List Byte := bs ++ leBytes 2 (carCrc bs)

/-! Chains. -/

/-- A chain's state. -/
def Chip.chain (c : Chip) (n : Nat) : CarChain := (aget c.car.chains n).getD {}

/-- A chain's state replaced. -/
def Chip.setChain (c : Chip) (n : Nat) (x : CarChain) : Chip := { c with car := { c.car with chains := aput c.car.chains n x } }

/-- A device of a chain by place, 0 nearest the GV16. -/
def Chip.carDev (c : Chip) (n k : Nat) : CarDev := (aget (c.chain n).devs k).getD {}

/-- A device replaced. -/
def Chip.setDev (c : Chip) (n k : Nat) (d : CarDev) : Chip :=
  c.setChain n { c.chain n with devs := aput (c.chain n).devs k d }

/-- A device is reached: every pass switch before it is closed (R380). -/
def Chip.reached (c : Chip) (n k : Nat) : Bool := (List.range k).all fun j => (c.carDev n j).pass

/-- What a long reset leaves of a device (R383). -/
def CarDev.longReset (d : CarDev) : CarDev := { d with addr := 0, pass := false, stored := none }

/-- BUSY follows the transaction in progress. -/
def Chip.showBusy (c : Chip) (n : Nat) : Chip := c.setBit (pgCar n) 0x010 8 (c.chain n).txn.isSome

/-- CHAIN_EN. -/
def Chip.chainOn (c : Chip) (n : Nat) : Bool := c.bit (pgCar n) 0x040 0

/-! Resets (R382, R383). -/

/-- A reset of the chain: the devices it reaches, its presence check, and its bit cleared. -/
def Chip.carReset (c : Chip) (n : Nat) (long presence : Bool) : Chip :=
  let c := c.advance (c.time.now + (if long then 5000000 else 500000) + 300000)
  let hit := (List.range 16).filter (c.reached n)
  let c := if long && c.chainOn n then hit.foldl (fun (c : Chip) k => c.setDev n k (c.carDev n k).longReset) c else c
  let c := c.setBit (pgCar n) 0x040 (if long then 1 else 2) false
  if presence && c.chainOn n then c else (c.setFld (pgCar n) 0x06C 0 8 1).raise (pgCar n) 1

/-- LONG_RESET or SHORT_RESET set (R403): it starts at once, or after the transaction in progress. -/
def Chip.resetAsked (c : Chip) (n : Nat) (long presence : Bool) : Chip :=
  let c := c.setBit (pgCar n) 0x040 (if long then 1 else 2) true
  let x := c.chain n
  if x.txn.isSome then c.setChain n { x with waiting := x.waiting.filter (fun w => w.1 != long) ++ [(long, presence)] }
  else c.carReset n long presence

/-- LONG_RESET. -/
def execLongReset (req : Requester) (chain : Fin 2) (presence : Bool) (s : State) : Host.Outcome State Fault Refusal :=
  .next (s.onChip fun c => c.gated req (pgCar chain) 0x040 fun c => c.resetAsked chain true presence)

/-- SHORT_RESET. -/
def execShortReset (req : Requester) (chain : Fin 2) (presence : Bool) (s : State) : Host.Outcome State Fault Refusal :=
  .next (s.onChip fun c => c.gated req (pgCar chain) 0x040 fun c => c.resetAsked chain false presence)

/-! Protection (R51, R457, R459, R464). -/

/-- A reason recorded (R51): POLICY_CONFLICT, LAST_REASON and both counts. -/
def Chip.conflict (c : Chip) (reason : Nat) : Chip :=
  let c := (c.setBit 0x002 0x050 31 true).setFld 0x002 0x050 0 8 reason
  let c := ((c.count 0x002 0x058).count 0x002 (0x058 + 4 * reason)).raise 0x002 0
  c.logErr 0x002 clsProt (0x70 + reason) 0 0

/-- A protection case acts, by its reason. -/
def Chip.protOn (c : Chip) (reason : Nat) : Bool := c.bit 0x002 0x050 (23 + reason)

/-- Entry into a protection case that does not act yet. -/
def Chip.protEnter (c : Chip) (reason : Nat) : Chip :=
  if c.protOn reason then c else (c.setBit 0x002 0x050 (23 + reason) true).conflict reason

/-- POLICY_RAISE written: reason 3 only (R464). -/
def Chip.policyRaise (c : Chip) (v : Nat) : Chip := if v = 3 then c.protEnter 3 else c

/-! What the Sacristan firmware makes of the chains (R50, R51, R402, R404). -/

/-- The Sacristan firmware answers: MB_READY. -/
def Chip.mbReady (c : Chip) : Bool := c.bit 0x008 0x0C4 31

/-- A line in the firmware's own log. -/
def Chip.sacLog (c : Chip) (e : SacNote) : Chip := { c with fw := { c.fw with log := c.fw.log ++ [(c.time.now, e)] } }

/-- The key of a device in the firmware's tables. -/
def devKey (n addr : Nat) : Nat := 32 * n + addr

/-- PD_TIME and PD_VALID on both pages (R402). -/
def Chip.setPd (c : Chip) (t : Nat) (valid : Bool) : Chip :=
  [0, 1].foldl (fun (c : Chip) n => (c.wr64 (pgCar n) 0x090 t).wr (pgCar n) 0x098 (word valid.toNat)) c

/-- A good reply heard: a lamp head's RATING is kept and its OT raised, and a pod's notice passed into PD_TIME (R393,
R394). -/
def Chip.sacReply (c : Chip) (n : Nat) (t : CarTxn) (data : List Byte) : Chip :=
  let at' := fun i => (data.getD i 0).toNat
  if t.cmd = 0x11 ∧ data.length = 11 then
    let c := { c with fw := { c.fw with lamps := aput c.fw.lamps (devKey n t.addr) (at' 4 + 256 * at' 5) } }
    if at' 8 % 2 = 1 then c.gated .sac 0x002 0x054 fun c => c.policyRaise 3 else c
  else if t.cmd = 0x30 ∧ data.length = 7 ∧ at' 6 ≠ 0 then c.setPd (c.time.tb.toNat + at' 6 * 1000000000) true
  else c

/-- What the firmware makes of the end of a transaction: its reply, three polls of its own without an answer, and a line held
low, which clears CHAIN_EN. -/
def Chip.sacHears (c : Chip) (n : Nat) (t : CarTxn) (result : Nat) : Chip :=
  let key := devKey n t.addr
  if !c.mbReady then c
  else if result = 0 then
    let c := { c with fw := { c.fw with polls := adel c.fw.polls key } }
    match t.reply with
    | some (0 :: _ :: data) => c.sacReply n t data
    | _ => c
  else if result = 2 ∧ t.sac then
    let k := (aget c.fw.polls key).getD 0 + 1
    if 3 ≤ k then { c with fw := { c.fw with polls := adel c.fw.polls key, lamps := adel c.fw.lamps key } }.sacLog (.deviceLost n t.addr)
    else { c with fw := { c.fw with polls := aput c.fw.polls key k } }
  else if result = 6 then (c.setBit (pgCar n) 0x040 0 false).sacLog (.chainFailed n)
  else c

/-! Transactions (R387, R388, R395, R402, R403). -/

/-- The end of a transaction with a RESULT; resets that waited for it start. -/
def Chip.carEnd (c : Chip) (n result : Nat) : Chip :=
  let x := c.chain n
  let p := pgCar n
  let c := match result, x.txn with
    | 0, some t => match t.reply with
      | some (st :: len :: data) =>
        let c := c.wr p 0x06C (word (st.toNat * 2 ^ 16 + len.toNat * 2 ^ 8))
        data.zipIdx.foldl (fun (c : Chip) ((b, i) : Byte × Nat) => c.setFld p (0x070 + i / 4 * 4) (8 * (i % 4)) 8 b.toNat) c
      | _ => c
    | _, _ => c.setFld p 0x06C 0 8 result
  let c := ((c.setBit p 0x044 31 false).count p 0x0A4).raise p (if result = 0 then 0 else 1)
  let c := (c.setChain n { x with txn := none, waiting := [] }).showBusy n
  let c := match x.txn with
    | some t => c.sacHears n t result
    | none => c
  x.waiting.foldl (fun (c : Chip) w => c.carReset n w.1 w.2) c

/-- A LEDGER_COMMIT is refused (R402). -/
def Chip.gatedCommit (c : Chip) (n : Nat) (t : CarTxn) : Bool :=
  let p := pgCar n
  t.cmd == 0x23 &&
  (t.addr == 0 || !(c.bit p 0x0A0 (c.fld p 0x09C (2 * (t.addr - 1)) 2)) ||
   (c.bit p 0x098 0 && decide (c.rd64 p 0x090 ≤ c.time.tb.toNat + 500000000)))

/-- The first slot of a transaction or of a retry. -/
def Chip.carSend (c : Chip) (n : Nat) (t : CarTxn) : Chip :=
  let x := c.chain n
  if c.gatedCommit n t then ((c.setChain n { x with txn := some t }).count (pgCar n) 0x0B4).carEnd n 7
  else if t.sent ≠ [] then c.setChain n { x with txn := some t }
  else
    let seqs := x.seqs.xor (2 ^ t.addr)
    let head : List Byte := [BitVec.ofNat 8 (t.addr + 128 * bits seqs t.addr 1), BitVec.ofNat 8 t.cmd, BitVec.ofNat 8 t.payload.length]
    c.setChain n { x with txn := some { t with sent := carFrame (head ++ t.payload) }, seqs := seqs }

/-- The payload bytes in TX_DATA. -/
def Chip.txBytes (c : Chip) (n len : Nat) : List Byte :=
  (List.range len).map fun i => BitVec.ofNat 8 (c.fld (pgCar n) (0x04C + i / 4 * 4) (8 * (i % 4)) 8)

/-- GO written 1 (R384, R388, R395, R403). -/
def Chip.carGo (c : Chip) (req : Requester) (n : Nat) : Chip :=
  let p := pgCar n
  if (c.chain n).txn.isSome then c.logUse p 0x11 req (regAddr p 0x044)
  else
    let addr := c.fld p 0x044 16 5
    let len := c.fld p 0x044 0 6
    let t : CarTxn := { addr := addr, cmd := c.fld p 0x044 8 8, payload := c.txBytes n (min len 32), since := c.time.now, sac := req == .sac }
    let c := ((c.setBit p 0x044 31 true).setChain n { c.chain n with txn := some t }).showBusy n
    if 17 ≤ addr ∨ 33 ≤ len then c.carEnd n 10
    else if !c.chainOn n then c.carEnd n 9
    else if c.bit p 0x044 30 then
      c.setChain n { c.chain n with txn := some { t with boundary := some (c.fires (c.fld p 0x044 28 2)) } }
    else c.carSend n t

/-- CAR_GO. -/
def execCarGo (req : Requester) (chain : Fin 2) (s : State) : Host.Outcome State Fault Refusal :=
  .next (s.onChip fun c => c.gated req (pgCar chain) 0x044 fun c => c.carGo req chain)

/-- BOUNDARY_SEND: the LIS has fired chip K − 1 of the request's sequencer since the request began to wait (R395). -/
def execBoundarySend (chain : Fin 2) (s : State) : Host.Outcome State Fault Refusal :=
  .next (s.onChip fun c => match (c.chain chain).txn with
    | some t => match t.boundary with
      | some f =>
        let q := c.fld (pgCar chain) 0x044 28 2
        if t.sent = [] ∧ c.fires q ≠ f ∧ c.seqChip q = 0 then c.carSend chain t else c
      | none => c
    | none => c)

/-- TX_CANCEL written 1: a request that waits for its fire is dropped. -/
def Chip.txCancel (c : Chip) (n : Nat) : Chip :=
  match (c.chain n).txn with
  | some t => if t.sent = [] then c.carEnd n 8 else c
  | none => c

/-- TX_CANCEL. -/
def execTxCancel (req : Requester) (chain : Fin 2) (s : State) : Host.Outcome State Fault Refusal :=
  .next (s.onChip fun c => c.gated req (pgCar chain) 0x048 fun c => c.txCancel chain)

/-- A transaction in progress ended by a revocation, a reset of the page or CHAIN_EN (R403). -/
def Chip.carAbort (c : Chip) (n : Nat) : Chip := if (c.chain n).txn.isSome then c.carEnd n 9 else c

/-- CHAIN_EN written. -/
def Chip.chainEnTo (c : Chip) (n : Nat) (on : Bool) : Chip :=
  let c := c.setBit (pgCar n) 0x040 0 on
  if on then c else c.carAbort n

/-- CHAIN_EN. -/
def execChainEn (req : Requester) (chain : Fin 2) (on : Bool) (s : State) : Host.Outcome State Fault Refusal :=
  .next (s.onChip fun c => c.gated req (pgCar chain) 0x040 fun c => c.chainEnTo chain on)

/-- A CMD code that R390 reserves. -/
def cmdReserved (cmd : Nat) : Bool :=
  !(decide (1 ≤ cmd ∧ cmd ≤ 6) || cmd == 0x10 || cmd == 0x11 || decide (0x20 ≤ cmd ∧ cmd ≤ 0x25) || cmd == 0x30)

/-- The RESULT of an attempt. A device answers BAD_CMD to a reserved code. -/
def CarTxn.result (t : CarTxn) : WireEnd → Nat
  | .reply => if t.reply.isSome ∨ cmdReserved t.cmd then 0 else 2
  | .noPresence => 1 | .noReply => 2 | .crc => 3 | .len => 4 | .conflict => 5 | .stuck => 6

/-- An attempt ends (R388): it is tried again after a short reset, or the transaction ends. -/
def Chip.carAttempt (c : Chip) (n : Nat) (wire : WireEnd) : Chip :=
  match (c.chain n).txn with
  | none => c
  | some t =>
    if t.sent = [] then c
    else
      let r := t.result wire
      let p := pgCar n
      let c := if r = 2 then c.count p 0x0B0 else if r = 3 ∨ r = 5 then c.count p 0x0AC else c
      if 2 ≤ r ∧ r ≤ 5 ∧ t.boundary.isNone ∧ t.tries < c.fld p 0x040 4 4 then
        (c.count p 0x0A8).carSend n { t with tries := t.tries + 1, reply := none }
      else
        let t := if r = 0 ∧ t.reply.isNone then { t with reply := some [0x02, 0x00] } else t
        (c.setChain n { c.chain n with txn := some t }).carEnd n r

/-- CAR_TXN_DONE. -/
def execCarTxnDone (chain : Fin 2) (wire : WireEnd) (s : State) : Host.Outcome State Fault Refusal :=
  .next (s.onChip fun c => c.carAttempt chain wire)

/-! Supply gating (R401). -/

/-- PG_LEVEL and PG_STABLE are the same on both pages. -/
def Chip.setPg (c : Chip) (b : Nat) (v : Bool) : Chip := (c.setBit (pgCar 0) 0x0A0 b v).setBit (pgCar 1) 0x0A0 b v

/-- A sampled PWR_GOOD input. -/
def Chip.pwrGood (c : Chip) (i : Nat) (level : Bool) : Chip :=
  let was := c.bit (pgCar 0) 0x0A0 (4 + i)
  let c := c.setPg (4 + i) level
  if level then
    if was then c else { c with car := { c.car with goodSince := aput c.car.goodSince i c.time.now } }
  else { c.setPg i false with car := { c.car with goodSince := adel c.car.goodSince i } }

/-- PWR_GOOD_CHANGE. -/
def execPwrGoodChange (input : Fin 4) (level : Bool) (s : State) : Host.Outcome State Fault Refusal :=
  .next (s.onChip fun c => c.pwrGood input level)

/-- PG_STABLE: the input has been high for 1.000 s. -/
def execPgStable (input : Fin 4) (s : State) : Host.Outcome State Fault Refusal :=
  .next (s.onChip fun c => match aget c.car.goodSince input with
    | some t => (c.advance (t + 1000000000)).setPg input true
    | none => c)

/-! Devices. -/

/-- What a device makes of a request: its STATUS, its reply payload, and the chip with the device changed. -/
abbrev DevAct := Nat × List Byte × Chip

/-- FLAGS of IDENT (R391, R399). -/
def CarDev.flags (d : CarDev) : Nat :=
  d.plate.recovered.toNat + 2 * (d.fault || d.plate.st == 3).toNat + 4 * d.pass.toNat

/-- The class that a command belongs to; 0 for the common codes (R390). -/
def cmdClass (cmd : Nat) : Nat :=
  if cmd = 0x10 ∨ cmd = 0x11 then 1 else if cmd = 0x30 then 2 else if 0x20 ≤ cmd ∧ cmd ≤ 0x25 then 3 else 0

/-- A request of a command reaches a device, which answers it (R385, R387, R390, R397): a stored request again,
BAD_CMD outside its class, BUSY while it draws, BAD_LEN, or the command's own act. -/
def Chip.devRow (c : Chip) (n k cmd : Nat) (lenOk : Nat → Bool) (act : CarTxn → CarDev → DevAct) : Chip :=
  match (c.chain n).txn with
  | none => c
  | some t =>
    let d := c.carDev n k
    let again := d.stored.any fun s => s.1 == t.sent
    if t.sent = [] ∨ t.reply.isSome ∨ t.cmd ≠ cmd ∨ !c.chainOn n ∨ !c.reached n k ∨ (t.addr ≠ d.addr ∧ !again) then c
    else
      let (reply, c) := match d.stored.filter fun s => s.1 == t.sent with
        | some (_, r) => (r, c)
        | none =>
          let (st, data, c) :=
            if d.cls ≠ 0 ∧ cmdClass cmd ≠ 0 ∧ d.cls ≠ cmdClass cmd then (2, [], c)
            else if (d.plate.st = 2 ∨ d.plate.st = 3) ∧ cmd ≠ 0x01 ∧ cmd ≠ 0x20 then (1, [], c)
            else if !lenOk t.payload.length then (3, [], c)
            else act t d
          let r : List Byte := BitVec.ofNat 8 st :: BitVec.ofNat 8 data.length :: data
          (r, c.setDev n k { c.carDev n k with stored := some (t.sent, r) })
      c.setChain n { c.chain n with txn := some { t with reply := some reply } }

/-- A little-endian number among payload bytes. -/
def CarTxn.num (t : CarTxn) (i n : Nat) : Nat := (leNat (((t.payload.drop i).take n).map some)).getD 0

/-- IDENT (R391). -/
def execIdent (chain : Fin 2) (dev : Fin 16) (maker : DevIdent) (s : State) : Host.Outcome State Fault Refusal :=
  .next (s.onChip fun c => c.devRow chain dev 0x01 (· == 0) fun _ d =>
    (0, [maker.cls, 1] ++ leBytes 2 maker.vendor.toNat ++ leBytes 2 maker.model.toNat ++
        [maker.fwMajor, maker.fwMinor, maker.fwPatch, BitVec.ofNat 8 d.flags] ++ leBytes 8 maker.serial.toNat,
      c.setDev chain dev { d with cls := maker.cls.toNat }))

/-- SET_ADDR (R390). The manual names no STATUS for a device that has an address. -/
def execSetAddr (chain : Fin 2) (dev : Fin 16) (s : State) : Host.Outcome State Fault Refusal :=
  .next (s.onChip fun c => c.devRow chain dev 0x02 (· == 1) fun t d =>
    let pos := t.num 0 1
    if d.addr ≠ 0 then
      let (k, c) := c.draw
      ([2, 4, 5].getD (Config.choice k % 3) 2, [], c)
    else if pos = 0 ∨ 17 ≤ pos then (4, [], c)
    else (0, [], c.setDev chain dev { d with addr := pos }))

/-- PASS (R380, R383): closing an open switch gives the next device the release of a long reset. -/
def execPass (chain : Fin 2) (dev : Fin 16) (s : State) : Host.Outcome State Fault Refusal :=
  .next (s.onChip fun c => c.devRow chain dev 0x03 (· == 1) fun t d =>
    let v := t.num 0 1
    if 2 ≤ v then (4, [], c)
    else
      let c := c.setDev chain dev { d with pass := v == 1 }
      (0, [], if v = 1 ∧ !d.pass ∧ dev.val < 15 then c.setDev chain (dev + 1) (c.carDev chain (dev + 1)).longReset else c))

/-- STATUS (R390). -/
def execStatus (chain : Fin 2) (dev : Fin 16) (s : State) : Host.Outcome State Fault Refusal :=
  .next (s.onChip fun c => c.devRow chain dev 0x04 (· == 0) fun _ d => (0, [BitVec.ofNat 8 d.flags], c))

/-- READ_REG (R390): a register that no WRITE_REG has written holds what the maker gives it. -/
def execReadReg (chain : Fin 2) (dev : Fin 16) (s : State) : Host.Outcome State Fault Refusal :=
  .next (s.onChip fun c => c.devRow chain dev 0x05 (· == 3) fun t d =>
    let a := t.num 0 2
    let n := t.num 2 1
    if n = 0 ∨ 29 ≤ n then (4, [], c)
    else
      let (data, c) := (List.range n).foldl (fun (x : List Byte × Chip) i =>
        let (k, c) := x.2.draw
        (x.1 ++ [(aget d.maker ((a + i) % 65536)).getD (Config.havocByte k)], c)) ([], c)
      (0, data, c))

/-- WRITE_REG (R390). -/
def execWriteReg (chain : Fin 2) (dev : Fin 16) (s : State) : Host.Outcome State Fault Refusal :=
  .next (s.onChip fun c => c.devRow chain dev 0x06 (fun l => decide (3 ≤ l ∧ l ≤ 30)) fun t d =>
    let a := t.num 0 2
    let maker := ((t.payload.drop 2).zipIdx).foldl (fun m (b, i) => aput m ((a + i) % 65536) b) d.maker
    (0, [], c.setDev chain dev { d with maker := maker }))

/-- LAMP_SET (R392): at most RATING is stored. -/
def execLampSet (chain : Fin 2) (dev : Fin 16) (rating : BitVec 16) (s : State) : Host.Outcome State Fault Refusal :=
  .next (s.onChip fun c => c.devRow chain dev 0x10 (· == 2) fun t d =>
    let ma := t.num 0 2
    (if rating.toNat < ma then 4 else 0, [], c.setDev chain dev { d with curMa := min ma rating.toNat }))

/-- LAMP_STATUS (R393). -/
def execLampStatus (chain : Fin 2) (dev : Fin 16) (sense : LampSense) (s : State) : Host.Outcome State Fault Refusal :=
  .next (s.onChip fun c => c.devRow chain dev 0x11 (· == 0) fun _ d =>
    let flags := d.dark.toNat + 2 * sense.lineFault.toNat + 4 * sense.ledOpen.toNat + 8 * sense.ledShort.toNat
    (0, leBytes 2 sense.tempDc.toNat ++ leBytes 2 d.curMa ++ leBytes 2 sense.rating.toNat ++ leBytes 2 sense.otLimit.toNat ++
      [BitVec.ofNat 8 flags] ++ leBytes 2 sense.wavelength.toNat, c))

/-- POD_STATUS (R394). -/
def execPodStatus (chain : Fin 2) (dev : Fin 16) (sense : PodSense) (s : State) : Host.Outcome State Fault Refusal :=
  .next (s.onChip fun c => c.devRow chain dev 0x30 (· == 0) fun _ _ =>
    (0, leBytes 2 sense.tempDc.toNat ++ [sense.humidity] ++ leBytes 2 sense.supplyMv.toNat ++
      [BitVec.ofNat 8 (sense.heaterOn.toNat + 2 * sense.windowFault.toNat), sense.pdNoticeS], c))

/-! Ledger plates (R396-R400). -/

/-- The bytes of an image of a plate. -/
def plateSize (p : PlateInfo) : Nat := (p.width.toNat * p.height.toNat * p.bpp.toNat + 7) / 8

/-- The staged image; bytes that no LEDGER_DATA has brought are clear. -/
def Plate.stagedImage (p : Plate) : List Byte := (List.range p.total).map fun i => (aget p.staged i).getD 0

/-- The hash of an image (R396). -/
def imageHash (img : List Byte) : List Byte := (sha256 img).take 16

/-- A device with its plate replaced. -/
def Chip.setPlate (c : Chip) (n k : Nat) (d : CarDev) (p : Plate) : Chip := c.setDev n k { d with plate := p }

/-- LEDGER_INFO. -/
def execLedgerInfo (chain : Fin 2) (dev : Fin 16) (plate : PlateInfo) (s : State) : Host.Outcome State Fault Refusal :=
  .next (s.onChip fun c => c.devRow chain dev 0x20 (· == 0) fun _ d =>
    (0, leBytes 2 plate.width.toNat ++ leBytes 2 plate.height.toNat ++
      [plate.bpp, BitVec.ofNat 8 d.plate.st, BitVec.ofNat 8 d.flags] ++ leBytes 2 plate.driveMs.toNat ++ d.plate.complete, c))

/-- LEDGER_BEGIN. -/
def execLedgerBegin (chain : Fin 2) (dev : Fin 16) (plate : PlateInfo) (s : State) : Host.Outcome State Fault Refusal :=
  .next (s.onChip fun c => c.devRow chain dev 0x21 (· == 20) fun t d =>
    if t.num 0 4 ≠ plateSize plate then (4, [], c)
    else (0, [], c.setPlate chain dev d { d.plate with st := 1, total := t.num 0 4, hash := t.payload.drop 4, staged := [] }))

/-- LEDGER_DATA. -/
def execLedgerData (chain : Fin 2) (dev : Fin 16) (s : State) : Host.Outcome State Fault Refusal :=
  .next (s.onChip fun c => c.devRow chain dev 0x22 (fun l => decide (5 ≤ l ∧ l ≤ 32)) fun t d =>
    let off := t.num 0 4
    let data := t.payload.drop 4
    if d.plate.st ≠ 1 then (5, [], c)
    else if d.plate.total < off + data.length then (4, [], c)
    else (0, [], c.setPlate chain dev d { d.plate with
      staged := data.zipIdx.foldl (fun m (b, i) => aput m (off + i) b) d.plate.staged }))

/-- LEDGER_COMMIT (R398): an NVM failure in the steps before the drive leaves the display untouched. -/
def execLedgerCommit (chain : Fin 2) (dev : Fin 16) (nvmFail : Bool) (s : State) : Host.Outcome State Fault Refusal :=
  .next (s.onChip fun c => c.devRow chain dev 0x23 (· == 16) fun t d =>
    let p := d.plate
    let img := p.stagedImage
    if p.st ≠ 1 then (5, [], c)
    else if t.payload ≠ p.hash ∨ imageHash img ≠ p.hash then (6, [], c)
    else if nvmFail then (0, [], c.setDev chain dev { d with fault := true, plate := { p with st := 0 } })
    else (0, [], c.setPlate chain dev d { p with st := 2, target := img, dirty := some p.hash }))

/-- LEDGER_DRAW_DONE (R398). -/
def execLedgerDrawDone (chain : Fin 2) (dev : Fin 16) (s : State) : Host.Outcome State Fault Refusal :=
  .next (s.onChip fun c =>
    let d := c.carDev chain dev
    let p := d.plate
    if p.st = 2 then
      c.setPlate chain dev d { p with st := 0, image := p.target, complete := p.dirty.getD p.complete, dirty := none }
    else c)

/-- LEDGER_ABORT. -/
def execLedgerAbort (chain : Fin 2) (dev : Fin 16) (s : State) : Host.Outcome State Fault Refusal :=
  .next (s.onChip fun c => c.devRow chain dev 0x24 (· == 0) fun _ d =>
    if d.plate.st ≠ 1 then (5, [], c) else (0, [], c.setPlate chain dev d { d.plate with st := 0 }))

/-- LEDGER_ACK. -/
def execLedgerAck (chain : Fin 2) (dev : Fin 16) (s : State) : Host.Outcome State Fault Refusal :=
  .next (s.onChip fun c => c.devRow chain dev 0x25 (· == 0) fun _ d =>
    (0, [], c.setPlate chain dev d { d.plate with recovered := false }))

/-- LEDGER_RECOVERY (R399): a plate that finds DIRTY at power-up enters RECOVERING; in RECOVERING, the redraw of
COMPLETE ends, and RECOVERED is set. -/
def execLedgerRecovery (chain : Fin 2) (dev : Fin 16) (s : State) : Host.Outcome State Fault Refusal :=
  .next (s.onChip fun c =>
    let d := c.carDev chain dev
    let p := d.plate
    if p.st = 3 then c.setPlate chain dev d { p with st := 0, dirty := none, recovered := true }
    else if p.dirty.isSome ∧ p.st ≠ 2 then c.setPlate chain dev d { p with st := 3 }
    else c)

/-! The environment of the devices. -/

/-- LAMP_OVER_TEMPERATURE (R392). -/
def execLampOverTemperature (chain : Fin 2) (dev : Fin 16) (s : State) : Host.Outcome State Fault Refusal :=
  .next (s.onChip fun c => c.setDev chain dev { c.carDev chain dev with dark := true })

/-- LAMP_COOLED (R392). -/
def execLampCooled (chain : Fin 2) (dev : Fin 16) (s : State) : Host.Outcome State Fault Refusal :=
  .next (s.onChip fun c => c.setDev chain dev { c.carDev chain dev with dark := false })

/-- What a power loss leaves of a plate (R398): staging is lost, and a drive is cut before step 2, before step 4, or
before step 5. -/
def Plate.powerLoss (p : Plate) (k : Nat) : Plate :=
  let q := { p with st := 0, staged := [], total := 0, hash := [] }
  if p.st ≠ 2 then q
  else if k % 3 = 0 then q
  else if k % 3 = 1 then { q with dirty := none }
  else { q with image := p.target, complete := p.dirty.getD p.complete }

/-- POD_POWER_DOWN (R380, R392, R403): every device of the chain is as after power-up, but for what its plate keeps. -/
def execPodPowerDown (chain : Fin 2) (s : State) : Host.Outcome State Fault Refusal :=
  .next (s.onChip fun c => ((c.chain chain).devs.map Prod.fst).foldl (fun (c : Chip) k =>
    let (n, c) := c.draw
    let d := c.carDev chain k
    c.setDev chain k { d.longReset with curMa := 0, driveMa := 0, plate := d.plate.powerLoss (Config.choice n) }) c)

end Sys2Proof.Machine
end

