-- ==== Sys2Proof/Machine/Choir.lean ====
section
/-! DEFINITION. The Choir (chapter 12): its checks and layer tables (R289-R292, R295), the reduction and
requantisation of a tile (R283-R288, R291), dealing and reruns (R284, R297), and remaps (R298). -/

namespace Sys2Proof.Machine

/-! Types and layouts (R281, R289, R295). -/

/-- Reduction elements per cycle of a type pair (R281); none where the pair is not supported. -/
def pairKr (a b : Nat) : Option Nat :=
  if (a = 1 ∨ a = 2) ∧ b = 1 then some 64 else if a = 0 ∧ b = 0 then some 128
  else if a = 3 ∧ b = 1 then some 32 else if a = 5 ∧ b = 5 then some 16 else none

/-- The operands of a Choir command. -/
structure ChoOpds where
  a : Opd
  b : Option Opd
  c : Opd
  d : Opd
deriving DecidableEq, Repr

/-- CONV or MATMUL: the operations of the multiply array. -/
def isArray (op : Nat) : Bool := op == 0x40 || op == 0x41

/-- The type that WIDEN brings A or B to (R146; DEDUCED, log entry 29): INT16 for the multiply array,
INT32 for the other operations. -/
def choWiden (op : Nat) : Nat := if isArray op then 3 else 6

/-- The type an operand reaches the engine in. -/
def choType (op : Nat) (o : Opd) : Nat := if o.conv = 1 then choWiden op else o.d.type

/-- The operands of a started command. -/
def choOpds (q : Nat) (r : Running) : EM ChoOpds := do
  let b ← if r.op = 0x43 ∨ r.op = 0x44 then pure none else some <$> needOpd q r 1
  return { a := ← needOpd q r 0, b := b, c := ← needOpd q r 2, d := ← needOpd q r 3 }

/-- The operands as the accesses of a tile on a stall reach them (R110). -/
def ChoOpds.onStall (o : ChoOpds) (s : Nat) : ChoOpds :=
  { a := { o.a with src := s }, b := o.b.map fun b => { b with src := s }, c := { o.c with src := s }, d := { o.d with src := s } }

/-- Channel and batch mismatches (SHAPE, R295). Operands of another rank are left to CHO_LAYOUT. -/
def choShapeBad (op : Nat) (o : ChoOpds) : Bool :=
  let a := o.a
  let d := o.d
  let bsz := fun k => (o.b.map fun b => b.size k).getD 1
  let bnd := (o.b.map Opd.ndim).getD 0
  if op = 0x40 then
    a.ndim == 4 && d.ndim == 4 && bnd == 4 && (a.size 3 != d.size 3 ||
      !((bsz 0 == a.size 2 && bsz 3 == d.size 2) || (bsz 3 == 1 && bsz 0 == a.size 2 && a.size 2 == d.size 2)))
  else if op = 0x41 then
    (a.ndim == 2 || a.ndim == 3) && bnd == a.ndim && d.ndim == a.ndim && (a.size 0 != bsz 0 || a.size 1 != d.size 1 ||
      bsz 1 != d.size 0 || (a.ndim == 3 && (a.size 2 != bsz 2 || a.size 2 != d.size 2)))
  else if op = 0x43 then a.ndim == 4 && d.ndim == 4 && (a.size 2 != d.size 2 || a.size 3 != d.size 3)
  else a.sizes != d.sizes || (o.b.any fun b => b.sizes != d.sizes)

/-- CHO_TYPE (R281, R288, R292, R295). The pairs of R281 bind the multiply array; ELTWISE and POOL take integer
inputs, and ACT the types of R289. -/
def choTypeBad (op param : Nat) (o : ChoOpds) : Bool :=
  let ta := choType op o.a
  let tb := (o.b.map (choType op)).getD ta
  let td := o.d.d.type
  if td = 4 then true
  else if isArray op then
    (pairKr ta tb).isNone || (if ta = 5 then td != 5 || bits param 0 2 != 0 else td == 5 || (bits param 0 2 != 0 && td != 6))
  else td == 5 || ta == 5 || tb == 5 || (op == 0x44 && !(ta == 1 || ta == 3 || ta == 6))

/-- CHO_LAYOUT (R289, R295). -/
def choLayoutBad (op : Nat) (r : Running) (o : ChoOpds) : Bool :=
  let a := o.a
  let d := o.d
  (o.b.isSome && r.xform 1 != 0) ||
  (if op = 0x40 ∨ op = 0x43 then
    a.ndim != 4 || a.vv != 2 || d.ndim != 4 || d.vv != 2 || (op == 0x40 && o.b.any fun b => b.ndim != 4 || b.vv != 0)
  else if op = 0x41 then
    !(a.ndim == 2 || a.ndim == 3) || a.vv != 0 || d.ndim != a.ndim || d.vv != 0 || o.b.any fun b => b.ndim != a.ndim || b.vv != 0
  else false)

/-! The layer table (R290). -/

/-- COUT (R290). -/
def choCout (op : Nat) (o : ChoOpds) : Nat :=
  if op = 0x40 then o.d.size 2 else if op = 0x41 then o.d.size 0 else if op = 0x44 then o.a.size o.a.vv else 0

/-- The number of words before the LUT. -/
def choBase (op cout : Nat) : Nat := if op = 0x42 then 20 else 16 + 4 * cout

/-- The range of header word 0–7 of an opcode (R290). -/
def choRange (op k : Nat) : Int × Int :=
  let used : Int × Int := if k < 2 then (1, 16) else if k < 6 then (1, 8) else (0, 15)
  if op = 0x40 then used
  else if op = 0x43 then (if k = 4 ∨ k = 5 then (1, 1) else used)
  else if op = 0x41 then (if k < 6 then (1, 1) else (0, 0))
  else (0, 0)

/-- A table of words read: a poisoned word is none. -/
abbrev Table := List (Option Int)

/-- A word of the table that was read breaks a rule. -/
def Table.breaks (t : Table) (k : Nat) (p : Int → Bool) : Bool := (t.getD k none).any p

/-- CHO_TABLE: the words of a layer table break R290. A poisoned word breaks no rule here. -/
def choTableBad (op cout cin dch : Nat) (t : Table) : Bool :=
  let base := choBase op cout
  let lutLen : Int → Nat := fun a => if a = 1 then 256 else if a = 2 then 257 else 0
  !([base, base + 256, base + 257].contains t.length) ||
  Table.breaks t 12 (fun a => decide (a < 0) || decide (2 < a) || t.length != base + lutLen a) ||
  (List.range 8).any (fun k => Table.breaks t k fun x => decide (x < (choRange op k).1) || decide ((choRange op k).2 < x)) ||
  Table.breaks t 8 (fun g =>
    if op = 0x40 then g != 1 && !(g == (cin : Int) && cin == dch) else g != (if op = 0x41 then 1 else 0)) ||
  Table.breaks t 10 (fun lo => Table.breaks t 11 fun hi => decide (hi < lo)) ||
  (isArray op && Table.breaks t 13 fun e => decide (e < -64) || decide (63 < e)) ||
  Table.breaks t 14 (· != 0) || Table.breaks t 15 (· != 0) ||
  (List.range (if op = 0x42 then 1 else cout)).any fun i =>
    Table.breaks t (18 + 4 * i) (fun x => decide (x < 0) || decide (62 < x)) || Table.breaks t (19 + 4 * i) (· != 0)

/-- CHO_GEOM (R285, R295). -/
def choGeomBad (op : Nat) (o : ChoOpds) (t : Table) : Bool :=
  let reach := fun (n s d p i : Nat) =>
    match t.getD n none, t.getD s none, t.getD d none, t.getD p none with
    | some n, some s, some d, some p => decide ((o.a.size i : Int) + 14 < ((o.d.size i : Int) - 1) * s - p + (n - 1) * d)
    | _, _, _, _ => false
  let form := o.b.any fun b =>
    Table.breaks t 0 (fun x => x != b.size 1) || Table.breaks t 1 (fun x => x != b.size 2) ||
    Table.breaks t 8 fun g => if g = 1 then b.size 0 != o.a.size 2 || b.size 3 != o.d.size 2 else b.size 3 != 1 || b.size 0 != o.d.size 2
  (op == 0x40 && form) || ((op == 0x40 || op == 0x43) && (reach 0 2 4 6 0 || reach 1 3 5 7 1))

/-- The layer table's words read through slot C (R290). -/
def readTable (c : Opd) : EM Table := do
  let idx := (List.range (c.size 0)).map fun (i : Nat) => [Int.ofNat i]
  let m ← loadFor c idx
  return idx.map fun v => (elemAt c m 6 v).v

/-- COMP_ACCESS of a compressed input whose windows reach outside it (R136, R285): out-of-range reads do not apply to it. A table that
breaks R290 has no windows to judge. -/
def choStream (op : Nat) (o : ChoOpds) (t? : Except Nat Table) : Nat :=
  match t? with
  | .error _ => 0
  | .ok t =>
    let out := fun (n s d p i : Nat) =>
      match t.getD n none, t.getD s none, t.getD d none, t.getD p none with
      | some n, some s, some d, some p => decide (0 < p) || decide ((o.a.size i : Int) ≤ ((o.d.size i : Int) - 1) * s - p + (n - 1) * d)
      | _, _, _, _ => false
    if o.a.d.comp ≠ 0 ∧ (op = 0x40 ∨ op = 0x43) ∧ o.a.ndim = 4 ∧ o.d.ndim = 4 ∧
      !choTableBad op (choCout op o) (o.a.size 2) (o.d.size 2) t ∧ (out 0 2 4 6 0 || out 1 3 5 7 1) then 0x0F else 0

/-- Everything the Choir checks before it writes (R162, R295), then the poison of the table: the table's words. -/
def choCheck (q op : Nat) (r : Running) : EM (List Int) := do
  let o ← choOpds q r
  let p := r.param
  let use := if isArray op && bits p 0 1 == 1 then PortUse.both else PortUse.store
  let w := some (choWiden op)
  let load := fun (i : Nat) (x : Opd) => xformOf r i x.d .load (if x.conv = 1 then w else none) false
  let t? := ((readTable o.c).run (← get)).1
  checkCodes ([load 0 o.a, xformOf r 2 o.c.d .load none false, xformOf r 3 o.d.d use none false] ++
    (o.b.map (load 1)).toList ++ [choStream op o t?])
  let alone := fun (i : Nat) => (op == 0x42 || op == 0x44) && r.descs.getD i none == r.descs.getD 3 none &&
    r.xform i == 0 && r.xform 3 == 0
  check ((!alone 0 && o.d.d.meets o.a.d) || (o.b.any fun b => !alone 1 && o.d.d.meets b.d) || o.d.d.meets o.c.d) 0x13
  check (choShapeBad op o) 0x16
  checkStalls q
  check (choTypeBad op p o) 0x81
  check (choLayoutBad op r o) 0x82
  check (o.c.d.type != 6 || o.c.d.ndim != 1 || o.c.d.vdim != 0 || o.c.d.comp != 0 || o.c.d.scaleEn) 0x83
  let t ← readTable o.c
  check (choTableBad op (choCout op o) (o.a.size 2) (o.d.size 2) t) 0x83
  check (choGeomBad op o t) 0x84
  check (t.any Option.isNone) 0x90
  return t.filterMap id

/-! The reduction (R59, R285, R286). -/

/-- One element as the engine receives it: its value, its scale exponent under NONE, the block that holds it and
whether it saturated at the load port. -/
structure ChoIn where
  v : Option Int
  e : Int
  block : Option Nat
  sat : Bool
deriving DecidableEq, Repr

/-- An operand's element at a view index (R125, R133, R146). -/
def choIn (o : Opd) (m : Loaded) (et : Nat) (v : List Int) : ChoIn :=
  let x := elemAt o m et v
  if o.d.scaleEn ∧ o.conv ≠ 1 then
    let blk := match o.d.resolve (o.toDesc v) with
      | .at l _ => some l
      | _ => none
    match scaleAt o m v with
    | some e => { v := x.v, e := e, block := blk, sat := x.sat }
    | none => { v := none, e := 0, block := blk, sat := x.sat }
  else { v := x.v, e := 0, block := none, sat := x.sat }

/-- A reduction in progress: accumulator, saturation, and the step being formed with its first terms. -/
structure Red where
  acc : Int
  sat : Bool
  sum : Int := 0
  n : Nat := 0
  e : Int := 0
  key : Option Nat × Option Nat := (none, none)
deriving DecidableEq, Repr

/-- The step's dot product shifted and added (R286). -/
def Red.flush (r : Red) (accExp : Int) : Red :=
  if r.n = 0 then r
  else
    let (a, s) := sat32 (r.acc + applyScale r.sum (r.e - accExp))
    { r with acc := a, sat := r.sat || s, sum := 0, n := 0 }

/-- One product of the reduction: a step also ends where the block of a scaled operand changes. -/
def Red.add (accExp : Int) (r : Red) (t : ChoIn × ChoIn) : Red :=
  let (a, b) := t
  let key := (a.block, b.block)
  let r := if r.n ≠ 0 ∧ r.key ≠ key then r.flush accExp else r
  let r := if r.n = 0 then { r with e := a.e + b.e, key := key } else r
  { r with sum := r.sum + a.v.getD 0 * b.v.getD 0, n := r.n + 1 }

/-- The integer accumulator over the terms (R286). Steps are counted from index 0 in runs of 32. -/
def reduceInt (accExp init : Int) (ts : List (ChoIn × ChoIn)) : Int × Bool :=
  let r := ((ts.zipIdx).foldl (fun (r : Red) (t, k) => (if k % 32 = 0 then r.flush accExp else r).add accExp t)
    { acc := init, sat := false }).flush accExp
  (r.acc, r.sat)

/-- The BF16 dot product with the bias added last (R59, R288). -/
def reduceBf16 (bias : Int) (ts : List (ChoIn × ChoIn)) : Nat :=
  let acc := ts.foldl (fun acc t => fpAdd acc (fpMul (fpOf 7 (t.1.v.getD 0).toNat) (fpOf 7 (t.2.v.getD 0).toNat))) (.zero false)
  toBf16 (fpAdd acc (fpOf 23 (unsext 32 bias)))

/-! Requantisation and activation (R287, R291). -/

/-- A word of the table. -/
def tw (t : List Int) (k : Nat) : Int := t.getD k 0

/-- A LUT word: bits [15:0] sign-extended (R290). -/
def lutWord (t : List Int) (base i : Nat) : Int := sext 16 (unsext 16 (tw t (base + i)))

/-- ZP_OUT, CLIP and ACT (R287); the destination saturates as it is stored. -/
def choFinish (t : List Int) (base : Nat) (y : Int) (sat : Bool) : Elem :=
  let y := max (tw t 10) (min (tw t 11) (y + tw t 9))
  if tw t 12 = 1 then
    let (y, s) := satTo (-128) 127 y
    { v := some (lutWord t base (y + 128).toNat), sat := sat || s }
  else if tw t 12 = 2 then
    let (y, s) := satTo (-32768) 32767 y
    let u := (y + 32768).toNat
    let i := u / 256
    let f : Int := (u % 256 : Nat)
    { v := some ((lutWord t base i * (256 - f) + lutWord t base (i + 1) * f + 128) / 256), sat := sat || s }
  else { v := some y, sat := sat }

/-- The requantisation of an accumulator of channel o (R287). -/
def requant (t : List Int) (base o : Nat) (acc : Int) (sat : Bool) : Elem :=
  choFinish t base (rshift ((acc + tw t (16 + 4 * o)) * tw t (17 + 4 * o)) (tw t (18 + 4 * o)).toNat) sat

/-! What an output element reads (R285, R291). -/

/-- The pairs of view indices of A and B that a CONV element reads, in ascending k. -/
def convTerms (t : List Int) (cin : Nat) (v : List Nat) : List (List Int × List Int) :=
  let x := (v.getD 0 0 : Int)
  let y := (v.getD 1 0 : Int)
  let o := (v.getD 2 0 : Int)
  let n := (v.getD 3 0 : Int)
  let depth := tw t 8 != 1
  (List.range (tw t 1).toNat).flatMap fun (ky : Nat) => (List.range (tw t 0).toNat).flatMap fun (kx : Nat) =>
    let ix := x * tw t 2 - tw t 6 + kx * tw t 4
    let iy := y * tw t 3 - tw t 7 + ky * tw t 5
    if depth then [([ix, iy, o, n], [o, kx, ky, 0])]
    else (List.range cin).map fun (ci : Nat) => ([ix, iy, Int.ofNat ci, n], [Int.ofNat ci, Int.ofNat kx, Int.ofNat ky, o])

/-- The pairs of view indices of A and B that a MATMUL element reads. -/
def matmulTerms (k : Nat) (v : List Nat) : List (List Int × List Int) :=
  let rest := (v.drop 2).map Int.ofNat
  (List.range k).map fun (i : Nat) => (Int.ofNat i :: Int.ofNat (v.getD 1 0) :: rest, Int.ofNat i :: Int.ofNat (v.getD 0 0) :: rest)

/-- The pairs of an element of the multiply array. -/
def arrayTerms (op : Nat) (t : List Int) (o : ChoOpds) (v : List Nat) : List (List Int × List Int) :=
  if op = 0x40 then convTerms t (o.a.size 2) v else matmulTerms (o.a.size 0) v

/-- The window of a POOL element. -/
def poolTerms (t : List Int) (v : List Nat) : List (List Int) :=
  (List.range (tw t 1).toNat).flatMap fun (ky : Nat) => (List.range (tw t 0).toNat).map fun (kx : Nat) =>
    [(v.getD 0 0 : Int) * tw t 2 - tw t 6 + kx, (v.getD 1 0 : Int) * tw t 3 - tw t 7 + ky, (v.getD 2 0 : Int), (v.getD 3 0 : Int)]

/-- The view indices of A, B and D that an output element reads. -/
def choReads (op param : Nat) (t : List Int) (o : ChoOpds) (v : List Nat) : List (List Int) × List (List Int) × List (List Int) :=
  if isArray op then
    let ts := arrayTerms op t o v
    (ts.map Prod.fst, ts.map Prod.snd, if bits param 0 1 = 1 then [toInts v] else [])
  else if op = 0x43 then (poolTerms t v, [], [])
  else ([toInts v], if op = 0x42 then [toInts v] else [], [])

/-- The value of an element with its scale (R126). -/
def ChoIn.scaled (x : ChoIn) : Option Int := x.v.map fun v => applyScale v x.e

/-- The value of ELTWISE before its shift (R291). -/
def eltValue (op : Nat) (a b ma mb : Int) : Int :=
  match op with
  | 0 => a * ma + b * mb
  | 1 => a * ma - b * mb
  | 2 => a * b * ma
  | 3 => max (a * ma) (b * mb)
  | _ => min (a * ma) (b * mb)

/-- One output element of the multiply array from its terms (R286-R288, R292). -/
def arrayElem (param cout : Nat) (t : List Int) (bf : Bool) (o : Nat) (init : Option Int) (ts : List (ChoIn × ChoIn)) : Elem :=
  let sat0 := ts.any fun x => x.1.sat || x.2.sat
  if init.isNone || ts.any fun x => x.1.v.isNone || x.2.v.isNone then { v := none, sat := sat0 }
  else if bf then { v := some (reduceBf16 (tw t (16 + 4 * o)) ts : Nat), sat := false }
  else
    let (acc, s) := reduceInt (tw t 13) (init.getD 0) ts
    if bits param 1 1 = 1 then { v := some acc, sat := sat0 || s }
    else requant t (choBase 0x40 cout) o acc (sat0 || s)

/-- One output element (R285-R292) from the loaded vectors of A, B and D. -/
def choElem (op param : Nat) (t : List Int) (o : ChoOpds) (ma mb md : Loaded) (v : List Nat) : Elem :=
  let et := choWiden op
  let a := fun i => choIn o.a ma et i
  let b := fun i => match o.b with
    | some b => choIn b mb et i
    | none => { v := some 0, e := 0, block := none, sat := false }
  if isArray op then
    let ts := (arrayTerms op t o v).map fun (i, j) => (a i, b j)
    let init := if bits param 0 1 = 1 then (elemAt o.d md 6 (toInts v)).v else some 0
    arrayElem param (choCout op o) t (choType op o.a == 5) (v.getD (if op = 0x40 then 2 else 0) 0) init ts
  else if op = 0x42 then
    let x := a (toInts v)
    let y := b (toInts v)
    match x.scaled, y.scaled with
    | some p, some q => choFinish t 20 (rshift (eltValue (bits param 0 3) p q (tw t 16) (tw t 17)) (tw t 18).toNat) (x.sat || y.sat)
    | _, _ => { v := none }
  else if op = 0x43 then
    let xs := (poolTerms t v).map a
    match xs.mapM ChoIn.scaled with
    | none => { v := none }
    | some l =>
      let n : Int := tw t 0 * tw t 1
      let y := if bits param 0 1 = 1 then (2 * l.sum + n) / (2 * n) else l.foldl max (l.headD 0)
      choFinish t 16 y (xs.any ChoIn.sat)
  else
    let x := a (toInts v)
    match x.scaled with
    | none => { v := none }
    | some p => requant t (choBase op (choCout op o)) (v.getD o.a.vv 0) p x.sat

/-! Tiles (R283, R284, R294). -/

/-- The view sizes that a tile's positions run over: all but the channel (R283). -/
def posSizes (op : Nat) (d : Opd) : List Nat :=
  if op = 0x40 then [d.size 0, d.size 1, d.size 3] else (List.range (d.ndim - 1)).map fun k => d.size (k + 1)

/-- The view index of a position and a channel. -/
def posIndex (op : Nat) (pos : List Nat) (ch : Nat) : List Nat :=
  if op = 0x40 then [pos.getD 0 0, pos.getD 1 0, ch, pos.getD 2 0] else ch :: pos

/-- The number of view vectors of an operand. -/
def Opd.viewVectors (o : Opd) : Nat :=
  ((List.range o.ndim).map fun k => if k = o.vv then (o.size k + 31) / 32 else o.size k).foldl (· * ·) 1

/-- The number of tiles of a command (R283). -/
def choTiles (op : Nat) (o : ChoOpds) : Nat :=
  if isArray op then (((posSizes op o.d).foldl (· * ·) 1 + 1023) / 1024) * ((choCout op o + 31) / 32)
  else (o.d.viewVectors + 1023) / 1024

/-- The destination vectors of a tile, where the destination holds whole view vectors. -/
def tileVecs (op : Nat) (o : ChoOpds) (t : Nat) : List Nat :=
  if isArray op then
    let groups := (choCout op o + 31) / 32
    let sizes := posSizes op o.d
    let first := t / groups * 1024
    (List.range (min 1024 (sizes.foldl (· * ·) 1 - first))).map fun i =>
      let v := posIndex op (digits sizes (first + i)) (32 * (t % groups))
      (o.d.d.locate ((o.d.toDesc (toInts v)).map Int.toNat)).1
  else (List.range (min 1024 (o.d.d.vectors - 1024 * t))).map (1024 * t + ·)

/-- The CK_CHO cycles of a tile (R294). -/
def tileCycles (op : Nat) (o : ChoOpds) (t : List Int) (n : Nat) : Nat :=
  let kr := ((pairKr (choType op o.a) ((o.b.map (choType op)).getD 1)).getD 1)
  let up := fun (x : Nat) => (x + kr - 1) / kr
  let taps := (tw t 0 * tw t 1).toNat
  (if op = 0x40 then (if tw t 8 = 1 then n * 2 * taps * up (o.a.size 2) else n * 2 * up taps)
  else if op = 0x41 then n * 2 * up (o.a.size 0)
  else if op = 0x43 then n * taps
  else n) + 64

/-- The vectors that a tile needs, loaded. The load port delivers a compressed operand to the command as one stream (R136, R147), which
`choStream` has judged: a tile takes its vectors from it. -/
def loadAny (o : Opd) (idxs : List (List Int)) : EM Loaded := do
  let need ← neededVecs o idxs
  need.mapM fun l => do return (l, ← loadVec o l)

/-- Output vectors computed and stored (R283-R292): everything they read is read first. -/
def choStore (op param : Nat) (t : List Int) (o : ChoOpds) (lins : List Nat) : EM Stats := do
  let vs := lins.flatMap fun lin => (List.range (o.d.d.realLanes lin)).map fun l => o.d.toView (o.d.d.laneIndex lin l)
  let reads := vs.map (choReads op param t o)
  let ma ← loadAny o.a (reads.flatMap fun r => r.1)
  let mb ← match o.b with
    | some b => loadAny b (reads.flatMap fun r => r.2.1)
    | none => pure []
  let md ← loadAny o.d (reads.flatMap fun r => r.2.2)
  lins.foldlM (fun st lin => do
    let xs := vecElems o.d lin (choElem op param t o ma mb md)
    let sats ← storeVec o.d lin xs
    return st.add { sat := (sats.filter id).length, poison := xs.any fun x => x.v.isNone }) {}

/-- What the store port writes as a tile ends: the tile's own vectors, or, where the store port regroups, every
vector with the command's last tile (R151). -/
def choTileOut (q : Nat) (r : Running) (k : ChoCmd) (t s : Nat) : EM Stats := do
  let o := (← choOpds q r).onStall s
  if o.d.ownVectors then choStore r.op r.param k.table o (tileVecs r.op o t)
  else if k.left ≤ 1 then choStore r.op r.param k.table o (List.range o.d.d.vectors)
  else return {}

/-! The commands (R289). -/

/-- A Choir command that passes its checks is divided into tiles; its start count is that of its tiles. -/
def choStart (q op : Nat) : WM Unit := do
  let c ← getChip
  match c.running q with
  | none => pure ()
  | some r =>
    if r.op ≠ op ∨ r.executed ∨ r.finished ∨ c.tripped then pure ()
    else match ← (do return (← choCheck q op r, ← choOpds q r)).run with
      | .error e => chipM fun c => c.setRunning q (some { r with executed := true, finished := true, status := e })
      | .ok (t, o) =>
        let n := choTiles op o
        chipM fun c =>
          let c := c.setRunning q (some { r with executed := true, debug := r.debug || c.debugOn (pgQ q :: c.unitPages (unitOf q)) })
          { c with cho := { c.cho with cmds := c.cho.cmds ++ [{ q := q, n := n, left := n, table := t }] } }

/-- CONV. -/
def execConv (q : Fin 128) (s : State) : Host.Outcome State Fault Refusal := s.onMem (choStart q 0x40)

/-- MATMUL. -/
def execMatmul (q : Fin 128) (s : State) : Host.Outcome State Fault Refusal := s.onMem (choStart q 0x41)

/-- ELTWISE. -/
def execEltwise (q : Fin 128) (s : State) : Host.Outcome State Fault Refusal := s.onMem (choStart q 0x42)

/-- POOL. -/
def execPool (q : Fin 128) (s : State) : Host.Outcome State Fault Refusal := s.onMem (choStart q 0x43)

/-- ACT. -/
def execAct (q : Fin 128) (s : State) : Host.Outcome State Fault Refusal := s.onMem (choStart q 0x44)

/-! Stalls (R278, R297-R300). -/

/-- A number put into a rising list. -/
def insRising (t : Nat) (l : List Nat) : List Nat := l.filter (· < t) ++ t :: l.filter (t < ·)

/-- A tile of a queue's command is dealt again: tiles are dealt in ascending order (R284). -/
def Chip.redeal (c : Chip) (q t : Nat) : Chip :=
  { c with cho := { c.cho with cmds := c.cho.cmds.map fun k => if k.q = q then { k with redo := insRising t k.redo } else k } }

/-- The tile that runs on a stall taken off it. -/
def Chip.takeTile (c : Chip) (s : Nat) : Chip := { c with cho := { c.cho with tiles := adel c.cho.tiles s } }

/-- The running tile of a stall abandoned by the soft reset of its page or of page 0x060: it is dealt again when the reset ends
(R526). -/
def Chip.abandonTile (c : Chip) (s : Nat) : Chip :=
  match aget c.cho.tiles s with
  | some t => { c with cho := { c.cho with tiles := aput c.cho.tiles s { t with dropped := true } } }
  | none => c

/-- The end of a soft reset of a stall's page or of page 0x060: abandoned tiles may be dealt again once neither is in reset. -/
def Chip.redealTile (c : Chip) (s : Nat) : Chip :=
  match aget c.cho.tiles s with
  | some t => if t.dropped && !c.resetBusy (pgStall s) && !c.resetBusy 0x060 then (c.takeTile s).redeal t.q t.t else c
  | none => c

/-- The stall of a group that takes the next tile (R284): free and healthy, the lowest slot first. -/
def Chip.freeStall (c : Chip) (g : Nat) : Option Nat :=
  ((c.servedSlots g).filter fun i => !c.copying i).map c.slotPhys |>.find? fun s =>
    (aget c.cho.tiles s).isNone && !c.suspect s && !c.resetBusy (pgStall s)

/-- The tile a command deals next: one to rerun, else the next in ascending order. -/
def ChoCmd.deal (k : ChoCmd) : Option (Nat × ChoCmd) :=
  match k.redo with
  | t :: l => some (t, { k with redo := l })
  | [] => if k.next < k.n then some (k.next, { k with next := k.next + 1 }) else none

/-- TILE_DEAL on the chip: the first command of the group with a tile left deals it. -/
def Chip.tileDeal (c : Chip) (g : Nat) : Chip :=
  if c.resetBusy 0x060 ∨ c.tripped then c
  else match c.freeStall g, c.cho.cmds.find? fun k => k.q / 8 == g && k.deal.isSome with
  | some s, some k =>
    match k.deal with
    | some (t, k') =>
      { c with cho := { c.cho with
          cmds := c.cho.cmds.map fun x => if x.q = k.q then k' else x
          tiles := aput c.cho.tiles s { q := k.q, t := t, since := c.time.now } } }
    | none => c
  | _, _ => c

/-- TILE_DEAL: the group deals its next tile to the first stall that is free (R284). -/
def execTileDeal (g : Fin 8) (s : State) : Host.Outcome State Fault Refusal := .next (s.onChip fun c => c.tileDeal g)

/-- A Choir command ended in error: its tiles are dropped and its destination is left undefined (R43, R184). -/
def choFail (q code : Nat) : WM Unit := do
  let c ← getChip
  match c.running q with
  | none => pure ()
  | some r =>
    match c.opd q r 3 with
    | some d => havocOpd d
    | none => pure ()
    chipM fun c => (c.choDrop q).endRunning q code

/-- The R294 cycles of a tile of a started command. -/
def tileTime (q : Nat) (r : Running) (k : ChoCmd) (t : Nat) (w : Work) : Nat :=
  match ((choOpds q r).run w).1 with
  | .ok o =>
    let n := if isArray r.op then
        min 1024 ((posSizes r.op o.d).foldl (· * ·) 1 - t / ((choCout r.op o + 31) / 32) * 1024)
      else min 1024 (o.d.viewVectors - 1024 * t)
    tileCycles r.op o k.table n
  | .error _ => 0

/-- A finished tile (R284): its outputs are stored, and the command ends with its last tile. -/
def tileGood (s : Nat) (x : ChoTile) (k : ChoCmd) (r : Running) : WM Unit := do
  let n := tileTime x.q r k x.t (← get)
  chipM fun c => (((c.takeTile s).count (pgStall s) 0x040).count (pgStall s) 0x044 n)
  let out ← (choTileOut x.q r k x.t s).run
  meetWrites x.q s
  match out with
  | .error e => choFail x.q e
  | .ok st =>
    chipM fun c =>
      let last := k.left ≤ 1
      let one := c.cho.cmds.map fun y => if y.q = x.q then { y with left := y.left - 1 } else y
      let c := { c with cho := { c.cho with cmds := if last then one.filter (fun y => y.q != x.q) else one } }
      c.setRunning x.q (some { r with
        finished := last, sat := r.sat + st.sat, poison := r.poison || st.poison,
        debug := r.debug || c.debugOn (pgStall s :: pgQ x.q :: c.unitPages (unitOf x.q)) })

/-- A tile that failed its checks or ran too long (R297): its stall is SUSPECT, and the tile is rerun on another
stall, or the command ends UNIT_FAILED. -/
def tileBad (s : Nat) (x : ChoTile) (k : ChoCmd) (busy : Nat) : WM Unit := do
  chipM fun c => (((c.takeTile s).setBit (pgStall s) 0x010 11 true).count (pgStall s) 0x044 busy).refreshStalls
  let c ← getChip
  let others := ((c.servedSlots (x.q / 8)).map c.slotPhys).filter fun y => y != s && !c.suspect y
  if k.reran.contains x.t ∨ others = [] then
    chipM fun c => c.count 0x060 0x058
    choFail x.q 0x2C
  else
    chipM fun c =>
      let c := (c.count 0x060 0x054).redeal x.q x.t
      { c with cho := { c.cho with cmds := c.cho.cmds.map fun y => if y.q = x.q then { y with reran := y.reran ++ [x.t] } else y } }

/-- The running tile of a stall with its command; none while a protection case holds the clocks. -/
def Chip.tileOn (c : Chip) (s : Nat) : Option (ChoTile × ChoCmd × Running) :=
  match aget c.cho.tiles s with
  | none => none
  | some x => if x.dropped || c.tripped then none else match c.cho.cmds.find? fun k => k.q == x.q, c.running x.q with
    | some k, some r => some (x, k, r)
    | _, _ => none

/-- TILE_COMPLETE: a stall finishes a tile with what its checks found (R284, R297). -/
def execTileComplete (stall : Fin 32) (check : TileCheck) (s : State) : Host.Outcome State Fault Refusal :=
  s.onMem do
    match (← getChip).tileOn stall with
    | none => pure ()
    | some (x, k, r) =>
      let n := tileTime x.q r k x.t (← get)
      match check with
      | .good => tileGood stall x k r
      | .residue =>
        chipM fun c => (c.count (pgStall stall) 0x048).raise (pgStall stall) 0
        tileBad stall x k n
      | .accParity =>
        chipM fun c => (c.count (pgStall stall) 0x04C).raise (pgStall stall) 1
        tileBad stall x k n

/-- TILE_TIMEOUT: a tile has run longer than 4 × its R294 cycles plus 65 536 (R297). Time moves to that moment at
the present CK_CHO. -/
def execTileTimeout (stall : Fin 32) (s : State) : Host.Outcome State Fault Refusal :=
  s.onMem do
    match (← getChip).tileOn stall with
    | none => pure ()
    | some (x, k, r) =>
      let n := 4 * tileTime x.q r k x.t (← get) + 65536
      chipM fun c =>
        let mhz := max 1 (c.fld 0x060 0x04C 0 11)
        (c.advance (x.since + n * 1000 / mhz)).raise (pgStall stall) 2
      tileBad stall x k n

/-! Remaps (R298). -/

/-- The group is at a command boundary: no tile of a command in progress has been dealt. -/
def Chip.groupBoundary (c : Chip) (g : Nat) : Bool :=
  c.cho.cmds.all fun k => k.q / 8 != g || (k.next == 0 && k.redo == [] && k.reran == [])

/-- The slots a boundary of a group looks at: its own, and those outside every group. -/
def Chip.boundarySlots (c : Chip) (g : Nat) : List Nat :=
  (List.range 30).filter fun i => (c.groupSlots g).contains i || (List.range 8).all fun h => !(c.groupSlots h).contains i

/-- One slot at a boundary (R298): a stall that is SUSPECT, asked to retire or no longer allowed is replaced by
the lowest spare, or the slot becomes vacant. -/
def Chip.remapSlot (c : Chip) (i : Nat) : Chip :=
  let s := c.slotPhys i
  let asked := c.bit 0x060 0x048 s
  if c.slotVacant i || c.copying i || !(c.suspect s || asked || c.stallRetired s || !c.stallAllowed s) then c
  else
    let c := if asked then { c with cho := { c.cho with retired := c.cho.retired ||| 2 ^ s } } else c
    match (List.range 32).find? c.isSpare with
    | some n =>
      let c := c.setFld 0x060 (0x080 + 4 * i) 0 6 n
      { c with cho := { c.cho with copies := c.cho.copies ++ [{ slot := i, old := s, spare := n }] } }
    | none =>
      (((c.setBit 0x060 (0x080 + 4 * i) 8 true).raise 0x060 1).logErr 0x060 clsUnit 0x63 0 0).retireDone s

/-- REMAP: at a command boundary of the group its slots are remapped (R296, R298). -/
def execRemap (g : Fin 8) (s : State) : Host.Outcome State Fault Refusal :=
  .next (s.onChip fun c =>
    if c.groupBoundary g then ((c.boundarySlots g).foldl Chip.remapSlot c).refreshStalls else c)

/-- REMAP_COPY_DONE. -/
def execRemapCopyDone (s : State) : Host.Outcome State Fault Refusal := s.onMem copyDone

/-- A write to RETIRE_REQ (R299): a stall that serves a slot retires at the remap; any other retires at once. -/
def Chip.retireReq (c : Chip) (m : Word) : Chip :=
  let c := c.wr 0x060 0x048 (c.rd 0x060 0x048 ||| m)
  ((List.range 32).foldl (fun (c : Chip) s =>
    if m.getLsbD s && (c.stallSlot s).isNone then
      { c with cho := { c.cho with retired := c.cho.retired ||| 2 ^ s } }.retireDone s
    else c) c).refreshStalls

/-- RETIRE_REQ. -/
def execRetireReq (req : Requester) (mask : Word) (s : State) : Host.Outcome State Fault Refusal :=
  .next (s.onChip fun c => c.gated req 0x060 0x048 fun c => c.retireReq mask)

/-- SUSPECT_CLR: the stall is healthy again and returns as a spare once it serves no slot (R298, R300). -/
def Chip.suspectClr (c : Chip) (s : Nat) : Chip := (c.setBit (pgStall s) 0x010 11 false).refreshStalls

/-- SUSPECT_CLR. -/
def execSuspectClr (req : Requester) (stall : Fin 32) (s : State) : Host.Outcome State Fault Refusal :=
  .next (s.onChip fun c => c.gated req (pgStall stall) 0x05C fun c => c.suspectClr stall)

/-- A write to ALLOWED (R299). -/
def Chip.allowedWrite (c : Chip) (v : Word) : Chip := (c.wr 0x060 0x040 v).refreshStalls

/-- A write to GRP_g (R279, R296): locked while a queue of the group is not STOPPED, and refused where the range
would overlap another group or pass slot 29. -/
def Chip.groupWrite (c : Chip) (req : Requester) (g : Nat) (v : Nat) : Chip :=
  let off := 0x060 + 4 * g
  let first := bits v 0 5
  let n := bits v 16 5
  let mine := (List.range n).map (first + ·)
  if (List.range 8).any fun i => c.qstate (8 * g + i) != qStopped then c.logUse 0x060 0x04 req (regAddr 0x060 off)
  else if (n ≠ 0 ∧ 30 < first + n) ∨ (List.range 8).any fun h => h != g && (c.groupSlots h).any mine.contains then
    c.logUse 0x060 0x05 req (regAddr 0x060 off)
  else c.wr 0x060 off (word (n * 2 ^ 16 + first))

end Sys2Proof.Machine
end

