-- ==== Sys2Proof/Machine/Link.lean ====
section
/-! DEFINITION. The Ronsan Link and the chapter (chapter 15): port training (R362, R363), flits, replay and credits
(R354-R358), routes (R359), positions and the LINK_MAP (R360, R361, R364, R365), time synchronisation (R370), fences
and losses (R372-R375). -/

namespace Sys2Proof.Machine

/-! Ports and their registers (R377). -/

/-- A link port's state. -/
def Chip.lport (c : Chip) (p : Nat) : LinkPort := (aget c.link.ports p).getD {}

/-- A link port's state replaced; REPLAY_LEVEL follows the replay buffer. -/
def Chip.setLport (c : Chip) (p : Nat) (x : LinkPort) : Chip :=
  let c := { c with link := { c.link with ports := aput c.link.ports p x } }
  if 4 ≤ p ∨ (c.rd (pgRlk p) 0x07C).toNat = x.replay.length then c else c.wr (pgRlk p) 0x07C (word x.replay.length)

/-- PORT_STATE values. -/
def lpDown : Nat := 0
def lpLocking : Nat := 1
def lpAligning : Nat := 2
def lpExchange : Nat := 3
def lpUp : Nat := 4
def lpRetraining : Nat := 5
def lpQuarantined : Nat := 6

/-- PORT_STATE. -/
def Chip.portState (c : Chip) (p : Nat) : Nat := c.fld (pgRlk p) 0x044 0 3

/-- PORT_STATE set. -/
def Chip.setPortState (c : Chip) (p s : Nat) : Chip := c.setFld (pgRlk p) 0x044 0 3 s

/-- Lane bits of 0x048: CDR_LOCK 0, MARK_LOCK 1, INV 2. -/
def Chip.laneBit (c : Chip) (p : Nat) (lane : Bool) (b : Nat) : Bool := c.bit (pgRlk p) 0x048 (8 * lane.toNat + b)
def Chip.setLane (c : Chip) (p : Nat) (lane : Bool) (b : Nat) (v : Bool) : Chip := c.setBit (pgRlk p) 0x048 (8 * lane.toNat + b) v

/-- Initial credits by VC (R358). -/
def vcBuffer (v : Nat) : Nat := [64, 64, 16, 16, 8].getD v 0

/-- Transmit credits of a VC; the reserved ones have none. -/
def Chip.credits (c : Chip) (p v : Nat) : Nat := if v < 5 then c.fld (pgRlk p) (0x068 + 4 * v) 0 8 else 0
def Chip.setCredits (c : Chip) (p v n : Nat) : Chip := if v < 5 then c.setFld (pgRlk p) (0x068 + 4 * v) 0 8 n else c

/-! The chapter's registers (R378). -/

def Chip.chEn (c : Chip) : Bool := c.bit 0x0B4 0x040 0
def Chip.chHead (c : Chip) : Bool := c.bit 0x0B4 0x040 1
def Chip.chTorus (c : Chip) : Bool := c.bit 0x0B4 0x040 2
def Chip.chExpect (c : Chip) : Nat := c.fld 0x0B4 0x040 4 3 + 1
def Chip.chPosValid (c : Chip) : Bool := c.bit 0x0B4 0x044 8
def Chip.chState (c : Chip) : Nat := c.fld 0x0B4 0x044 0 3
def Chip.chLive (c : Chip) : Nat := c.fld 0x0B4 0x044 24 8
def Chip.linkMap (c : Chip) : Nat := (c.rd 0x0B4 0x050).toNat
def Chip.linkEpoch (c : Chip) : Nat := c.fld 0x0B4 0x054 0 8
def Chip.fenced (c : Chip) : Nat := c.fld 0x0B4 0x04C 0 8

/-- CH_STATE values. -/
def chIdle : Nat := 0
def chForming : Nat := 1
def chUp : Nat := 2
def chHeadless : Nat := 3
def chTopoErr : Nat := 4

/-- CH_STATE set. -/
def Chip.setChState (c : Chip) (s : Nat) : Chip := c.setFld 0x0B4 0x044 0 3 s

/-- The number of ones in a mask of 8 bits. -/
def ones8 (m : Nat) : Nat := (List.range 8).countP fun i => bits m i 1 == 1

/-- The status word of the chapter, with POS mirrored in the Precentor (R364). -/
def Chip.setChapter (c : Chip) (live members size : Nat) (valid : Bool) (pos state : Nat) : Chip :=
  (c.wr 0x0B4 0x044 (word (live * 2 ^ 24 + members * 2 ^ 16 + size * 2 ^ 12 + valid.toNat * 2 ^ 8 + pos * 2 ^ 4 + state))).setFld 0x010 0x04C 0 3 pos

/-- The chip is its own head, or the head of its chapter: PRC STATUS.HEAD and the HEAD fields of the graph slots
(R325, R326, R361). -/
def Chip.showHead (c : Chip) : Chip :=
  let h := !c.chEn || c.chHead
  (List.range 8).foldl (fun (c : Chip) g => c.setBit (pgSlot g) 0x080 16 h) (c.setBit 0x010 0x010 8 h)

/-! Routes (R351, R359). -/

/-- The position that a port of a position leads to: n positions in a ring, or the 2 × 4 torus. -/
def hopTo (torus : Bool) (n pos port : Nat) : Nat :=
  if torus then
    if port = 0 then pos / 4 * 4 + (pos + 1) % 4 else if port = 1 then pos / 4 * 4 + (pos + 3) % 4 else (pos + 4) % 8
  else if port = 0 then (pos + 1) % n else (pos + n - 1) % n

/-- The partner kind of a port. -/
def partner (p : Nat) : Nat := if p % 2 = 0 then p + 1 else p - 1

/-- A hop's two ports are both UP in a map. -/
def hopUp (torus : Bool) (n map pos port : Nat) : Bool :=
  bits map (4 * pos + port) 1 == 1 && bits map (4 * hopTo torus n pos port + partner port) 1 == 1

/-- A sequence of ports followed from a position over ports that are UP. -/
def pathUp (torus : Bool) (n map : Nat) : Nat → List Nat → Bool
  | _, [] => true
  | pos, p :: ps => hopUp torus n map pos p && pathUp torus n map (hopTo torus n pos p) ps

/-- The paths from a position to another in the order they are tried. -/
def pathsOf (torus : Bool) (n src dst : Nat) : List (List Nat) :=
  let m := if torus then 4 else n
  let d := (dst % m + m - src % m) % m
  let right := List.replicate d 0
  let left := List.replicate (if d = 0 then 0 else m - d) 1
  let short := if d ≤ m / 2 then right else left
  let long := if d ≤ m / 2 then left else right
  if !torus ∨ src / 4 = dst / 4 then [short, long]
  else [short ++ [2], long ++ [2], short ++ [3], long ++ [3], 2 :: short, 2 :: long, 3 :: short, 3 :: long]

/-- The route of a flit from this chip under a map; none where the destination is unreachable. -/
def Chip.routeIn (c : Chip) (map dst : Nat) : Option (List Nat) :=
  (pathsOf c.chTorus c.chExpect c.chPos dst).find? fun p => pathUp c.chTorus c.chExpect map c.chPos p

/-- The route under the present map. -/
def Chip.route (c : Chip) (dst : Nat) : Option (List Nat) := c.routeIn c.linkMap dst

/-! Sending (R356, R357). -/

/-- A receive buffer entry freed: its credit goes back to the peer (R357). -/
def Chip.freeEntry (c : Chip) (p vc : Nat) : Chip :=
  let x := c.lport p
  c.setLport p { x with freed := aput x.freed vc ((aget x.freed vc).getD 0 + 1) }

/-- The entries that forwarded flits held freed. -/
def Chip.freeEntries (c : Chip) (fs : List TxFlit) : Chip :=
  (fs.filterMap TxFlit.entry).foldl (fun (c : Chip) e => c.freeEntry e.1 e.2) c

/-- The moment at which a flit of a transfer was sent (R369). -/
def Chip.markSent (c : Chip) (f : TxFlit) : Chip :=
  match f.xfer with
  | none => c
  | some id => match aget c.link.xfers id with
    | some x => { c with link := { c.link with xfers := aput c.link.xfers id { x with sent := c.time.now } } }
    | none => c

/-- The flits at the front of a port's queue that hold a credit and find room in the replay buffer, and those that wait. -/
def Chip.sendable? (c : Chip) (p : Nat) : List TxFlit × List TxFlit :=
  let x := c.lport p
  x.txq.foldl (fun (a : List TxFlit × List TxFlit) f =>
    let used := a.1.countP fun g => g.vc == f.vc
    if c.credits p f.vc ≤ used ∨ 256 ≤ x.replay.length + a.1.length ∨ a.2.any fun g => g.vc == f.vc then (a.1, a.2 ++ [f])
    else (a.1 ++ [f], a.2)) ([], [])

/-- Flits of a port that hold a credit and find room in the replay buffer are sent. -/
def Chip.drainPort (c : Chip) (p : Nat) : Chip :=
  if c.portState p ≠ lpUp then c
  else
    let (go, wait) := c.sendable? p
    let x := c.lport p
    let c := go.foldl (fun (c : Chip) f => (c.setCredits p f.vc (c.credits p f.vc - 1)).markSent f) c
    let out := go.zipIdx.map fun (f, i) => { f with seq := (x.txNext + i) % 1024, entry := none }
    (c.setLport p { x with replay := x.replay ++ out, txNext := (x.txNext + go.length) % 1024, txq := wait }).freeEntries go

/-- A flit handed to a port. -/
def Chip.sendFlit (c : Chip) (p : Nat) (f : TxFlit) : Chip :=
  (c.setLport p { c.lport p with txq := (c.lport p).txq ++ [f] }).drainPort p
def Chip.sendOn (c : Chip) (p vc : Nat) (b : FlitBody) : Chip := c.sendFlit p { vc := vc, body := b }

/-- The ports that are UP. -/
def Chip.upPorts (c : Chip) : List Nat := (List.range 4).filter fun p => c.portState p == lpUp

/-- A MGMT flit on every port that is UP but one. -/
def Chip.sendMgmt (c : Chip) (except : Option Nat) (b : Nat → FlitBody) : Chip :=
  (c.upPorts.filter fun p => some p != except).foldl (fun c p => c.sendOn p 4 (b p)) c

/-- A flit to a position by its route, with the transfer that it belongs to. -/
def Chip.sendTo (c : Chip) (dst vc : Nat) (b : FlitBody) (xfer : Option Nat := none) : Chip :=
  match c.route dst with
  | some (p :: ps) => c.sendFlit p { vc := vc, body := b, rest := ps.map (Fin.ofNat 4), xfer := xfer }
  | _ => c

/-- The VC on which a flit received on a port goes on by another (R358): past the dateline of an x ring it is in the odd VC of its
class, and it returns to the even one as it enters the y dimension. The link that crosses the dateline still carries the even one
(DEDUCED: log entry 95). -/
def Chip.nextVc (c : Chip) (via vc out : Nat) : Nat :=
  let n := if c.chTorus then 4 else c.chExpect
  let x := c.chPos % n
  if 2 ≤ out then vc / 2 * 2
  else if (via = 1 ∧ x = 0) ∨ (via = 0 ∧ x = n - 1) then vc / 2 * 2 + 1
  else vc

/-- A flit that is not for this chip goes on along its route (R359). -/
def Chip.forward (c : Chip) (via vc : Nat) (out : Fin 4) (rest : List (Fin 4)) (b : FlitBody) : Chip :=
  c.sendFlit out { vc := c.nextVc via vc out, body := b, rest := rest, entry := some (via, vc) }

/-! Positions (R361, R364). -/

/-- The ENUM a port sends (R364): the receiver's coordinates, modulo X and Y. -/
def Chip.enumFor (c : Chip) (p : Nat) : FlitBody :=
  let (nx, ny) := if c.chTorus then (4, 2) else (c.chExpect, 1)
  let x := c.chPos % nx
  let y := c.chPos / nx
  match p with
  | 0 => .enum ((x + 1) % nx) y
  | 1 => .enum ((x + nx - 1) % nx) y
  | 2 => .enum x ((y + 1) % ny)
  | _ => .enum x ((y + ny - 1) % ny)

/-- The ports that the topology uses. -/
def Chip.topoPorts (c : Chip) : List Nat := if c.chTorus then [0, 1, 2, 3] else [0, 1]

/-- A chapter of one, which uses no port (R361). -/
def Chip.chAlone (c : Chip) : Bool := c.chHead && c.chExpect == 1

/-- ENUMs on ports that are UP. -/
def Chip.sendEnums (c : Chip) (ps : List Nat) : Chip :=
  if c.chAlone then c else (ps.filter fun p => c.portState p == lpUp).foldl (fun c p => c.sendOn p 4 (c.enumFor p)) c

/-- TOPO_ERR of the chapter (R364, R375). -/
def Chip.topoErr (c : Chip) : Chip := ((c.raise 0x0B4 3).setChState chTopoErr).logErr 0x0B4 clsLink 0x43 0 0

/-- The links of a chapter that touch no port of this chip: (position, port) of one end. -/
def Chip.farLinks (c : Chip) (members : Nat) : List (Nat × Nat) :=
  (List.range 8).flatMap fun q => (c.topoPorts.filter fun p => p % 2 == 0).filterMap fun p =>
    let r := hopTo c.chTorus c.chExpect q p
    if bits members q 1 = 1 ∧ bits members r 1 = 1 ∧ q ≠ c.chPos ∧ r ≠ c.chPos then some (q, p) else none

/-- The map bits of a link: both its ends where the topology has it. -/
def Chip.linkBits (c : Chip) (q p : Nat) : Nat :=
  2 ^ (4 * q + p) ||| (if c.topoPorts.contains p then 2 ^ (4 * hopTo c.chTorus c.chExpect q p + partner p) else 0)

/-- The map as the head forms it: its own links by their ports' states, and each other link as the open choice gives
it (the spec names no message that tells the head of it). -/
def Chip.headMap (c : Chip) (members : Nat) : Nat × Chip :=
  let own := c.upPorts.foldl (fun m p => m ||| c.linkBits c.chPos p) 0
  (c.farLinks members).foldl (fun (a : Nat × Chip) (q, p) =>
    let (k, c) := a.2.draw
    (if Config.choice k % 2 = 1 then a.1 ||| c.linkBits q p else a.1, c)) (own, c)

/-! Fences (R373). -/

/-- The commands of LXE queues that await a RESP from one of these positions end LINK_TIMEOUT (R369, R373). -/
def Chip.endXfers (c : Chip) (gone : Nat → Bool) : Chip :=
  let qs := (c.link.xfers.filter fun x => gone x.2.dst).map fun x => x.2.q
  qs.eraseDups.foldl (fun (c : Chip) q =>
    let c := { c with link := { c.link with xfers := c.link.xfers.filter fun x => x.2.q != q } }
    (c.endRunning q 0x29).count 0x0B4 0x064) c

/-- A new map takes effect on a member (R365, R373): destinations whose route changed are fenced, and those that
cannot be reached are noted with the time. A first map fences nothing. -/
def Chip.applyMap (c : Chip) (map epoch : Nat) : Chip :=
  let others := (List.range 8).filter fun q => q != c.chPos && bits c.members q 1 == 1
  let first := c.linkMap == 0
  let changed := others.filter fun q => !first && c.routeIn map q != c.route q
  let mask := (changed.map fun q => 2 ^ q).foldl (· ||| ·) 0
  let c := (c.wr 0x0B4 0x050 (word map)).setFld 0x0B4 0x054 0 8 epoch
  let un := others.filter fun q => (c.route q).isNone
  let c := { c with link := { c.link with
    unreach := un.map fun q => (q, (aget c.link.unreach q).getD c.time.now) } }
  let c := c.setFld 0x0B4 0x05C 4 4 (((c.route 0).map List.length).getD 0)
  if mask = 0 then c
  else ((c.setFld 0x0B4 0x04C 0 8 (c.fenced ||| mask)).raise 0x0B4 4).endXfers fun q => bits mask q 1 == 1

/-- The head publishes a map: LINK_EPOCH steps on and every member is told (R365). -/
def Chip.publishMap (c : Chip) (map : Nat) : Chip :=
  if map = c.linkMap then c
  else
    let e := (c.linkEpoch + 1) % 256
    (c.applyMap map e).sendMgmt none fun _ => .linkMap map e

/-- A port of the head came UP or left UP (R365, R372). -/
def Chip.portChanged (c : Chip) (p : Nat) : Chip :=
  if c.chEn && c.chHead && c.chState == chUp && !c.chAlone then
    let b := c.linkBits c.chPos p
    let m := c.linkMap &&& (2 ^ 32 - 1 - b)
    c.publishMap (if c.portState p = lpUp then m ||| b else m)
  else c

/-- The chapter is UP on this chip (R364). -/
def Chip.chapterUp (c : Chip) (members : Nat) : Chip :=
  let c := (c.setChapter members members (ones8 members) true c.chPos chUp).raise 0x0B4 0
  { c with link := { c.link with tsFirst := true, tsLast := none, tsGood := 0, tsBad := 0 } }

/-- The head sends CHAPTER_UP with the members that joined, and its first map. -/
def Chip.headUp (c : Chip) : Chip :=
  if !(c.chEn && c.chHead && c.chState == chForming) then c
  else
    let m := c.link.joined
    let c := (c.chapterUp m).sendMgmt none fun _ => .chapterUp m
    let (map, c) := c.headMap m
    c.publishMap map

/-- The links of other chips as the head learns of them, at an open moment (R365, R372): the spec names no message that tells it
(DESIGN CHOICE: log entry 39). -/
def Chip.linkTick (c : Chip) : Chip :=
  if c.chEn && c.chHead && c.chState == chUp && c.farLinks c.members != [] then
    let (map, c) := c.headMap c.members
    c.publishMap map
  else c

/-- Every position below EXPECT_SIZE has joined (R364). -/
def Chip.allJoined (c : Chip) : Bool := (List.range c.chExpect).all fun q => bits c.link.joined q 1 == 1

/-- Graphs that run end FAILED (R374, R375). -/
def Chip.failGraphs (c : Chip) : Chip :=
  (List.range 8).foldl (fun (c : Chip) g =>
    let s := c.fld (pgSlot g) 0x080 0 3
    if 3 ≤ s ∧ s ≤ 5 then (c.setFld (pgSlot g) 0x080 0 3 6).raise (pgSlot g) 4 else c) c

/-! Training (R362, R363). -/

/-- The lease entry of a port's credit pool by LV_SEL (R372, R487). -/
def creditSel (p : Nat) : Nat := 0x1040 + p

/-- Training from step 1. -/
def Chip.trainStart (c : Chip) (p : Nat) : Chip :=
  let c := (c.wr (pgRlk p) 0x048 0).setPortState p lpLocking
  c.setLport p { c.lport p with hellos := 0, since := c.time.now }

/-- A port that leaves UP: the map follows. Its credit lease ends with the port; while it retrains the lease runs on, so that a peer
that stays silent brings the port into quarantine (R372). -/
def Chip.leaveUp (c : Chip) (p st : Nat) : Chip :=
  let was := c.portState p == lpUp
  let c := c.setPortState p st
  let c := if st = lpDown then c.leaseFree (creditSel p) else c
  if was then c.portChanged p else c

/-- A flit with a good CRC renews the credit lease that is held (R372). -/
def Chip.renewCredit (c : Chip) (p : Nat) : Chip :=
  if (c.leaseAux (creditSel p)).state = 1 then c.leaseGrant (creditSel p) else c

/-- A port retrains from step 2 (R363). -/
def Chip.retrain (c : Chip) (p : Nat) : Chip :=
  if c.portState p < lpAligning ∨ c.portState p = lpQuarantined then c
  else
    let c := ((c.count (pgRlk p) 0x058).raise (pgRlk p) 2).logErr (pgRlk p) clsLink 0x41 0 0
    let c := ((c.setLane p false 1 false).setLane p true 1 false).leaveUp p lpRetraining
    c.setLport p { c.lport p with hellos := 0, since := c.time.now, resends := 0, naking := false }

/-- PORT_EN written (R362). -/
def Chip.portEn (c : Chip) (p : Nat) (on : Bool) : Chip :=
  let was := c.bit (pgRlk p) 0x040 0
  let c := c.setBit (pgRlk p) 0x040 0 on
  if on && !was then (if c.portState p = lpQuarantined then c else c.trainStart p)
  else if !on && was then c.leaveUp p lpDown
  else c

/-- PORT_EN. -/
def execPortEn (req : Requester) (port : Fin 4) (s : State) : Host.Outcome State Fault Refusal :=
  .next (s.onChip fun c => c.gated req (pgRlk port) 0x040 fun c => c.portEn port true)

/-- Clock recovery locks on a lane (R362, step 2); with both lanes' clocks there is none to miss (STATUS.CLK_LOST, R66, R68). -/
def Chip.cdrLock (c : Chip) (p : Nat) (lane inverted : Bool) : Chip :=
  if c.portState p = lpLocking ∨ c.portState p = lpRetraining then
    let c := (c.setLane p lane 0 true).setLane p lane 2 inverted
    if c.laneBit p false 0 && c.laneBit p true 0 then (c.setPortState p lpAligning).setBit (pgRlk p) 0x010 2 false else c
  else c

/-- CDR_LOCK. -/
def execCdrLock (port : Fin 4) (lane : Bool) (inverted : Bool) (s : State) : Host.Outcome State Fault Refusal :=
  .next (s.onChip fun c => c.cdrLock port lane inverted)

/-- Three consecutive markers lock a lane (R353): both lanes locked within a skew of 40 bytes are aligned. -/
def Chip.markerLock (c : Chip) (p : Nat) (lane : Bool) (skew : Nat) : Chip :=
  let s := c.portState p
  if (s = lpAligning ∨ s = lpRetraining) ∧ c.laneBit p false 0 ∧ c.laneBit p true 0 then
    let c := (c.setLane p lane 1 true).setFld (pgRlk p) 0x048 16 6 skew
    if c.laneBit p false 1 && c.laneBit p true 1 && decide (skew ≤ 40) then
      (c.setPortState p lpExchange).setLport p { c.lport p with hellos := 0 }
    else c
  else c

/-- MARKER_LOCK. -/
def execMarkerLock (port : Fin 4) (lane : Bool) (skew : BitVec 6) (s : State) : Host.Outcome State Fault Refusal :=
  .next (s.onChip fun c => c.markerLock port lane skew.toNat)

/-- MARKER_LOSS: four consecutive misses lose a lane's lock, and the port retrains (R353, R363). -/
def execMarkerLoss (port : Fin 4) (lane : Bool) (s : State) : Host.Outcome State Fault Refusal :=
  .next (s.onChip fun c => if c.laneBit port lane 1 then (c.setLane port lane 1 false).retrain port else c)

/-- CDR_LOSS: a lane loses clock recovery, and the port retrains (R31, R363); its mirrored clock is absent (R68). -/
def execCdrLoss (port : Fin 4) (lane : Bool) (s : State) : Host.Outcome State Fault Refusal :=
  .next (s.onChip fun c =>
    if c.laneBit port lane 0 then
      (((c.setBit (pgRlk port) 0x010 2 true).setLane port lane 0 false).setLane port lane 1 false).retrain port
    else c)

/-- A port enters UP (R362, step 4): SEQ 0, ACK 1023 and the credits of R358. Flits that no ACK covered are sent
again. -/
def Chip.enterUp (c : Chip) (p peer : Nat) : Chip :=
  let x := c.lport p
  let c := (List.range 5).foldl (fun (c : Chip) v => c.setCredits p v (vcBuffer v)) (c.setPortState p lpUp)
  let c := c.setLport p { x with
    hellos := 0, rxNext := 0, txNext := 0, replay := [], txq := x.replay ++ x.txq, resends := 0, naking := false, lastGood := c.time.now, freed := [] }
  let c := c.leaseGrant (creditSel p)
  let c := (c.raise (pgRlk p) 0).drainPort p
  let c := if c.link.firstUp.isNone then { c with link := { c.link with firstUp := some c.time.now } } else c
  let c := c.setFld (pgRlk p) 0x044 8 3 (if peer < 8 then peer else 0)
  let c := if c.chEn && c.chPosValid then c.sendEnums [p] else c
  c.portChanged p

/-- A received HELLO (R363): matching, it counts toward UP; otherwise TOPO_ERR is set and the port stays out of
UP. -/
def Chip.hello (c : Chip) (p : Nat) (m : Hello) : Chip :=
  let c := c.renewCredit p
  if c.portState p ≠ lpExchange then c
  else if m.port.val ≠ partner p ∨ m.topo ≠ c.chTorus ∨ m.expectM1.val + 1 ≠ c.chExpect then
    ((c.raise (pgRlk p) 3).logErr (pgRlk p) clsLink 0x43 0 0).setLport p { c.lport p with hellos := 0 }
  else
    let c := ((c.setBit (pgRlk p) 0x044 15 true).setFld (pgRlk p) 0x044 12 2 m.port).setFld (pgRlk p) 0x044 8 3
      (if m.pos.toNat < 8 then m.pos.toNat else 0)
    let n := (c.lport p).hellos + 1
    if n < 3 then c.setLport p { c.lport p with hellos := n } else c.enterUp p m.pos.toNat

/-- HELLO. -/
def execHello (port : Fin 4) (msg : Hello) (s : State) : Host.Outcome State Fault Refusal := .next (s.onChip fun c => c.hello port msg)

/-- TRAIN_TIMEOUT: a port not UP 20 ms after its training began counts TRAIN_FAIL and starts again from step 1
(R362). -/
def execTrainTimeout (port : Fin 4) (s : State) : Host.Outcome State Fault Refusal :=
  .next (s.onChip fun c =>
    let st := c.portState port
    if st = lpDown ∨ st = lpUp ∨ st = lpQuarantined then c
    else
      let c := c.advance ((c.lport port).since + 20000000)
      ((c.count (pgRlk port) 0x05C).logErr (pgRlk port) clsLink 0x40 0 0).trainStart port)

/-! Received flits (R354-R357). -/

/-- A good flit's ACK and credits (R354, R356, R357), and the renewal of the credit lease (R372). -/
def Chip.goodFlit (c : Chip) (p : Nat) (h : FlitHdr) : Chip :=
  let x := c.lport p
  let n := match x.replay.findIdx? fun f => f.seq == h.ack.toNat with
    | some i => i + 1
    | none => 0
  let c := c.setLport p { x with
    replay := x.replay.drop n, lastGood := c.time.now, resends := if n = 0 then x.resends else 0 }
  let c := c.leaseGrant (creditSel p)
  let v := h.cvc.toNat
  (c.setCredits p v (min (vcBuffer v) (c.credits p v + h.ccnt.toNat))).drainPort p

/-- A NAK episode opens (R356): one NAK for each. -/
def Chip.sendNak (c : Chip) (p : Nat) : Chip :=
  if (c.lport p).naking then c else (c.setLport p { c.lport p with naking := true }).count (pgRlk p) 0x050

/-- A flit with a bad CRC (R356). -/
def Chip.crcError (c : Chip) (p : Nat) : Chip := if c.portState p = lpUp then (c.count (pgRlk p) 0x04C).sendNak p else c

/-- What a received sequenced flit comes to (R356, R358): accepted, or discarded. -/
def Chip.seqFlit (c : Chip) (p : Nat) (h : FlitHdr) : Bool × Chip :=
  if c.portState p ≠ lpUp then (false, c)
  else if 5 ≤ h.vc.toNat then (false, c.crcError p)
  else
    let c := c.goodFlit p h
    let x := c.lport p
    if h.seq.toNat = x.rxNext then (true, c.setLport p { x with rxNext := (x.rxNext + 1) % 1024, naking := false })
    else if (x.rxNext + 1024 - h.seq.toNat) % 1024 ≤ 512 then (false, c)
    else (false, c.sendNak p)

/-- A sequenced flit for this chip that is accepted runs its rule, and its buffer entry is freed. -/
def Chip.onFlit (c : Chip) (p : Nat) (h : FlitHdr) (f : Chip → Chip) : Chip :=
  let (ok, c) := c.seqFlit p h
  if ok then (f c).freeEntry p h.vc.toNat else c

/-- FLIT_CRC_ERROR: a flit that no rule acts on. One with a bad CRC, a reserved TYPE or a reserved VC is a CRC error; a MGMT flit of a
reserved subtype, whose header is given, is accepted and discarded (R355, R356, R358). -/
def execFlitCrcError (port : BadFlit) (s : State) : Host.Outcome State Fault Refusal :=
  .next (s.onChip fun c => match port.mgmt with
    | none => c.crcError port.port
    | some h => c.onFlit port.port h id)

/-- A resend of the replay buffer (R356): the eighth in a row without progress makes the port retrain. -/
def Chip.resend (c : Chip) (p : Nat) : Chip :=
  let x := c.lport p
  if x.replay = [] then c
  else
    let c := (c.count (pgRlk p) 0x054).setLport p { x with resends := x.resends + 1 }
    if 8 ≤ x.resends + 1 then c.retrain p else c

/-- NAK: every flit from ACK + 1 onward is sent again. -/
def execNak (port : Fin 4) (hdr : FlitHdr) (s : State) : Host.Outcome State Fault Refusal :=
  .next (s.onChip fun c => if c.portState port = lpUp then (c.goodFlit port hdr).resend port else c)

/-- IDLE_FLIT: its ACK and CCNT count. -/
def execIdleFlit (port : Fin 4) (hdr : FlitHdr) (s : State) : Host.Outcome State Fault Refusal :=
  .next (s.onChip fun c => if c.portState port = lpUp then c.goodFlit port hdr else c.renewCredit port)

/-- REPLAY_TIMEOUT: no progress of the ACK for 4 µs. -/
def execReplayTimeout (port : Fin 4) (s : State) : Host.Outcome State Fault Refusal :=
  .next (s.onChip fun c => if c.portState port = lpUp then (c.advance (c.time.now + 4000)).resend port else c)

/-! Forming the chapter (R364, R365). -/

/-- A received ENUM. -/
def Chip.enumRx (c : Chip) (p x y : Nat) : Chip :=
  if !c.chEn then c
  else
    let pos := if c.chTorus then 4 * y + x else x
    let bad := if c.chTorus then decide (4 ≤ x ∨ 2 ≤ y) else decide (c.chExpect ≤ x ∨ y ≠ 0)
    if c.chPosValid then (if bad || pos != c.chPos then c.topoErr else c)
    else if bad then c.topoErr
    else
      let c := c.setChapter 0 0 0 true pos c.chState
      let c := { c with link := { c.link with headPort := some p } }
      (c.sendEnums [0, 1, 2, 3]).sendOn p 4 (.join pos)

/-- ENUM. -/
def execEnum (port : Fin 4) (hdr : FlitHdr) (x y : BitVec 8) (s : State) : Host.Outcome State Fault Refusal :=
  .next (s.onChip fun c => c.onFlit port hdr fun c => c.enumRx port x.toNat y.toNat)

/-- A received JOIN: recorded by the head, relayed by others. -/
def Chip.joinRx (c : Chip) (pos : Nat) : Chip :=
  if !c.chEn then c
  else if c.chHead then
    let c := { c with link := { c.link with joined := c.link.joined ||| 2 ^ pos } }
    if c.allJoined then c.headUp else c
  else match c.link.headPort with
    | some p => c.sendOn p 4 (.join pos)
    | none => c

/-- JOIN. -/
def execJoin (port : Fin 4) (hdr : FlitHdr) (pos : Fin 8) (s : State) : Host.Outcome State Fault Refusal :=
  .next (s.onChip fun c => c.onFlit port hdr fun c => c.joinRx pos)

/-- A received CHAPTER_UP: the member enters UP and relays it. -/
def Chip.chapterUpRx (c : Chip) (p members : Nat) : Chip :=
  if c.chEn && !c.chHead && c.chPosValid && c.chState == chForming then
    (c.chapterUp members).sendMgmt (some p) fun _ => .chapterUp members
  else c

/-- CHAPTER_UP. -/
def execChapterUp (port : Fin 4) (hdr : FlitHdr) (members : BitVec 8) (s : State) : Host.Outcome State Fault Refusal :=
  .next (s.onChip fun c => c.onFlit port hdr fun c => c.chapterUpRx port members.toNat)

/-- CHAPTER_UP_TIMEOUT: 10 ms after its first port came UP the head sends CHAPTER_UP. -/
def execChapterUpTimeout (s : State) : Host.Outcome State Fault Refusal :=
  .next (s.onChip fun c => match c.link.firstUp with
    | some t => if c.chEn && c.chHead && c.chState == chForming then (c.advance (t + 10000000)).headUp else c
    | none => c)

/-- A received LINK_MAP: a member that has not seen this epoch takes the map and relays it. -/
def Chip.linkMapRx (c : Chip) (p map epoch : Nat) : Chip :=
  if c.chEn && !c.chHead && (c.chState == chUp || c.chState == chHeadless) && (epoch != c.linkEpoch || map != c.linkMap) then
    (c.applyMap map epoch).sendMgmt (some p) fun _ => .linkMap map epoch
  else c

/-- LINK_MAP. -/
def execLinkMap (port : Fin 4) (hdr : FlitHdr) (map : BitVec 32) (epoch : BitVec 8) (s : State) : Host.Outcome State Fault Refusal :=
  .next (s.onChip fun c => c.onFlit port hdr fun c => c.linkMapRx port map.toNat epoch.toNat)

/-- CHAPTER_EN set: the head takes (0, 0) and forms the chapter; a chapter of one is UP at once (R361, R364). -/
def Chip.chapterStart (c : Chip) : Chip :=
  let c := { c with link := { c.link with
    headPort := none, joined := if c.chHead then 1 else 0, unreach := [], tsFirst := true
    firstUp := if c.upPorts = [] then none else some c.time.now } }
  let c := ((c.wr 0x0B4 0x050 0).wr 0x0B4 0x04C 0).setFld 0x0B4 0x05C 4 4 0
  let c := if c.chHead then c.setChapter 1 1 0 true 0 chForming else c.setChapter 0 0 0 false 0 chForming
  let c := c.showHead
  if !c.chHead then c
  else if c.allJoined then c.chapterUp 1
  else c.sendEnums [0, 1, 2, 3]

/-- CHAPTER_EN cleared (R361, R375): every port goes DOWN, commands that await a RESP end LINK_TIMEOUT, graphs fail,
and the chip is a chapter of one. -/
def Chip.chapterStop (c : Chip) : Chip :=
  let c := (List.range 4).foldl (fun (c : Chip) p =>
    if c.portState p = lpDown ∨ c.portState p = lpQuarantined then c else c.leaveUp p lpDown) c
  let c := (c.endXfers fun _ => true).failGraphs
  let c := { c with prc := { c.prc with lost := [] } }
  let c := ((c.wr 0x0B4 0x050 0).wr 0x0B4 0x04C 0).setFld 0x0B4 0x05C 0 8 0
  (c.setChapter 1 1 1 true 0 chIdle).showHead

/-- A write to CH_CTRL (R360, R361, R375). -/
def Chip.chapterCtrl (c : Chip) (req : Requester) (v : Word) : Chip :=
  let v := v &&& 0x77
  if c.chEn then
    if v.getLsbD 0 then c.logUse 0x0B4 0x04 req (regAddr 0x0B4 0x040) else (c.wr 0x0B4 0x040 v).chapterStop
  else
    let c := c.wr 0x0B4 0x040 v
    if v.getLsbD 0 then c.chapterStart else c

/-- CHAPTER_EN. -/
def execChapterEn (req : Requester) (value : Word) (s : State) : Host.Outcome State Fault Refusal :=
  .next (s.onChip fun c => c.gated req 0x0B4 0x040 fun c => c.chapterCtrl req value)

/-! Time (R370). -/

/-- TSYNC_EXCHANGE: a child sends its send time to its parent, 2^20 ns of its timebase after the exchange before. -/
def execTsyncExchange (s : State) : Host.Outcome State Fault Refusal :=
  .next (s.onChip fun c =>
    if c.chEn && !c.chHead && c.chState == chUp && (c.route 0).isSome then
      let c := match c.link.tsLast with
        | some t => c.advanceTb (t + 2 ^ 20)
        | none => c
      let now := c.time.tb.toNat
      let (t, c) := c.stamp 7
      { c with link := { c.link with tsT1 := some t, tsLast := some now } }
    else c)

/-- TS_LOCK after three exchanges in a row of one kind. -/
def Chip.tsLock (c : Chip) (good : Bool) : Chip :=
  let g := if good then c.link.tsGood + 1 else 0
  let b := if good then 0 else c.link.tsBad + 1
  let c := { c with link := { c.link with tsGood := min g 3, tsBad := min b 3 } }
  if 3 ≤ g then c.setBit 0x0B4 0x05C 0 true else if 3 ≤ b then c.setBit 0x0B4 0x05C 0 false else c

/-- The parent's answer: the delay, the offset, then a step at the first exchange and a slew after it. -/
def Chip.tsyncAnswer (c : Chip) (t1 t2 t3 : Nat) : Chip :=
  if c.link.tsT1 ≠ some t1 then c
  else
    let (t4, c) := c.stamp 7
    let d := (((t4 : Int) - t1) - ((t3 : Int) - t2) + 1) / 2
    let o := (t1 : Int) - (t2 - d)
    let c := { c with link := { c.link with tsT1 := none } }
    let c := (c.wr 0x0B4 0x058 (BitVec.ofInt 32 o)).tsLock (decide (o.natAbs < 100))
    let moved := c.link.tsLast.map fun t => ((t : Int) - o).toNat
    if c.link.tsFirst then { c.stepBy (-o) with link := { c.link with tsFirst := false, tsLast := moved } }
    else if 1000000 ≤ o.natAbs then { c.stepBy (-o) with link := { c.link with tsLast := moved } }.setBit 0x0B4 0x05C 0 false
    else c.wr 0x0D0 0x054 (BitVec.ofInt 32 (-o))

/-- A received TSYNC (R370, R375): the parent answers with its times, the child uses the answer. -/
def Chip.tsyncRx (c : Chip) (m : TsyncMsg) : Chip :=
  match m with
  | .request t1 =>
    let (t2, c) := c.stamp 7
    let (t3, c) := c.stamp 7
    { c with link := { c.link with tsReply := [t1.toNat, t2, t3] } }
  | .answer t1 t2 t3 => c.tsyncAnswer t1.toNat t2.toNat t3.toNat

/-- TSYNC: its ACK and CCNT count as those of any good flit (R354). -/
def execTsync (port : Fin 4) (msg : TsyncFlit) (s : State) : Host.Outcome State Fault Refusal :=
  .next (s.onChip fun c => if c.portState port = lpUp then (c.goodFlit port msg.hdr).tsyncRx msg.msg else c)

/-! Fences and losses (R372-R374). -/

/-- FENCE_LIFT: the fences lift when every LXE queue of the chip is STOPPED. -/
def execFenceLift (s : State) : Host.Outcome State Fault Refusal :=
  .next (s.onChip fun c =>
    if (unitQueues .lxe).all fun q => c.qstate q == qStopped then c.setFld 0x0B4 0x04C 0 8 0 else c)

/-- MEMBER_LOST: on the head, a position that has stayed unreachable for 2 ms is lost. -/
def execMemberLost (pos : Fin 8) (s : State) : Host.Outcome State Fault Refusal :=
  .next (s.onChip fun c => match aget c.link.unreach pos with
    | some t =>
      if c.chEn && c.chHead && c.chState == chUp && bits c.chLive pos 1 == 1 then
        let c := c.advance (t + 2000000)
        let c := (c.setBit 0x0B4 0x044 (24 + pos) false).setBit 0x0B4 0x048 pos true
        (c.raise 0x0B4 1).logErr 0x0B4 clsLink 0x44 0 0
      else c
    | none => c)

/-- HEAD_LOST: a member for which position 0 has stayed unreachable for 2 ms is HEADLESS. -/
def execHeadLost (s : State) : Host.Outcome State Fault Refusal :=
  .next (s.onChip fun c => match aget c.link.unreach 0 with
    | some t =>
      if c.chEn && !c.chHead && c.chState == chUp then
        let c := (c.advance (t + 2000000)).setChState chHeadless
        ((c.raise 0x0B4 2).logErr 0x0B4 clsLink 0x45 0 0).failGraphs
      else c
    | none => c)

/-- Revocation of a port's credit lease (R372): QUARANTINED, every flit queued or unacknowledged is discarded, and the buffer entries
that forwarded ones held are freed. -/
def Chip.portQuarantine (c : Chip) (p : Nat) : Chip :=
  let was := c.portState p == lpUp
  let c := c.setPortState p lpQuarantined
  let gone := (c.lport p).txq
  let c := (c.setLport p { c.lport p with replay := [], txq := [] }).freeEntries gone
  let c := ((c.count (pgRlk p) 0x060).raise (pgRlk p) 1).logErr (pgRlk p) clsLink 0x42 0 0
  if was then c.portChanged p else c

/-- The end of a port's quarantine: it trains from step 1 (R372). -/
def Chip.portQuarEnd (c : Chip) (p : Nat) : Chip :=
  if c.bit (pgRlk p) 0x040 0 then c.trainStart p else c.setPortState p lpDown

end Sys2Proof.Machine
end

