-- ==== Sys2Proof/Machine/Lxe.lean ====
section
/-! DEFINITION. The LXE's transfers and events (chapters 6, 7 and 15): PIECE_SEND and SIGNAL at the sender (R160, R177,
R366-R369), and received heads, data, SIGNALs and RESPs (R160, R367-R369). -/

namespace Sys2Proof.Machine

/-- The source ID of the LXE (R110). -/
def srcLxe : Nat := 0x38

/-- The vector counts of a view along each of its dimensions (R120, R145). -/
def Opd.vcounts (o : Opd) : List Nat := (List.range o.ndim).map fun k => if k = o.vv then (o.size k + 31) / 32 else o.size k

/-- The view indices of a vector of a view, by its dense number. -/
def Opd.viewVec (o : Opd) (lin : Nat) : List (List Nat) :=
  let j := digits o.vcounts lin
  (List.range (min 32 (o.size o.vv - 32 * j.getD o.vv 0))).map fun l =>
    j.zipIdx.map fun (x, k) => if k = o.vv then 32 * x + l else x

/-- The bytes of a source view: its whole vectors in dense vector order, padding lanes 0 (R124, R367). -/
def viewBytes (o : Opd) : EM (List (Option Byte)) := do
  let lins := List.range (o.vcounts.foldl (· * ·) 1)
  let m ← loadFor o (lins.flatMap fun lin => (o.viewVec lin).map toInts)
  return lins.flatMap fun lin =>
    let xs := (o.viewVec lin).map fun v => (elemAt o m o.d.type (toInts v)).v
    encodeLanes o.d.type (xs ++ List.replicate (32 - xs.length) (some 0))

/-- The destination origin of a PIECE_SEND (R172). -/
def Running.pieceOrigin (r : Running) : List Nat :=
  [bits (r.w 3) 0 20, bits (r.w 3) 20 20, bits (r.w 3) 40 20, bits (r.w 2) 32 20, bits (r.w 1) 16 20]

/-- Fields of a PIECE_SEND (R172). -/
def Running.pieceTid (r : Running) : Nat := bits r.param 4 12
def Running.pieceNum (r : Running) : Nat := bits r.param 16 8
def Running.pieceEvt (r : Running) : Nat := bits r.param 24 8
def Running.piecePos (r : Running) : Nat := bits r.param 0 3

/-- The head of a transfer (R367). -/
def Chip.headOf (c : Chip) (r : Running) (o : Opd) (id n : Nat) : PieceHeadMsg :=
  { tid := BitVec.ofNat 12 r.pieceTid, piece := BitVec.ofNat 8 r.pieceNum, destEvt := BitVec.ofNat 8 r.pieceEvt,
    srcPos := Fin.ofNat 8 c.chPos, dstPos := Fin.ofNat 8 r.piecePos, etype := BitVec.ofNat 8 o.d.type,
    ndim := BitVec.ofNat 8 o.ndim, origin := r.pieceOrigin.map (BitVec.ofNat 32),
    extent := (List.range 5).map fun k => BitVec.ofNat 32 (if k < o.ndim then o.size k else 1), vdim := BitVec.ofNat 8 o.vv,
    epoch := BitVec.ofNat 8 c.linkEpoch, xferId := BitVec.ofNat 16 id, nData := BitVec.ofNat 32 n }

/-! Receiving (R160, R367). -/

/-- The key of a binding (R160). -/
def bindKey (tid piece : Nat) : Nat := 256 * tid + piece

/-- What a head's binding names: the binding and the operand its writes go through, with XFORM = 0. -/
def Chip.boundOpd (c : Chip) (m : PieceHeadMsg) : Option (Binding × Opd) :=
  match aget c.link.bind (bindKey m.tid.toNat m.piece.toNat) with
  | none => none
  | some b => match c.copyDesc (b.handle / 4096) b.handle with
    | .ok d => some (b, Opd.of (Desc.ofWords d.qw) 0 (b.handle / 4096) srcLxe)
    | .error _ => none

/-- The destination origin relative to the piece's, along a dimension. -/
def relOrigin (b : Binding) (m : PieceHeadMsg) (k : Nat) : Int :=
  ((m.origin.getD k 0).toNat : Int) - (b.origin.getD k 0 : Nat)

/-- A transfer does not fit its piece (R160, R367, PIECE_RANGE): type or shape differ, the range falls outside, or the
range does not lie on whole vectors. -/
def pieceRangeBad (b : Binding) (o : Opd) (m : PieceHeadMsg) : Bool :=
  let ext := fun k => (m.extent.getD k 1).toNat
  m.etype.toNat != o.d.type || m.ndim.toNat != o.d.ndim || m.vdim.toNat != o.d.vdim ||
  ((List.range 5).any fun k =>
    let lo := relOrigin b m k
    decide (lo < 0) || decide ((if k < o.d.ndim then (b.extent.getD k 1 : Nat) else 1 : Int) < lo + ext k) || ext k == 0) ||
  relOrigin b m o.d.vdim % 32 != 0 ||
  (ext o.d.vdim % 32 != 0 && relOrigin b m o.d.vdim + ext o.d.vdim != (b.extent.getD o.d.vdim 1 : Nat))

/-- A range of a compressed piece that is not the whole of it: such a piece is one stream (R136). The receiver answers PIECE_RANGE
(DESIGN CHOICE: log entry 96). -/
def streamPart (b : Binding) (o : Opd) (m : PieceHeadMsg) : Bool :=
  o.d.comp != 0 && (List.range o.d.ndim).any fun k => relOrigin b m k != 0 || (m.extent.getD k 1).toNat != o.d.size k

/-- The checks of a received transfer in their order (R367): a RESP status, 0 where all pass. -/
def Chip.headCheck (c : Chip) (m : PieceHeadMsg) (stale : Bool) : Nat :=
  if stale ∧ m.epoch.toNat ≠ c.linkEpoch then 0xF0
  else match c.boundOpd m with
    | none => 0x2A
    | some (b, o) => if pieceRangeBad b o m || streamPart b o m then 0x2B else 0

/-- The vector counts of a transfer's range. -/
def headCounts (m : PieceHeadMsg) : List Nat :=
  (List.range m.ndim.toNat).map fun k =>
    let n := (m.extent.getD k 1).toNat
    if k = m.vdim.toNat then (n + 31) / 32 else n

/-- One vector of a transfer written through the bound descriptor. -/
def writeVec (b : Binding) (o : Opd) (m : PieceHeadMsg) (vec : Nat) (bs : List (Option Byte)) : EM Unit := do
  let j := digits (headCounts m) vec
  let lin := undigits o.d.vcounts (j.zipIdx.map fun (x, k) =>
    let r := (relOrigin b m k).toNat
    if k = o.d.vdim then r / 32 + x else r + x)
  let n := o.d.realLanes lin
  let xs := ((decodeLanes o.d.type bs).take n).map fun x => ({ v := x } : Elem)
  let _ ← storeVec o lin xs

/-- The vectors that a buffer holds whole, written in order; what is left of it, and the next vector. -/
def writeVecs (b : Binding) (o : Opd) (m : PieceHeadMsg) : Nat → Nat → List (Option Byte) → EM (Nat × List (Option Byte))
  | 0, vec, bs => return (vec, bs)
  | k + 1, vec, bs => do
    let n := vecBytes o.d.type
    if bs.length < n ∨ (headCounts m).foldl (· * ·) 1 ≤ vec then return (vec, bs)
    else
      writeVec b o m vec (bs.take n)
      writeVecs b o m k (vec + 1) (bs.drop n)

/-- A RESP sent (R369). -/
def Chip.sendResp (c : Chip) (dst ident status : Nat) : Chip :=
  c.sendTo dst 2 (.resp { ident := BitVec.ofNat 16 ident, status := BitVec.ofNat 8 status, pos := Fin.ofNat 8 c.chPos })

/-- The end of a received transfer: on success its event, then its RESP (R160, R367). -/
def Chip.recvEnd (c : Chip) (src : Nat) (r : Recv) : Chip :=
  let c := { c with
    link := { c.link with recvs := adel c.link.recvs src }
    queues := { c.queues with flight := adel c.queues.flight (128 + src) } }
  let c := if r.status = 0 then c.signal' r.msg.destEvt.toNat 1 else c
  c.sendResp src r.msg.xferId.toNat r.status

/-- A received PIECE_HEAD: its checks, and a transfer without data ends at once. -/
def Chip.headRx (c : Chip) (m : PieceHeadMsg) : Chip :=
  let r : Recv := { msg := m, status := c.headCheck m true, left := m.nData.toNat }
  if r.left = 0 then c.recvEnd m.srcPos r else { c with link := { c.link with recvs := aput c.link.recvs m.srcPos r } }

/-- The bytes of a data flit: those that its mask marks, and those whose parity failed in the receive buffer after the flit was
accepted, are poisoned (R376). -/
def flitBytes (data : BitVec 512) (mask : Option (BitVec 512)) (parity : BitVec 64) : List (Option Byte) :=
  (List.range 64).map fun i =>
    if (mask.getD 0).getLsbD i || parity.getLsbD i then none else some (BitVec.ofNat 8 (data.toNat / 256 ^ i))

/-- A received PIECE_DATA: the vectors it completes are written; the last one ends the transfer. -/
def dataRx (src : Nat) (data : BitVec 512) (parity : BitVec 64) : WM Unit := do
  let c ← getChip
  match aget c.link.recvs src with
  | none => pure ()
  | some r =>
    let buf := r.buf ++ flitBytes data r.mask parity
    let r' ← do
      if r.status ≠ 0 then pure { r with mask := none, left := r.left - 1 }
      else match c.boundOpd r.msg with
        | none => pure { r with mask := none, left := r.left - 1, status := 0x2A }
        | some (b, o) => match ← (writeVecs b o r.msg 5 r.vec buf).run with
          | .ok (v, rest) => pure { r with mask := none, left := r.left - 1, vec := v, buf := rest }
          | .error _ => pure { r with mask := none, left := r.left - 1, status := 0x24 }
    meetWrites (128 + src) srcLxe
    chipM fun c =>
      if r'.left = 0 then c.recvEnd src r' else { c with link := { c.link with recvs := aput c.link.recvs src r' } }

/-- A received PIECE_PMAP: the mask of the next data flit of its source. -/
def Chip.pmapRx (c : Chip) (src : Nat) (mask : BitVec 512) : Chip :=
  match aget c.link.recvs src with
  | some r => { c with link := { c.link with recvs := aput c.link.recvs src { r with mask := some mask } } }
  | none => c

/-- A received SIGNAL (R177, R368): applied to its counter, then answered. The answer is OK where the addition overflows too
(DESIGN CHOICE: log entry 97). -/
def Chip.signalRx (c : Chip) (m : SignalMsg) : Chip :=
  if m.epoch.toNat ≠ c.linkEpoch then c.sendResp m.srcPos m.sigId.toNat 0xF0
  else (c.signal' m.evt.toNat m.inc.toNat).sendResp m.srcPos m.sigId.toNat 0


/-! Responses (R369). -/

/-- A received RESP: the command it answers goes on, or ends with its code; one that no command awaits is counted. -/
def Chip.respRx (c : Chip) (id status : Nat) : Chip :=
  match aget c.link.xfers id with
  | none => c.count 0x0B4 0x068
  | some x =>
    if status = 0 then
      let c := { c with link := { c.link with xfers := adel c.link.xfers id } }
      match c.running x.q with
      | some r =>
        let c := c.setRunning x.q (some { r with awaiting := r.awaiting.filter fun i => i != id })
        if r.op = 0x18 then c.count 0x0B4 0x060 else c
      | none => c
    else
      let c := { c with link := { c.link with xfers := c.link.xfers.filter fun y => y.2.q != x.q } }
      if status = 0xF0 then (c.endRunning x.q 0x29).count 0x0B4 0x064 else c.endRunning x.q status

/-! Arrival (R359, R367-R369, R526). -/

/-- A flit for this chip acts. -/
def deliver (src : Nat) (parity : BitVec 64) (b : FlitBody) : WM Unit :=
  match b with
  | .head m => chipM fun c => c.headRx m
  | .pmap mask => chipM fun c => c.pmapRx src mask
  | .data v => dataRx src v parity
  | .signal m => chipM fun c => c.signalRx m
  | .resp m => chipM fun c => c.respRx m.ident.toNat m.status.toNat
  | .enum .. | .join .. | .chapterUp .. | .linkMap .. => pure ()

/-- A sequenced flit of a transfer, SIGNAL or RESP received on a port: accepted, it goes on along its route, or acts here. A PIECE or
SIGNAL flit waits in its buffer while page 0x0B4 is in reset (R526) or CK_FAB is stopped (R457). -/
def arrive (p : Nat) (h : FlitHdr) (src : Nat) (parity : BitVec 64) (b : FlitBody) : WM Unit := do
  let ok ← modifyGet fun w => w.useChip fun c => c.seqFlit p h
  let resp := match b with
    | .resp _ => true
    | _ => false
  if ok then
    match h.route with
    | q :: rest => chipM fun c => c.forward p h.vc.toNat q rest b
    | [] =>
      if !resp && ((← getChip).resetBusy 0x0B4 || (← getChip).tripped || (← getChip).link.parked != []) then
        let x : Parked := { port := p, vc := h.vc.toNat, body := b, src := src, parity := parity }
        chipM fun c => { c with link := { c.link with parked := c.link.parked ++ [x] } }
      else
        deliver src parity b
        chipM fun c => c.freeEntry p h.vc.toNat

/-- The flits that waited for the LXE's reset to end, and for its clock, act in their order. -/
def unpark : WM Unit := do
  let c ← getChip
  if !c.resetBusy 0x0B4 && !c.tripped then
    chipM fun c => { c with link := { c.link with parked := [] } }
    for x in c.link.parked do
      deliver x.src x.parity x.body
      chipM fun c => c.freeEntry x.port x.vc

/-- PIECE_HEAD. -/
def execPieceHead (port : Fin 4) (hdr : FlitHdr) (msg : PieceHeadMsg) (s : State) : Host.Outcome State Fault Refusal :=
  s.onMem (arrive port hdr msg.srcPos 0 (.head msg))

/-- PIECE_PMAP. -/
def execPiecePmap (port : Fin 4) (hdr : FlitHdr) (src : Fin 8) (mask : BitVec 512) (s : State) :
    Host.Outcome State Fault Refusal :=
  s.onMem (arrive port hdr src 0 (.pmap mask))

/-- PIECE_DATA. -/
def execPieceData (port : Fin 4) (hdr : FlitHdr) (src : Fin 8) (data : BitVec 512) (parity : BitVec 64) (s : State) :
    Host.Outcome State Fault Refusal :=
  s.onMem (arrive port hdr src parity (.data data))

/-- SIGNAL_FLIT. -/
def execSignalFlit (port : Fin 4) (hdr : FlitHdr) (msg : SignalMsg) (s : State) : Host.Outcome State Fault Refusal :=
  s.onMem (arrive port hdr msg.srcPos 0 (.signal msg))

/-- RESP. -/
def execResp (port : Fin 4) (hdr : FlitHdr) (msg : RespMsg) (s : State) : Host.Outcome State Fault Refusal :=
  s.onMem (arrive port hdr msg.pos 0 (.resp msg))

/-! Sending (R160, R366-R369). -/

/-- A destination can be sent to: it is not fenced and a route exists (R373). -/
def Chip.sendable (c : Chip) (dst : Nat) : Bool := bits c.fenced dst 1 == 0 && (c.route dst).isSome

/-- A new identifier for a transfer or SIGNAL to a position whose RESP a queue awaits (R369). -/
def Chip.newXfer (c : Chip) (q dst : Nat) : Nat × Chip :=
  let id := c.link.nextId % 65536
  (id, { c with link := { c.link with
    nextId := (id + 1) % 65536, xfers := aput c.link.xfers id { q := q, dst := dst, sent := c.time.now } } })

/-- The command of a queue awaits the RESPs of its transfers; where it has ended already, it awaits none. -/
def Chip.awaitXfers (c : Chip) (q : Nat) : Chip :=
  match c.running q with
  | some r =>
    if r.status = 0 then
      c.setRunning q (some { r with awaiting := (c.link.xfers.filter fun x => x.2.q == q).map Prod.fst })
    else
      let c := { c with link := { c.link with xfers := c.link.xfers.filter fun x => x.2.q != q } }
      if r.status = 0x29 then c.count 0x0B4 0x064 else c
  | none => c

/-- The flits of a transfer (R367). -/
def Chip.sendPiece (c : Chip) (q : Nat) (r : Running) (o : Opd) (bs : List (Option Byte)) : Chip :=
  let dst := r.piecePos
  let n := (bs.length + 63) / 64
  let (id, c) := c.newXfer q dst
  let c := c.sendTo dst 0 (.head (c.headOf r o id n)) (some id)
  (List.range n).foldl (fun (c : Chip) i =>
    let part := (bs.drop (64 * i)).take 64
    let mask := (part.zipIdx.map fun (b, k) => if b.isNone then 2 ^ k else 0).sum
    let data := (part.zipIdx.map fun (b, k) => (b.getD 0).toNat * 256 ^ k).sum
    let c := if mask = 0 then c else c.sendTo dst 0 (.pmap (BitVec.ofNat 512 mask)) (some id)
    c.sendTo dst 0 (.data (BitVec.ofNat 512 data)) (some id)) c

/-- The origin and the extents of a piece, as this chip knows them: by its own binding, or by the piece table of a graph image that it
has loaded (R159, R306). -/
def Chip.pieceShape (c : Chip) (tid piece : Nat) : Option (List Nat × List Nat) :=
  match aget c.link.bind (bindKey tid piece) with
  | some b => some (b.origin, b.extent)
  | none => (c.prc.slots.flatMap fun s => s.2.img.pieces).findSome? fun x =>
      if x.tid = tid ∧ x.piece = piece then some (x.origin.take x.ndim, x.extent.take x.ndim) else none

/-- The whole-vector rule of R160 at the sender (PIECE_ALIGN): along VDIM the origin in the piece is a multiple of 32, and so is the
extent unless it reaches the end of the piece. Of a piece that the chip does not know, the global origin is judged, and the
receiver judges the extent (DEDUCED: log entry 96). -/
def Chip.pieceAlignBad (c : Chip) (r : Running) (o : Opd) : Bool :=
  let org := r.pieceOrigin.getD o.vv 0
  let n := o.size o.vv
  match c.pieceShape r.pieceTid r.pieceNum with
  | some (at?, ext) => (org + 32 - at?.getD o.vv 0 % 32) % 32 != 0 || (n % 32 != 0 && org + n != at?.getD o.vv 0 + ext.getD o.vv 1)
  | none => org % 32 != 0

/-- PIECE_SEND (R160, R172, R366, R367). -/
def pieceSendBody (q : Nat) (r : Running) : EM Stats := do
  let o ← needOpd q r 0
  checkCodes [xformOf r 0 o.d .load (some o.d.type) false, if o.conv ≠ 0 then 0x0E else 0]
  let c ← liftM getChip
  check (c.pieceAlignBad r o) 0x15
  let bs ← viewBytes o
  let st : Stats := { poison := bs.any Option.isNone }
  if r.piecePos = c.chPos then
    let m := c.headOf r o 0 0
    check ((c.boundOpd m).any fun (b, d) => streamPart b d m) 0x0F
    let code := c.headCheck m false
    check (code != 0) code
    match c.boundOpd m with
    | none => throw 0x2A
    | some (b, d) =>
      let _ ← writeVecs b d m (bs.length + 1) 0 bs
      let (past, c') := (← liftM getChip).signal r.pieceEvt 1
      liftM (chipM fun _ => c')
      check past 0x27
      return st
  else
    check (!c.sendable r.piecePos) 0x29
    liftM (chipM fun c => c.sendPiece q r o bs)
    return st

/-- PIECE_SEND: a remote one awaits its RESP. -/
def execPieceSend (q : Fin 128) (s : State) : Host.Outcome State Fault Refusal :=
  s.onMem do
    let c ← getChip
    let fresh := (c.running q).any fun r => r.op == 0x18 && !r.executed && !r.finished
    execOp q 0x18 (pieceSendBody q) fun _ _ => []
    if fresh then chipM fun c => c.awaitXfers q

/-- SIGNAL (R177, R368): one flit to each remote destination. The local counter takes it as the command retires (R187). -/
def signalBody (q : Nat) (r : Running) : EM Stats := do
  let evt := bits r.param 0 8
  let mask := bits r.param 8 8
  let inc := bits r.param 16 16
  let c ← liftM getChip
  let far := (List.range 8).filter fun p => bits mask p 1 == 1 && p != c.chPos
  let c2 := (far.filter c.sendable).foldl (fun (c : Chip) p =>
    let (id, c) := c.newXfer q p
    c.sendTo p 0 (.signal {
      srcPos := Fin.ofNat 8 c.chPos, evt := BitVec.ofNat 8 evt, inc := BitVec.ofNat 16 inc
      epoch := BitVec.ofNat 8 c.linkEpoch, sigId := BitVec.ofNat 16 id }) (some id)) c
  liftM (chipM fun _ => c2)
  check (far.any fun p => !c.sendable p) 0x29
  return {}

/-- SIGNAL. -/
def execSignal (q : Fin 128) (s : State) : Host.Outcome State Fault Refusal :=
  s.onMem do
    let c ← getChip
    let fresh := (c.running q).any fun r => r.op == 0x02 && !r.executed && !r.finished
    execOp q 0x02 (signalBody q) fun _ _ => []
    if fresh then chipM fun c => c.awaitXfers q

/-- The moment at which the last flit of a queue's command was sent, while it awaits a RESP; none while a flit of it still waits for a
credit. -/
def Chip.lastSent (c : Chip) (q : Nat) : Option Nat :=
  let mine := c.link.xfers.filter fun x => x.2.q == q
  let waits := c.link.ports.any fun p => p.2.txq.any fun f => f.xfer.any fun id => mine.any fun x => x.1 == id
  match mine.map fun x => x.2.sent with
  | [] => none
  | t :: ts => if waits then none else some (ts.foldl max t)

/-- LINK_TIMEOUT: no RESP within 2 ms ends the command. -/
def execLinkTimeout (q : Fin 128) (s : State) : Host.Outcome State Fault Refusal :=
  .next (s.onChip fun c => match c.lastSent q with
    | some t =>
      let c := c.advance (t + 2000000)
      let c := { c with link := { c.link with xfers := c.link.xfers.filter fun x => x.2.q != q.val } }
      (c.endRunning q 0x29).count 0x0B4 0x064
    | none => c)

/-! The SIGNALs of the Precentor firmware (R309, R320, R321). -/

/-- This chip decides: it is the head of its chapter, or a single chip (R312). -/
def Chip.isHead (c : Chip) : Bool := !c.chEn || c.chHead

/-- A position is alive. -/
def Chip.alivePos (c : Chip) (q : Nat) : Bool := if c.chEn then bits c.chLive q 1 == 1 else q == c.chPos

/-- The firmware's own entry among the queues that await a RESP. -/
def prcQueue : Nat := 128

/-- A SIGNAL of the firmware to a position; to one that cannot be reached it is lost. -/
def Chip.prcSignal (c : Chip) (pos e inc : Nat) : Chip :=
  if pos = c.chPos then c.signal' e inc
  else if c.sendable pos then
    let (id, c) := c.newXfer prcQueue pos
    c.sendTo pos 0 (.signal {
      srcPos := Fin.ofNat 8 c.chPos, evt := BitVec.ofNat 8 e, inc := BitVec.ofNat 16 inc
      epoch := BitVec.ofNat 8 c.linkEpoch, sigId := BitVec.ofNat 16 id }) (some id)
  else c

/-- A SIGNAL to every position that is alive. -/
def Chip.prcSignalAll (c : Chip) (e inc : Nat) : Chip :=
  ((List.range 8).filter c.alivePos).foldl (fun (c : Chip) q => c.prcSignal q e inc) c

/-- LOSS of this position signalled to the head. -/
def Chip.signalLoss (c : Chip) (g inc : Nat) : Chip := c.prcSignal 0 (c.evtBase g + 24 + c.chPos) inc

/-- The loss of a unit of this chip reported for a slot, once. -/
def Chip.lossUnit (c : Chip) (g u : Nat) : Chip :=
  match c.gslot g with
  | none => c
  | some s =>
    if !c.slotLive g || bits s.told u 1 == 1 then c
    else (c.setGslot g (some { s with told := s.told + 2 ^ u })).signalLoss g (2 ^ u)

/-- The loss of a unit reported for every slot that runs. -/
def Chip.lossUnits (c : Chip) (u : Nat) : Chip := c.prc.slots.foldl (fun (c : Chip) s => c.lossUnit s.1 u) c

end Sys2Proof.Machine
end

