-- ==== Sys2Proof/Machine/Power.lean ====
section
/-! DEFINITION. Power (chapters 18 and 20): the policy window's hardware loops (R454-R456), protection cases (R51, R457,
R464), wake (R453), the core regulator (R455, R461, R501), and test access (R41, R519). -/

namespace Sys2Proof.Machine

/-! Limits of the variant (R3, R5, R457, R463, R465). -/

/-- The maximum Choir clock. -/
def Chip.choLimit (c : Chip) : Nat := if c.pwr.variantE then 1000 else 1200

/-- T_TRIP_DC and T_SHUT_DC. -/
def Chip.tTrip (c : Chip) : Int := (c.rd 0x003 0x068).toInt
def Chip.tShut (c : Chip) : Int := (c.rd 0x003 0x06C).toInt

/-- A temperature register, 0.1 °C in bits [15:0] (R465). -/
def Chip.temp (c : Chip) (off : Nat) : Int := sext 16 (c.fld 0x003 off 0 16)

/-- TJ_MAX. -/
def Chip.tjMax (c : Chip) : Int := c.temp 0x060

/-- The Choir clock and its mirror on the CHO common page (R299, R463). -/
def Chip.choMhz (c : Chip) : Nat := c.fld 0x001 0x048 0 11
def Chip.setCho (c : Chip) (f : Nat) : Chip := (c.setFld 0x001 0x048 0 11 f).setFld 0x060 0x04C 0 11 f

/-- CHO_MIN_MHZ and CHO_MAX_MHZ. -/
def Chip.choMin (c : Chip) : Nat := c.fld 0x001 0x040 0 11
def Chip.choMax (c : Chip) : Nat := c.fld 0x001 0x040 16 11

/-- VEC_DUTY and FAB_DUTY. -/
def Chip.vecDuty (c : Chip) : Nat := c.fld 0x001 0x048 16 5
def Chip.setVecDuty (c : Chip) (d : Nat) : Chip := c.setFld 0x001 0x048 16 5 d

/-- VCORE_TGT_MV, and its code on VR_VID with the moment of the change (R501). -/
def Chip.vcore (c : Chip) : Nat := c.fld 0x002 0x044 0 10
def Chip.setVcore (c : Chip) (v : Nat) : Chip :=
  { (c.setFld 0x002 0x044 0 10 v).setFld 0x002 0x08C 0 6 ((v - 600) / 5) with pwr := { c.pwr with vidAt := some c.time.now } }

/-! Protection (R51, R457, R459, R464). -/

/-- CORE_UV: the clocks are cut to the safe rate. -/
def Chip.coreUv (c : Chip) : Chip :=
  let c := c.protEnter 2
  let c := ((c.setCho 600).setVecDuty (min 8 c.vecDuty)).setFld 0x001 0x048 24 5 8
  { c with pwr := { c.pwr with choNext := none, uvOkSince := none } }

/-- A write of a policy field above its protection limit was clamped (R52, R74). -/
def Chip.clamped (c : Chip) : Chip := c.conflict 4

/-- The window's clock fields written (R463): each above the variant maximum stores it. -/
def Chip.setChoWindow (c : Chip) (v : Word) : Chip :=
  let lim := c.choLimit
  let hi := bits v.toNat 16 11
  let lo := bits v.toNat 0 11
  let c := c.wr 0x001 0x040 (word (min hi lim * 2 ^ 16 + min lo lim))
  if lim < hi ∨ lim < lo then c.clamped else c

/-- PWR_CAP_MW written (R464). -/
def Chip.setCap (c : Chip) (v : Nat) : Chip :=
  let c' := c.wr 0x002 0x040 (word (min (v % 65536) 30000))
  if 30000 < v % 65536 then c'.clamped else c'

/-- T_LIMIT_DC written (R465). -/
def Chip.setTLimit (c : Chip) (v : Nat) : Chip :=
  let t := sext 16 v
  let c' := c.wr 0x003 0x064 (word (unsext 16 (min t c.tTrip)))
  if c.tTrip < t then c'.clamped else c'

/-- JUNCTION_TRIP: the datapath clocks stop. -/
def execJunctionTrip (s : State) : Host.Outcome State Fault Refusal :=
  .next (s.onChip fun c => if c.tTrip ≤ c.tjMax ∧ !c.protOn 1 then (c.protEnter 1).raise 0x003 0 else c)

/-- CORE_UV: the sense voltage has been too low for 2 µs. -/
def execCoreUv (vsenseMv : BitVec 10) (s : State) : Host.Outcome State Fault Refusal :=
  .next (s.onChip fun c =>
    let v := vsenseMv.toNat
    let c := c.setFld 0x002 0x044 16 10 v
    if v + 50 < c.vcore ∨ v < 620 then (c.advance (c.time.now + 2000)).coreUv else c)

/-- POLICY_RAISE. -/
def execPolicyRaise (req : Requester) (value : BitVec 8) (s : State) : Host.Outcome State Fault Refusal :=
  .next (s.onChip fun c => c.gated req 0x002 0x054 fun c => c.policyRaise value.toNat)

/-- f_avs (R455). -/
def Chip.fAvs (c : Chip) : Nat :=
  let m := sext 16 (c.fld 0x002 0x04C 0 16)
  if 60 ≤ m then c.choMhz + 25 else if 10 ≤ m then c.choMhz else c.choMhz - 25

/-- Every lamp head of the chains is out of over-temperature. -/
def Chip.lampsCool (c : Chip) : Bool := c.car.chains.all fun x => x.2.devs.all fun d => !d.2.dark

/-- PROTECTION_RELEASE: a case that meets its release condition ends (R457). -/
def Chip.protRelease (c : Chip) (k : ProtCase) : Chip :=
  match k with
  | .junction =>
    if c.protOn 1 ∧ c.tjMax ≤ c.tTrip - 50 then (c.setBit 0x002 0x050 24 false).setCho c.choMin else c
  | .coreUv => match c.pwr.uvOkSince with
    | some t =>
      if c.protOn 2 then
        let c := (c.advance (t + 1000000)).setBit 0x002 0x050 25 false
        (c.setFld 0x001 0x048 24 5 16).setCho (max 600 c.choMin)
      else c
    | none => c
  | .lampOt => if c.protOn 3 ∧ c.lampsCool then c.setBit 0x002 0x050 26 false else c

/-- PROTECTION_RELEASE. -/
def execProtectionRelease (case : ProtCase) (s : State) : Host.Outcome State Fault Refusal :=
  .next (s.onChip fun c => c.protRelease case)

/-! The loops (R454-R456). -/

/-- Sensor readings stored; a failed sensor reads as T_TRIP_DC (R457, R465). -/
def Chip.setTemps (c : Chip) (ts : List Int) : Chip :=
  let vals := (List.range 8).map fun i => if c.bit 0x003 0x070 i then c.tTrip else ts.getD i 0
  let c := vals.zipIdx.foldl (fun (c : Chip) ((t, i) : Int × Nat) => c.wr 0x003 (0x040 + 4 * i) (word (unsext 16 t))) c
  let tj := vals.foldl max (vals.getD 0 0)
  let c := c.wr 0x003 0x060 (word (unsext 16 tj))
  if c.temp 0x064 ≤ tj then c.raise 0x003 1 else c

/-- SENSOR_FAIL: a sensor fails its self-check. -/
def execSensorFail (sensor : Fin 8) (s : State) : Host.Outcome State Fault Refusal :=
  .next (s.onChip fun c =>
    if c.bit 0x003 0x070 sensor then c
    else ((c.setBit 0x003 0x070 sensor true).setTemps ((List.range 8).map fun i => c.temp (0x040 + 4 * i))).logErr 0x003 clsUnit 0x65 0 0)

/-- A ceiling of the thermal or power loop after a period: one step down, one step up, or held (R456). -/
def Chip.ceiling (c : Chip) (f : Option Nat) (fall rise : Bool) : Nat :=
  let f := f.getD c.choLimit
  if fall then max (min f c.choMhz - 25) (c.choMin - 25) else if rise then min c.choLimit (f + 25) else f

/-- The adaptive voltage (R455). -/
def Chip.avsStep (c : Chip) : Chip :=
  let m := sext 16 (c.fld 0x002 0x04C 0 16)
  let v := c.vcore
  if m < 20 then
    let c := { c with pwr := { c.pwr with avsHigh := 0 } }
    if v < 850 then c.setVcore (v + 5) else c
  else if m ≤ 60 then { c with pwr := { c.pwr with avsHigh := 0 } }
  else
    let n := c.pwr.avsHigh + 1
    if n < 10 then { c with pwr := { c.pwr with avsHigh := n } }
    else
      let c := { c with pwr := { c.pwr with avsHigh := 0 } }
      if 650 < v then c.setVcore (v - 5) else c

/-- One step of the Choir clock toward a target (R454): a rise waits until a voltage change has settled (R455). -/
def Chip.choStep (c : Chip) (target : Nat) : Chip :=
  let f := c.choMhz
  if target < f then { c.setCho (max target (f - 25)) with pwr := { c.pwr with choNext := none } }
  else if f < target then
    let g := min target (f + 25)
    if c.pwr.vidAt.isSome then { c with pwr := { c.pwr with choNext := some g } } else c.setCho g
  else c

/-- The clock and the CK_VEC duty (R454, R456): at the minimum clock the duty falls, and it rises again before the
clock does. -/
def Chip.clockStep (c : Chip) (fAvs fTherm fPwr : Nat) : Chip :=
  let lo := c.choMin
  let less := decide (fTherm < lo ∨ fPwr < lo)
  let next := max (min c.choMax (min fAvs (min fTherm fPwr))) lo
  let dMin := c.fld 0x001 0x044 0 5
  let dMax := c.fld 0x001 0x044 8 5
  let d := c.vecDuty
  if c.choMhz ≤ lo ∧ less then (if dMin < d then c.setVecDuty (d - 1) else c)
  else if dMax < d then (c.setVecDuty (d - 1)).choStep next
  else if d < dMax ∧ !less ∧ c.choMhz ≤ next then c.setVecDuty (d + 1)
  else c.choStep next

/-- CAP_UNMET (R456): the cap exceeded for 10 ms at both minimums, until the power falls below it. -/
def Chip.capStep (c : Chip) (mw : Nat) : Chip :=
  let cap := c.fld 0x002 0x040 0 16
  let atMin := decide (c.choMhz ≤ c.choMin) && decide (c.vecDuty ≤ c.fld 0x001 0x044 0 5)
  if mw < cap then { c.setBit 0x002 0x050 30 false with pwr := { c.pwr with capSince := none } }
  else if mw ≤ cap ∨ !atMin then { c with pwr := { c.pwr with capSince := none } }
  else match c.pwr.capSince with
    | none => { c with pwr := { c.pwr with capSince := some c.time.now } }
    | some t =>
      if t + 10000000 ≤ c.time.now ∧ !c.bit 0x002 0x050 30 then (c.setBit 0x002 0x050 30 true).raise 0x002 1 else c

/-- The readings of a period stored. -/
def Chip.senseStore (c : Chip) (x : LoopSense) : Chip :=
  let c := (c.advance (c.time.now + 100000)).setTemps (x.temps.map fun t => sext 16 t.toNat)
  ((c.setFld 0x002 0x044 16 10 x.vsenseMv.toNat).wr 0x002 0x048 (word x.pkgMw.toNat)).wr 0x002 0x04C (word x.marginPs.toNat)

/-- The new ceilings of the thermal and power loops. -/
def Chip.ceilings (c : Chip) (mw : Nat) : Nat × Nat :=
  let cap := c.fld 0x002 0x040 0 16
  let tj := c.tjMax
  let lim := c.temp 0x064
  (c.ceiling c.pwr.fTherm (decide (lim ≤ tj)) (decide (tj < lim - 30)), c.ceiling c.pwr.fPwr (decide (cap ≤ mw)) (decide (100 * mw < 95 * cap)))

/-- Since when the release condition of CORE_UV holds. -/
def Chip.uvStep (c : Chip) (fA : Nat) : Chip :=
  let ok := decide (c.vcore ≤ c.fld 0x002 0x044 16 10 + 25) && decide (c.choMin ≤ fA)
  { c with pwr := { c.pwr with uvOkSince := if ok then some (c.pwr.uvOkSince.getD c.time.now) else none } }

/-- The loops' actions of a period, from f_avs, f_therm and f_pwr (R454). -/
def Chip.loopAct (c : Chip) (mw fA fT fP : Nat) : Chip :=
  let c := { c with pwr := { c.pwr with fTherm := some fT, fPwr := some fP } }
  let c := (c.avsStep.uvStep fA).capStep mw
  if decide (fA < c.choMin) && !c.protOn 1 then c.coreUv
  else if c.protOn 1 || c.protOn 2 then c
  else c.clockStep fA fT fP

/-- LOOP_PERIOD: one period of 100 µs. A protection case overrides the loops; in SLEEP only the sensors are read. -/
def Chip.loopPeriod (c : Chip) (x : LoopSense) : Chip :=
  let c := c.senseStore x
  if c.pstate = 2 then c
  else
    let f := c.ceilings x.pkgMw.toNat
    c.loopAct x.pkgMw.toNat c.fAvs f.1 f.2

/-- LOOP_PERIOD. -/
def execLoopPeriod (sense : LoopSense) (s : State) : Host.Outcome State Fault Refusal :=
  .next (s.onChip fun c => c.loopPeriod sense)

/-! The core regulator (R455, R461, R501). -/

/-- VR_SETTLED: the first VR_READY high sample 20 µs after a code change; a clock rise that waited takes effect. -/
def execVrSettled (s : State) : Host.Outcome State Fault Refusal :=
  .next (s.onChip fun c => match c.pwr.vidAt with
    | some t =>
      let c := c.advance (t + 20000)
      let next := c.pwr.choNext
      let c := { c with pwr := { c.pwr with vidAt := none, choNext := none } }
      match next with
      | some f => if c.protOn 1 ∨ c.protOn 2 ∨ min f c.choMax < c.choMhz then c else c.setCho (min f c.choMax)
      | none => c
    | none => c)

/-- VR_SETTLE_TIMEOUT: not settled within 1 ms (R461). -/
def execVrSettleTimeout (s : State) : Host.Outcome State Fault Refusal :=
  .next (s.onChip fun c => match c.pwr.vidAt with
    | some t => (c.advance (t + 1000000)).coreUv
    | none => c)

/-- VR_DROP: VR_READY low outside a code change (R501). -/
def execVrDrop (s : State) : Host.Outcome State Fault Refusal :=
  .next (s.onChip fun c => if c.pwr.vidAt.isNone then c.count 0x002 0x088 else c)

/-! Wake (R415, R453). -/

/-- The bit of a wake source in WAKE_EN. -/
def wakeBit : WakeSrc → Nat
  | .uart0 => 0 | .gpio => 1 | .pcie => 2 | .alarm => 3

/-- A wake source acts where WAKE_EN lets it: the part returns to ACTIVE. -/
def Chip.wake (c : Chip) (src : WakeSrc) : Chip :=
  let ps := c.pstate
  let c := if src = .pcie then { c with pcie := { c.pcie with d3hot := false } } else c
  if ps = 0 ∨ !c.bit 0x002 0x070 (wakeBit src) then c
  else
    let c := (c.wr 0x002 0x06C 0).wr 0x002 0x074 (word (2 ^ wakeBit src))
    if ps = 2 then
      let c := (c.setVcore c.vcore).setBit 0x008 0x0C4 31 true
      if src = .uart0 then c.wakeUart else c
    else c

/-- WAKE_EVENT. -/
def execWakeEvent (src : WakeSrc) (s : State) : Host.Outcome State Fault Refusal := .next (s.onChip fun c => c.wake src)

/-- TB_ALARM: the timebase has reached TB_ALARM. -/
def execTbAlarm (s : State) : Host.Outcome State Fault Refusal :=
  .next (s.onChip fun c => if c.rd64 0x002 0x078 ≤ c.time.tb.toNat then c.wake .alarm else c)

/-! Test access (R41, R519). -/

/-- What IDCODE reads on stepping A1 (R519). -/
def idcode : Nat := 0x10A164CB

/-- The data register that an instruction selects: IDCODE, the boundary register (EXTEST, SAMPLE/PRELOAD), or BYPASS, which CLAMP, HIGHZ
and every other code select too (IEEE 1149.1). -/
inductive TapData | idcode | boundary | bypass
deriving DecidableEq, Repr
def Chip.tapData (c : Chip) : TapData :=
  if c.tap.ir = 0x01 then .idcode else if c.tap.ir = 0x00 ∨ c.tap.ir = 0x02 then .boundary else .bypass

/-- TAP_RESET: IDCODE is selected. -/
def execTapReset (s : State) : Host.Outcome State Fault Refusal :=
  .next (s.onChip fun c => { c with tap := { c.tap with ir := 0x01 } })

/-- TAP_INSTRUCTION. -/
def execTapInstruction (ir : BitVec 8) (s : State) : Host.Outcome State Fault Refusal :=
  .next (s.onChip fun c => ({ c with tap := { c.tap with ir := ir } }).markDebug)

/-- DEBUG_HALT: a Precentor core enters or leaves debug halt, shown in HALTED. -/
def execDebugHalt (core halted : Bool) (s : State) : Host.Outcome State Fault Refusal :=
  .next (s.onChip fun c => (c.setBit 0x010 0x044 core.toNat halted).markDebug)

end Sys2Proof.Machine
end

