-- ==== Sys2Proof/Machine/Verger.lean ====
section
/-! DEFINITION. The Verger (chapter 19): the lease table and its views (R470, R487), page leases (R79-R83), revocation and
quarantine (R471-R474, R529, R530), the journal (R469, R488), unit failures (R480, R481), the watchdog's kick (R478) and
the failed LP5X channel (R482). -/

namespace Sys2Proof.Machine

/-! The lease table (R470, R487). -/

/-- The handle of a DESC entry by LV_SEL, if its slot holds a descriptor. -/
def Chip.selSlot (c : Chip) (sel : Nat) : Option DescSlot :=
  if 0x10000 ≤ sel ∧ sel < 0x20000 ∧ sel % 4096 ≠ 0 then aget c.desc.slots (sel - 0x10000) else none

/-- The state of an entry: 0 FREE, 1 HELD, 2 QUARANTINED, 3 STUCK. Where no entry lies it is 0. -/
def Chip.selState (c : Chip) (sel : Nat) : Nat :=
  let a := (c.leaseAux sel).state
  if sel < 0x1000 then
    if (pageClass sel).isNone ∨ isVrgPage sel then 0 else if a = 3 then 3 else c.leaseState sel
  else if sel < 0x1044 then a
  else if (c.selSlot sel).isSome then a else 0

/-- A LV_SEL value names an entry. -/
def Chip.selExists (c : Chip) (sel : Nat) : Bool :=
  if sel < 0x1000 then (pageClass sel).isSome && !isVrgPage sel
  else if sel < 0x1044 then true else (c.selSlot sel).isSome

/-- OWNER of an entry, with its class and its EPOCH and TIMEOUT_MS fields. A LOCK or CREDIT entry shows its fixed 2 ms
and owner 0xF in quarantine (DEDUCED from R470 and R473). -/
def Chip.selOwner (c : Chip) (sel : Nat) : Nat :=
  let s := c.selState sel
  if sel < 0x1000 then c.leaseOwner sel
  else if sel < 0x1040 then
    if 2 ≤ s then 0xF else ((aget c.vrg.locks (sel - 0x1000)).map fun (x : LockEntry) => x.holder.toNat).getD 0
  else if sel < 0x1044 then
    if 2 ≤ s then 0xF else if s = 1 then c.fld (pgRlk (sel - 0x1040)) 0x044 8 3 else 0
  else ((c.selSlot sel).map fun d => d.owner).getD 0

/-- The lease class of an entry (R470). -/
def selClass (sel : Nat) : Nat := if sel < 0x1000 then 0 else if sel < 0x1040 then 1 else if sel < 0x1044 then 2 else 3

/-- LV_LO of an entry (R487). -/
def Chip.lvWord (c : Chip) (sel : Nat) : Word :=
  if c.selExists sel then
    let s := c.selState sel
    let (e, t) :=
      if sel < 0x1000 then (c.fld sel 0x028 24 8, c.fld sel 0x028 16 8)
      else if sel < 0x1044 then (0, 2) else (0, 0)
    word (e * 2 ^ 24 + t * 2 ^ 16 + c.selOwner sel * 2 ^ 8 + s * 2 ^ 4 + (c.leaseAux sel).hold.toNat * 2 ^ 3 + selClass sel)
  else 0

/-- LV_AGE_MS: ms since the entry's last grant, renewal or revocation, and 0 while it has had none. -/
def Chip.lvAge (c : Chip) (sel : Nat) : Word :=
  let a := c.leaseAux sel
  if !c.selExists sel || (a.state == 0 && a.since == 0) then 0
  else word (min ((c.time.now - a.since) / 1000000) (2 ^ 32 - 1))

/-- LOCKS_HELD. -/
def Chip.locksHeld (c : Chip) : Nat := c.vrg.locks.countP fun e => (c.leaseAux (lockSel e.1)).state == 1

/-- The pages whose LEASE word is listed: only they can be HELD. -/
def Chip.leasePages (c : Chip) : List Nat :=
  c.regs.filterMap fun r => if r.1 % 0x1000 = 0x028 then some (r.1 / 0x1000) else none

/-! Page leases (R79-R82). -/

/-- A write to LEASE (R81). -/
def Chip.leaseWrite (c : Chip) (req : Requester) (p : Nat) (acquire release renew : Bool) (timeout : Nat) : Chip :=
  if isVrgPage p then c.raise p 29
  else if 1 < acquire.toNat + release.toNat + renew.toNat then c.logUse p 0x05 req (regAddr p 0x028)
  else if acquire then
    if timeout = 0 then c
    else if c.holds req p then (c.setFld p 0x028 16 8 timeout).leaseGrant p
    else if c.leaseState p = 0 then
      (c.wr p 0x028 (word ((c.fld p 0x028 24 8 + 1) % 256 * 2 ^ 24 + timeout * 2 ^ 16 + ownerCode req * 2 ^ 8 + 2 ^ 4))).leaseGrant p
    else c
  else if release then
    if c.holds req p then (c.wr p 0x028 (word (c.fld p 0x028 24 8 * 2 ^ 24))).leaseFree p else c.raise p 29
  else if renew then
    if c.holds req p then (if timeout = 0 then c else (c.setFld p 0x028 16 8 timeout).leaseGrant p) else c.raise p 29
  else c

/-- ACQUIRE. -/
def execAcquire (req : Requester) (page : Fin 4096) (timeoutMs : BitVec 8) (s : State) : Host.Outcome State Fault Refusal :=
  .next (s.onChip fun c => (c.ovrCut page).gated req page 0x028 fun c => c.leaseWrite req page true false false timeoutMs.toNat)

/-- RENEW. -/
def execRenew (req : Requester) (page : Fin 4096) (timeoutMs : BitVec 8) (s : State) : Host.Outcome State Fault Refusal :=
  .next (s.onChip fun c => (c.ovrCut page).gated req page 0x028 fun c => c.leaseWrite req page false false true timeoutMs.toNat)

/-- LEASE_RELEASE. -/
def execLeaseRelease (req : Requester) (page : Fin 4096) (s : State) : Host.Outcome State Fault Refusal :=
  .next (s.onChip fun c => (c.ovrCut page).gated req page 0x028 fun c => c.leaseWrite req page false true false 0)

/-! Revocation (R471-R474, R529). -/

/-- The page whose ERR_LOG takes the record of a revocation (R529). -/
def selPage (sel : Nat) : Nat :=
  if sel < 0x1000 then sel else if 0x1040 ≤ sel ∧ sel < 0x1044 then pgRlk (sel - 0x1040) else 0x004

/-- The words of a revoked bank lock are written poisoned (R109), and the command that holds it ends in error. -/
def poisonLock (n : Nat) : WM Unit := do
  match aget (← getChip).vrg.locks n with
  | none => pure ()
  | some l =>
    if ((← getChip).running l.queue).any fun r => r.status == 0 then failRunning l.queue 0x26
    for cell in l.words do
      storeGranule ((← getChip).clsAddr cell) (List.replicate 8 0) (some .poison)

/-- The quarantine action of an entry's block (R474). The LIS drives its outputs inactive (R194), and the command of a vision engine
ends ABORTED (R255, R275; log entry 91). -/
def quarAction (sel : Nat) : WM Unit :=
  if sel < 0x1000 then
    match pageClass sel with
    | some .queue => queueQuarantine (sel - 0x100)
    | some .dmaP => chipM fun c => c.dmaQuarantine (sel - 0x091)
    | some .dmaT => chipM fun c => c.dmaQuarantine (sel - 0x091)
    | some .cam => portDisable (sel - 0x020)
    | some .lis => chipM Chip.lisQuiet
    | some .vec => abortEngine sel
    | some .car => chipM fun c => c.carAbort (sel - 0x0D8)
    | some .i2c => chipM fun c => c.i2cAbort (sel - 0x0D3)
    | _ => pure ()
  else if sel < 0x1040 then poisonLock (sel - 0x1000)
  else if sel < 0x1044 then chipM fun c => c.portQuarantine (sel - 0x1040)
  else pure ()

/-- The entry becomes QUARANTINED with OWNER 0xF (R83, R473), and the revocation is counted and recorded. -/
def Chip.quarMark (c : Chip) (sel code owner : Nat) (detail : Word) : Chip :=
  let c := c.setLeaseAux sel { c.leaseAux sel with state := 2, since := c.time.now, owner := owner }
  let c := if sel < 0x1000 then ((c.setFld sel 0x028 4 4 2).setFld sel 0x028 8 4 0xF).raise sel 30 else c
  let c := (c.count 0x004 0x050).raise 0x004 0
  let c := if code = 0x50 then c.count 0x004 0x054 else c
  c.logErr (selPage sel) clsLease code (if 0x1000 ≤ sel ∧ sel < 0x1044 then 0 else owner) detail

/-- The revocation of a HELD entry, with its cause. -/
def revoke (sel code : Nat) : WM Unit := do
  let c ← getChip
  if c.selState sel = 1 then
    quarAction sel
    chipM fun x => x.quarMark sel code (c.selOwner sel) (c.lvWord sel)

/-- The entries that an owner revocation of an owner code revokes (R471): PAGE entries, then DESC entries. -/
def Chip.ownedEntries (c : Chip) (owner : Nat) : List Nat :=
  (c.leasePages.filter fun p => c.selState p == 1 && c.leaseOwner p == owner) ++
    (c.desc.slots.filterMap fun s => if s.2.owner = owner ∧ c.selState (descSel s.1) = 1 then some (descSel s.1) else none)

/-- An owner revocation (R471). -/
def revokeOwnerM (owner : Nat) : WM Unit := do
  for sel in (← getChip).ownedEntries owner do revoke sel 0x51
  chipM fun c => c.count 0x004 0x058

/-- The first tick at which an entry's timeout has passed (R83, R471). -/
def Chip.leaseDue (c : Chip) (sel : Nat) : Nat :=
  tickAt ((c.leaseAux sel).since + 1000000 * (if sel < 0x1000 then c.fld sel 0x028 16 8 else 2))

/-- The entry is HELD and its timeout has passed. -/
def Chip.timedOut (c : Chip) (sel : Nat) : Bool := c.selState sel == 1 && decide (c.leaseDue sel ≤ c.time.now)

/-- A page is held by the Precentor firmware. -/
def Chip.prcHeld (c : Chip) (p : Nat) : Bool := c.leaseState p == 1 && (c.leaseOwner p == 3 || c.leaseOwner p == 4)

/-- Timed-out PAGE entries are revoked; where one is the Precentor's, both Precentor owners are (R471, R485). -/
def pageTimeouts (pages : List Nat) : WM Unit := do
  let due := pages.filter (← getChip).timedOut
  let prc := due.any (← getChip).prcHeld
  for p in due do revoke p 0x50
  if prc then
    revokeOwnerM 3
    revokeOwnerM 4
    chipM fun c => { c with fw := { c.fw with prcLost := true } }

/-- LEASE_TIMEOUT: time moves to the tick at which the page's lease has run out. The Precentor's other pages that have
run out at that tick go with it. -/
def execLeaseTimeout (page : Fin 4096) (s : State) : Host.Outcome State Fault Refusal :=
  s.onMem do
    if (← getChip).selState page = 1 then
      chipM fun c => c.advance (c.leaseDue page)
      let c ← getChip
      pageTimeouts (if c.prcHeld page then c.leasePages.filter c.prcHeld else [page.val])

/-- LOCK_LEASE_TIMEOUT: a bank lock held for 2 ms (R109). -/
def execLockLeaseTimeout (entry : Fin 64) (s : State) : Host.Outcome State Fault Refusal :=
  s.onMem do
    if (← getChip).selState (lockSel entry) = 1 then
      chipM fun c => c.advance (c.leaseDue (lockSel entry))
      revoke (lockSel entry) 0x50

/-- CREDIT_TIMEOUT: 2 ms without a good flit (R372). -/
def execCreditTimeout (port : Fin 4) (s : State) : Host.Outcome State Fault Refusal :=
  s.onMem do
    if (← getChip).selState (creditSel port) = 1 then
      chipM fun c => c.advance (c.leaseDue (creditSel port))
      revoke (creditSel port) 0x50

/-- ENTRY_PARITY: a parity check of an entry fails (R471). -/
def execEntryParity (sel : BitVec 17) (s : State) : Host.Outcome State Fault Refusal := s.onMem (revoke sel.toNat 0x54)

/-! The end of quarantine (R473, R474, R530). -/

/-- The block of a quarantined entry reports completion at once, but for a graph slot whose LOAD or STOP is in progress
(R474). -/
def Chip.quarReported (c : Chip) (sel : Nat) : Bool :=
  !(0x018 ≤ sel && sel ≤ 0x01F && (c.fld sel 0x080 0 3 == 1 || c.fld sel 0x080 0 3 == 4))

/-- PAGE entries in quarantine or stuck that an owner held. -/
def Chip.ownerWaits (c : Chip) (owner : Nat) : Bool :=
  c.vrg.leases.any fun e => decide (e.1 < 0x1000) && decide (2 ≤ e.2.state) && e.2.owner == owner

/-- Nothing keeps the quarantine of an entry from ending: completion is reported, HOLD is clear, and for a descriptor
its owner's last PAGE entry is released. -/
def Chip.quarFree (c : Chip) (sel : Nat) : Bool :=
  c.selState sel == 2 && !(c.leaseAux sel).hold && c.quarReported sel &&
    !(decide (0x10000 ≤ sel) && c.ownerWaits (c.leaseAux sel).owner)

/-- A released entry: its block's state after release (R474). -/
def Chip.quarRelease (c : Chip) (sel : Nat) : Chip :=
  if sel < 0x1000 then
    let c := (c.wr sel 0x028 (word (c.fld sel 0x028 24 8 * 2 ^ 24))).leaseFree sel
    match pageClass sel with
    | some .queue => c.setQstate (sel - 0x100) qStopped
    | some .dmaP => c.dmaQuarEnd (sel - 0x091)
    | some .dmaT => c.dmaQuarEnd (sel - 0x091)
    | _ => c
  else if sel < 0x1040 then
    let c := { c with vrg := { c.vrg with locks := adel c.vrg.locks (sel - 0x1000) } }
    c.leaseFree sel
  else if sel < 0x1044 then (c.leaseFree sel).portQuarEnd (sel - 0x1040)
  else c.emptySlot (sel - 0x10000)

/-- The first tick after an entry's revocation. -/
def Chip.quarTick (c : Chip) (sel : Nat) : Nat := tickAt ((c.leaseAux sel).since + 1)

/-- QUARANTINE_END: time moves to the tick that may end it. -/
def execQuarantineEnd (sel : BitVec 17) (s : State) : Host.Outcome State Fault Refusal :=
  .next (s.onChip fun c =>
    if c.quarFree sel.toNat then (c.advance (max (c.quarTick sel.toNat) (tickAt c.time.now))).quarRelease sel.toNat else c)

/-- An entry becomes STUCK (R473). -/
def Chip.quarStuck (c : Chip) (sel : Nat) : Chip :=
  let det := c.lvWord sel
  let a := c.leaseAux sel
  let c := c.setLeaseAux sel { a with state := 3 }
  let c := (c.count 0x004 0x05C).raise 0x004 1
  c.logErr (selPage sel) clsLease 0x53 (if 0x1000 ≤ sel ∧ sel < 0x1044 then 0 else a.owner) det

/-- QUAR_STUCK: the entry's block has not reported completion by the tenth tick after the revocation. -/
def execQuarStuck (sel : BitVec 17) (s : State) : Host.Outcome State Fault Refusal :=
  .next (s.onChip fun c =>
    if c.selState sel.toNat = 2 then (c.advance (c.quarTick sel.toNat + 9000000)).quarStuck sel.toNat else c)

/-! VRG_CMD (R485, R487, R530). -/

/-- LV_SEL. -/
def Chip.lvSel (c : Chip) : Nat := c.fld 0x004 0x040 0 17

/-- CFG_INVALID of a Verger command. -/
def Chip.vrgInvalid (c : Chip) (req : Requester) : Chip := c.logUse 0x004 0x05 req (regAddr 0x004 0x04C)

/-- HOLD of the selected entry written; a STUCK entry keeps its own. -/
def Chip.holdTo (c : Chip) (on : Bool) : Chip :=
  let sel := c.lvSel
  if c.selExists sel && c.selState sel != 3 then c.setLeaseAux sel { c.leaseAux sel with hold := on } else c

/-- A Verger command with its key. -/
def vrgCmd (req : Requester) (cmd owner : Nat) : WM Unit := do
  let c ← getChip
  let sel := c.lvSel
  if cmd = 1 then (if c.selState sel = 1 then revoke sel 0x52 else chipM fun c => c.vrgInvalid req)
  else if cmd = 2 then (if 1 ≤ owner ∧ owner ≤ 4 then revokeOwnerM owner else chipM fun c => c.vrgInvalid req)
  else if cmd = 3 then
    chipM fun c => if c.selState sel = 2 then c.setLeaseAux sel { c.leaseAux sel with hold := false } else c.vrgInvalid req
  else if cmd = 4 then chipM fun c => c.holdTo true
  else if cmd = 5 then chipM fun c => c.holdTo false

/-- REVOKE_ENTRY. -/
def execRevokeEntry (req : Requester) (s : State) : Host.Outcome State Fault Refusal :=
  s.onMem (gatedM req 0x004 0x04C (vrgCmd req 1 0))

/-- REVOKE_OWNER. -/
def execRevokeOwner (req : Requester) (owner : BitVec 4) (s : State) : Host.Outcome State Fault Refusal :=
  s.onMem (gatedM req 0x004 0x04C (vrgCmd req 2 owner.toNat))

/-- VRG_RELEASE. -/
def execVrgRelease (req : Requester) (s : State) : Host.Outcome State Fault Refusal :=
  s.onMem (gatedM req 0x004 0x04C (vrgCmd req 3 0))

/-- HOLD_SET. -/
def execHoldSet (req : Requester) (s : State) : Host.Outcome State Fault Refusal :=
  s.onMem (gatedM req 0x004 0x04C (vrgCmd req 4 0))

/-- HOLD_CLR. -/
def execHoldClr (req : Requester) (s : State) : Host.Outcome State Fault Refusal :=
  s.onMem (gatedM req 0x004 0x04C (vrgCmd req 5 0))

/-! The journal (R469, R488). -/

/-- JRN_POP: the oldest entry is discarded. -/
def Chip.jrnPop (c : Chip) : Chip :=
  { c with vrg := { c.vrg with journal := c.vrg.journal.drop 1 }, fw := { c.fw with noted := c.fw.noted - 1 } }

/-- JRN_POP. -/
def execJrnPop (req : Requester) (s : State) : Host.Outcome State Fault Refusal :=
  .next (s.onChip fun c => c.gated req 0x005 0x054 Chip.jrnPop)

/-! Unit failures (R481, R488). -/

/-- The queues whose unit has a bit of UNIT_FAILED. -/
def failQueues (b : Nat) : List Nat := (List.range 128).filter fun q => unitFailBit (unitOf q) == b

/-- The commands that a failed unit runs end UNIT_FAILED, a WAIT among them (R481). -/
def failUnit (b : Nat) : WM Unit := do
  for q in failQueues b do
    if ((← getChip).running q).any fun r => !(r.finished && r.awaiting.isEmpty) then
      failRunning q 0x2C
      chipM fun c => if c.qstate q = qWaiting then c.setQstate q qRunning else c

/-- Bits of UNIT_FAILED set, with their record and their effects. -/
def unitFail (mask : Nat) : WM Unit := do
  let old := ((← getChip).rd 0x005 0x060).toNat
  let new := (List.range 9).filter fun b => bits mask b 1 == 1 && bits old b 1 == 0
  if new != [] then
    for b in new do failUnit b
    if new.contains 8 then
      for p in List.range 4 do captureEnd p 12
      pipeSoftReset
      for f in ((← getChip).ntx.ready.map PipeItem.frame).eraseDups do failFrame f 12
      chipM fun c => c.lossUnits 8
    chipM fun c =>
      let m := (new.map fun b => 2 ^ b).sum
      ((c.wr 0x005 0x060 (word (old + m))).raise 0x005 1).logErr 0x005 clsUnit 0x60 0 (word m)

/-- UNIT_FAIL_SET. -/
def execUnitFailSet (req : Requester) (mask : BitVec 9) (s : State) : Host.Outcome State Fault Refusal :=
  s.onMem (gatedM req 0x005 0x064 (unitFail mask.toNat))

/-- The bit of a unit in UNIT_FAILED. -/
def failBit : FailUnit → Nat
  | .cho => 0 | .pyr => 1 | .wrp => 2 | .ftr => 3 | .flw => 4 | .str => 5 | .dmd => 6 | .lxe => 7 | .ntx => 8

/-- A unit has a command or a frame active that is not blocked in WAIT (R481); the Choir's stalls have their own checks. -/
def Chip.unitActive (c : Chip) (b : Nat) : Bool :=
  if b = 0 then false
  else if b = 8 then c.pipeFrames != []
  else (failQueues b).any fun q => ((c.running q).any fun r => !(r.finished && r.awaiting.isEmpty)) && c.qstate q != qWaiting

/-- UNIT_FAILED: the part detects that a unit with work active has made no progress for 10 ms. -/
def execUnitFailed (unit : FailUnit) (s : State) : Host.Outcome State Fault Refusal :=
  s.onMem do
    if (← getChip).unitActive (failBit unit) then
      chipM fun c => c.advance (c.time.now + 10000000)
      unitFail (2 ^ failBit unit)

/-! The watchdog's kick (R478, R485, R489). -/

/-- The first tick at which the watchdog's timeout has passed since the last kick. -/
def Chip.wdtDue (c : Chip) : Nat := tickAt (c.vrg.wdtKick + 1000000 * c.fld 0x008 0x100 0 10)

/-- WDT_KICK written: in the tick of expiry the fire wins. -/
def Chip.wdtKick (c : Chip) (v : Word) : Chip :=
  if v ≠ 0x00004B43 then c.count 0x008 0x10C
  else if c.bit 0x008 0x100 31 ∧ c.wdtDue ≤ c.time.now then c
  else { c with vrg := { c.vrg with wdtKick := c.time.now } }

/-- The watchdog registers and RELOAD_PA are written only by SAC (R462, R489): another write sets WR_DENIED. -/
def Chip.sacOnly (c : Chip) (req : Requester) (f : Chip → Chip) : Chip := if req = .sac then f c else c.raise 0x008 29

/-- WDT_KICK. -/
def execWdtKick (req : Requester) (value : Word) (s : State) : Host.Outcome State Fault Refusal :=
  .next (s.onChip fun c => (c.ovrBreak).gated req 0x008 0x104 fun c => c.sacOnly req fun c => c.wdtKick value)

/-! A failed LP5X channel (R480, R482). -/

/-- CHAN_FAIL: the controller reports a failed channel; the first one is to be retired. -/
def Chip.chanFail (c : Chip) (ch : Nat) : Chip :=
  if c.memc.failed.contains ch then c
  else
    let c := { c with memc := { c.memc with failed := c.memc.failed ++ [ch] } }
    let c := c.logErr 0x088 clsUnit 0x62 0 0
    if c.fw.channel.isNone then { c with fw := { c.fw with channel := some ch } } else c

/-- CHAN_FAIL. -/
def execChanFail (channel : Fin 8) (s : State) : Host.Outcome State Fault Refusal := .next (s.onChip fun c => c.chanFail channel)

end Sys2Proof.Machine
end

