-- ==== Sys2Proof/Machine/Reset.lean ====
section
/-! DEFINITION. The resets above a block's own: the levels 1 to 4 (R475-R477, R485, R490), the watchdog's fire (R478, R479), the
resets of the PCI Express endpoint (R412), and the power sequencer (R502-R504, R520, R521). -/

namespace Sys2Proof.Machine

/-! Pages and what stands beside them. -/

/-- The pages that a level 2 reset resets (R475). -/
def dataPage (p : Nat) : Bool :=
  p == 0x010 || p == 0x011 || (0x018 ≤ p && p ≤ 0x027) || (0x030 ≤ p && p ≤ 0x034) || (0x040 ≤ p && p ≤ 0x060) ||
  (0x070 ≤ p && p ≤ 0x073) || (0x080 ≤ p && p ≤ 0x0A0) || (0x0B0 ≤ p && p ≤ 0x0B4) || (0x100 ≤ p && p ≤ 0x17F)

/-- What a level 2 reset keeps on those pages: the LEASE words, and the policy window's fields of the CHO page (R49,
R475). -/
def dataKept (a : Nat) : Bool := a % 0x1000 == 0x028 || a == regAddr 0x060 0x040 || a == regAddr 0x060 0x04C

/-- The register bus's own words of the pages of a reset dropped. -/
def BusState.drop (b : BusState) (pg : Nat → Bool) : BusState :=
  { b with
    shadows := b.shadows.filter fun x => !pg (x.1 / 0x4000)
    held := b.held.filter fun x => !pg (x.1 / 0x4000)
    frozen := b.frozen.filter fun x => !pg (x.1 / 0x1000)
    forced := b.forced.filter fun x => !pg x.1 }

/-- A lease entry that a level 2 reset keeps: one that SAC holds. -/
def Chip.sacEntry (c : Chip) (sel : Nat) : Bool := decide (sel < 0x1000) && c.leaseState sel == 1 && c.leaseOwner sel == 2

/-- LEASE after a level 2 reset: SAC keeps its own, every other page is FREE with its EPOCH (R475). -/
def leaseAfter (v : Word) : Word := if bits v.toNat 4 4 = 1 ∧ bits v.toNat 8 4 = 2 then v else word (bits v.toNat 24 8 * 2 ^ 24)

/-! Levels (R475). -/

/-- Level 1: the Sacristan core and the mailbox registers. TAINT, RELOAD_PA, the watchdog and the Precentor image's fields
stay. The firmware's own record keeps the retirement set (R480). -/
def Chip.sacReset (c : Chip) : Chip :=
  let taint := c.taint
  let c := { c with regs := c.regs.filter fun r => !(decide (regAddr 0x008 0x040 ≤ r.1) && decide (r.1 < regAddr 0x008 0x0CC)) }
  let c := (c.setBit 0x008 0x0C4 0 taint).setFld 0x008 0x0D4 0 1 0
  { c with
    pwr := { c.pwr with sac := none, romWait := false, ovrCount := 0, mbCar := none, mbSince := none, mbDone := false }
    fw := { banks := c.fw.banks, channel := c.fw.channel, prcLost := c.fw.prcLost, prcTold := c.fw.prcTold } }

/-- Level 2: the data plane's pages and state. Stalls retired by the firmware stay retired (R480). -/
def Chip.dataReset (c : Chip) : Chip :=
  let kept := c.vrg.leases.filter fun e => c.sacEntry e.1
  let c := { c with
    regs := (c.regs.filter fun (r : Nat × Word) => !(dataPage (r.1 / 0x1000)) || dataKept r.1).map fun (r : Nat × Word) =>
      if r.1 % 0x1000 = 0x028 then (r.1, leaseAfter r.2) else r
    bus := c.bus.drop dataPage
    vrg := { c.vrg with leases := kept, locks := [] }
    rood := {}, desc := {}
    memc := { lpEpoch := c.memc.lpEpoch, rawEpoch := c.memc.rawEpoch, failed := c.memc.failed }
    queues := {}
    cho := { retired := c.cho.retired }
    lis := {}, dmd := {}, ntx := {}, link := {}, prc := {}, dma := {}
    fw := { c.fw with suspects := [], clears := [], samples := [], errors := [], prcLost := false, prcTold := false } }
  ((c.wr 0x005 0x060 0).setBit 0x008 0x0C4 31 false).refreshStalls

/-- The words that a level 3 reset keeps: RESET_CAUSE, the timebase's rate and slew, SEQ_STATE and SEQ_FAULT, the supply
inputs and the sampled pins. -/
def chipKept (a : Nat) : Bool :=
  a == regAddr 0x000 0x044 || a == regAddr 0x0D0 0x050 || a == regAddr 0x0D0 0x054 || a == regAddr 0x002 0x080 ||
  a == regAddr 0x002 0x084 || a == regAddr (pgCar 0) 0x0A0 || a == regAddr (pgCar 1) 0x0A0 || a == regAddr 0x0D5 0x050

/-- Level 3: all logic but what `chipKept`, the timebase and the environment hold. -/
def Chip.chipReset (c : Chip) : Chip :=
  { regs := c.regs.filter fun r => chipKept r.1
    time := { c.time with ppsLast := none, ppsMiss := 0, ppsGood := 0 }
    bus := { replies := c.bus.replies }
    vrg := { wdtKick := c.time.now }
    memc := { lpEpoch := c.memc.lpEpoch + 1, rawEpoch := c.memc.rawEpoch + 1, failed := c.memc.failed }
    pcie := { sent := c.pcie.sent, errors := c.pcie.errors }
    car := { goodSince := c.car.goodSince, chains := c.car.chains.map fun x => (x.1, { x.2 with txn := none, seqs := 0, waiting := [] }) }
    pwr := { porstN := c.pwr.porstN, bootMode := c.pwr.bootMode, variantE := c.pwr.variantE, flash := c.pwr.flash,
             railOk := c.pwr.railOk, seqAt := c.pwr.seqAt, restart := c.pwr.restart }
    tap := c.tap }

/-- Level 4: the timebase and PG_STABLE too (R475); the supply inputs' levels are the environment's. -/
def Chip.powerReset (c : Chip) : Chip :=
  let t := c.time
  let c := c.chipReset
  let c := { c with time := { now := t.now, free := t.free } }
  let c := ((c.wr 0x0D0 0x050 0).wr 0x0D0 0x054 0).setFld (pgCar 0) 0x0A0 0 4 0
  let c := c.setFld (pgCar 1) 0x0A0 0 4 0
  c.setBit 0x000 0x044 0 true

/-- The memory that a reset of level 2 leaves undefined or clear: Cloister and LP5X. -/
def dataForget : WM Unit := do
  emit (.clear clsBase 0x12000000)
  emit (.clear lpBase 0x1800000000)

/-- The memory that a reset of level 3 or 4 leaves undefined. -/
def chipForget : WM Unit := do
  dataForget
  emit (.clear stallBase 0x21000000)
  emit (.clear 0x41000000 0x41040000)
  emit (.clear 0x42000000 0x42040000)

/-- A reset of level 1, 2 or 3 begins (R475, R477): its record, its cause, and the level that the firmware has still to
complete. A code of 0x78 is the watchdog's, recorded on the SAC page. -/
def beginReset (level code owner cause : Nat) : WM Unit := do
  if level = 1 then
    revokeOwnerM 2
    chipM Chip.sacReset
  else if level = 2 then
    dataForget
    chipM Chip.dataReset
  else
    chipForget
    chipM Chip.chipReset
  chipM fun c =>
    let c := c.setBit 0x000 0x044 cause true
    let c := { c with vrg := { c.vrg with resetting := max c.vrg.resetting level } }
    c.logErr (if code = 0x78 then 0x008 else 0x005) clsReset code owner 0

/-- RESET_REQ with its key (R485, R488). -/
def resetReq (req : Requester) (level : Nat) : WM Unit := do
  let c ← getChip
  let low := if req = .host then 2 else 1
  if low ≤ level ∧ level ≤ 3 ∧ c.vrg.resetting < level then
    let cause := if level = 1 then 8 else if level = 2 then (if req = .host then 6 else 5) else if req = .host then 2 else 1
    beginReset level (0x78 + level) (ownerCode req) cause

/-- RESET_REQ. -/
def execResetReq (req : Requester) (level : BitVec 2) (s : State) : Host.Outcome State Fault Refusal :=
  s.onMem (gatedM req 0x005 0x068 (resetReq req level.toNat))

/-! The watchdog (R478). -/

/-- The watchdog fires: level 1, or level 3 at the third fire within 60 s. -/
def wdtFire : WM Unit := do
  chipM fun c =>
    let fires := (c.vrg.fires.filter fun t => decide (c.time.now < t + 60000000000)) ++ [c.time.now]
    { c.count 0x008 0x108 with vrg := { c.vrg with fires := fires, wdtKick := c.time.now } }
  if 3 ≤ (← getChip).vrg.fires.length then beginReset 3 0x78 0 3 else beginReset 1 0x78 0 7

/-- WDT_FIRE: time moves to the tick of expiry. -/
def execWdtFire (s : State) : Host.Outcome State Fault Refusal :=
  s.onMem do
    if (← getChip).bit 0x008 0x100 31 then
      chipM fun c => c.advance c.wdtDue
      wdtFire

/-! PCI Express resets (R412). -/

/-- The endpoint's pages after a reset: a function-level reset leaves the link up, any other event takes it down. -/
def Chip.pcieReset (c : Chip) (kind : PcieReset) : Chip :=
  let link := c.rd 0x0C0 0x040
  let keep := fun o => o == 0x028
  let c := ((c.resetPage 0x0C0 0 keep).resetPage 0x0C1 0 keep).resetPage 0x0C2 0 keep
  let c := { c with
    bus := c.bus.drop fun p => 0x0C0 ≤ p && p ≤ 0x0C2
    pcie := { sent := c.pcie.sent, errors := c.pcie.errors } }
  if kind = .flr then ((c.wr 0x0C0 0x040 link).count 0x0C0 0x05C).raise 0x0C0 2
  else (c.count 0x0C0 0x058).raise 0x0C0 1

/-- PCIE_RESET: the endpoint resets and the Verger revokes every lease held by HOST. -/
def execPcieReset (kind : PcieReset) (s : State) : Host.Outcome State Fault Refusal :=
  s.onMem do
    chipM fun c => c.pcieReset kind
    revokeOwnerM 1

/-! The power sequencer (R502-R504, R520, R521). -/

/-- SEQ_STATE. -/
def psOff : Nat := 0
def psDone : Nat := 4
def psDown : Nat := 5

/-- SEQ_STATE read and set, with the moment of the step. -/
def Chip.psState (c : Chip) : Nat := c.fld 0x002 0x080 0 3
def Chip.setPs (c : Chip) (s : Nat) : Chip := { c.setFld 0x002 0x080 0 3 s with pwr := { c.pwr with seqAt := c.time.now } }

/-- The group of a rail: 1 CORE, 2 HS, 3 IO, which is also the SEQ_STATE while the sequencer waits for it. -/
def railNum : RailGroup → Nat
  | .core => 1 | .hs => 2 | .io => 3

/-- The input RAIL_OK of a group. -/
def Chip.railHigh (c : Chip) (g : Nat) : Bool := bits c.pwr.railOk g 1 == 1
def Chip.setRail (c : Chip) (g : Nat) (v : Bool) : Chip := { c with pwr := { c.pwr with railOk := putBits c.pwr.railOk g 1 v.toNat } }

/-- EN_VCORE goes high, step 3. -/
def Chip.seqBegin (c : Chip) : Chip := (c.advance (c.time.now + 100000)).setPs 1

/-- Steps 4 to 9: each group whose RAIL_OK is high lets the next one be enabled 0.10 ms later. -/
def Chip.seqRun : Nat → Chip → Chip
  | 0, c => c
  | n + 1, c =>
    let s := c.psState
    if 1 ≤ s ∧ s ≤ 3 ∧ c.railHigh s then Chip.seqRun n ((c.advance (c.time.now + 100000)).setPs (s + 1)) else c

/-- The groups power down in reverse order, and SEQ_DONE is held low (R504). No strobe is driven once VDDIO_GEN is off (R499). -/
def Chip.powerDown (c : Chip) (fault cause : Nat) : Chip :=
  let c := { c with lis := { c.lis with strobes := 0 } }
  let c := ((c.setPs psDown).wr 0x002 0x084 (word fault)).setBit 0x000 0x044 cause true
  { c with pwr := { c.pwr with railOk := 0 } }

/-- AON_POR_RELEASE: the always-on supply has come up. Nothing survives it but the fuses, of which the variant bounds the
clock from now on (R5), and the environment; VR_VID carries 30, the TAP is reset, and the sequencer enables the CORE group. -/
def execAonPorRelease (s : State) : Host.Outcome State Fault Refusal :=
  s.onMem do
    chipForget
    let e := (← get).fuses.variantE
    chipM fun c =>
      let c := { c.powerReset with tap := {} }
      let c := { c with pwr := { c.pwr with variantE := e } }
      ((((c.wr 0x000 0x044 0).wr 0x002 0x084 0).setPs psOff).seqBegin).seqRun 3

/-- RAIL_TIMEOUT: the group enabled last is not up 5.00 ms after its enable. -/
def execRailTimeout (grp : RailGroup) (s : State) : Host.Outcome State Fault Refusal :=
  .next (s.onChip fun c =>
    let g := railNum grp
    if c.psState = g ∧ !c.railHigh g then (c.advance (c.pwr.seqAt + 5000000)).powerDown g 0 else c)

/-- RAIL_DROP: a RAIL_OK that was high reads low for 10 µs. Before its step it has no effect. -/
def execRailDrop (grp : RailGroup) (s : State) : Host.Outcome State Fault Refusal :=
  .next (s.onChip fun c =>
    let g := railNum grp
    let st := c.psState
    let was := c.railHigh g
    let c := c.setRail g false
    if was ∧ g ≤ st ∧ st ≤ psDone then (c.advance (c.time.now + 10000)).powerDown (3 + g) 0 else c)

/-- SHUTDOWN: TJ_MAX at or above T_SHUT_DC. -/
def execShutdown (s : State) : Host.Outcome State Fault Refusal :=
  .next (s.onChip fun c =>
    if c.tShut ≤ c.tjMax ∧ c.psState ≠ psDown then (c.powerDown 7 4).logErr 0x002 clsProt 0x75 0 0 else c)

/-- PORST_N_FALL: the part is held in reset (level 4). A powered-down sequencer starts again at step 3, once its
power-down is complete. -/
def execPorstNFall (s : State) : Host.Outcome State Fault Refusal :=
  s.onMem do
    chipForget
    chipM fun c =>
      let c := c.powerReset
      let c := { c with pwr := { c.pwr with porstN := false } }
      if c.psState = psDown then ((c.advance (c.pwr.seqAt + 300000)).seqBegin).seqRun 3 else c

end Sys2Proof.Machine
end

