-- ==== Sys2Proof/Machine/Boot.lean ====
section
/-! DEFINITION. Boot (chapter 18): the boot source and its directories (R432), the checks of an image (R433, R435, R437) with
CRC-32 and ECDSA P-384 (PRESUMED from IEEE 802.3 and FIPS 186), the ROM and the firmware's entry (R434-R443), the override
(R444), and PORST_N's rise with the end of the power-up sequence (R502, R503). -/

namespace Sys2Proof.Machine

/-! Checks of bytes. -/

/-- CRC-32 of IEEE 802.3, one bit. -/
def crc32Bit (x : Nat) : Nat := if x % 2 = 1 then (x / 2).xor 0xEDB88320 else x / 2

/-- CRC-32 of IEEE 802.3. -/
def crc32 (bs : List Byte) : Nat :=
  (bs.foldl (fun r b => (List.range 8).foldl (fun y _ => crc32Bit y) (r.xor b.toNat)) 0xFFFFFFFF).xor 0xFFFFFFFF

/-- A little-endian field of a byte list. -/
def leAt (bs : List Byte) (i n : Nat) : Nat := (leNat (((bs.drop i).take n).map some)).getD 0

/-- A big-endian number. -/
def beNat (bs : List Byte) : Nat := bs.foldl (fun a b => 256 * a + b.toNat) 0

/-! ECDSA over P-384. -/

/-- The prime, the coefficient b, the order and the base point of P-384. -/
def p384 : Nat := 2 ^ 384 - 2 ^ 128 - 2 ^ 96 + 2 ^ 32 - 1
def b384 : Nat := 0xB3312FA7E23EE7E4988E056BE3F82D19181D9C6EFE8141120314088F5013875AC656398D8A2ED19D2A85C8EDD3EC2AEF
def n384 : Nat := 0xFFFFFFFFFFFFFFFFFFFFFFFFFFFFFFFFFFFFFFFFFFFFFFFFC7634D81F4372DDF581A0DB248B0A77AECEC196ACCC52973
def g384 : Nat × Nat :=
  (0xAA87CA22BE8B05378EB1C71EF320AD746E1D3B628BA79B9859F741E082542A385502F25DBF55296C3A545E3872760AB7,
   0x3617DE4A96262C6F5D9E98BF9292DC29F8F41DBD289A147CE9DA3113B5F0B8C00A60B1CE1D7E819D7A431D7C90EA0E5F)

/-- Euclid's algorithm with one coefficient: fuel, two remainders and their coefficients. -/
def euclid : Nat → Nat → Nat → Int → Int → Int
  | 0, _, _, s, _ => s
  | k + 1, a, b, s, t => if b = 0 then s else euclid k b (a % b) t (s - (a / b : Nat) * t)

/-- The inverse modulo m. -/
def modInv (m a : Nat) : Nat := (euclid 1200 (a % m) m 1 0 % m).toNat

/-- A point: none is the point at infinity. -/
abbrev EcPoint := Option (Nat × Nat)

/-- The point on a line of slope l through two points. -/
def ecThird (l : Nat) (p q : Nat × Nat) : EcPoint :=
  let x := (l * l + 2 * p384 - p.1 - q.1) % p384
  some (x, (l * (p.1 + p384 - x) + p384 - p.2) % p384)

/-- Addition of points. -/
def ecAdd : EcPoint → EcPoint → EcPoint
  | none, q => q
  | p, none => p
  | some p, some q =>
    if p.1 = q.1 then
      if (p.2 + q.2) % p384 = 0 then none
      else ecThird ((3 * p.1 * p.1 + p384 - 3) * modInv p384 (2 * p.2) % p384) p q
    else ecThird ((q.2 + p384 - p.2) * modInv p384 (q.1 + p384 - p.1) % p384) p q

/-- A multiple of a point, by the bits of the factor from the highest. -/
def ecMul (k : Nat) (p : EcPoint) : EcPoint :=
  (List.range 384).foldl (fun acc i =>
    let d := ecAdd acc acc
    if bits k (383 - i) 1 = 1 then ecAdd d p else d) none

/-- A signature verifies under an uncompressed public key. -/
def ecdsaOk (key msg sig : List Byte) : Bool :=
  let x := beNat ((key.drop 1).take 48)
  let y := beNat ((key.drop 49).take 48)
  let r := beNat (sig.take 48)
  let s := beNat ((sig.drop 48).take 48)
  let onCurve := decide (x < p384) && decide (y < p384) && y * y % p384 == (x * x % p384 * x + b384 + 3 * (p384 - x)) % p384
  if key.take 1 = [0x04] ∧ onCurve ∧ 0 < r ∧ r < n384 ∧ 0 < s ∧ s < n384 then
    let w := modInv n384 s
    match ecAdd (ecMul (beNat (sha384 msg) * w % n384) (some g384)) (ecMul (r * w % n384) (some (x, y))) with
    | some q => q.1 % n384 == r
    | none => false
  else false

/-! The boot source (R432, R434, R440, R441). -/

/-- Where the ROM reads: the flash, or an area of memory by physical address and size. -/
inductive BootSrc
  | qspi
  | area (pa size : Nat)
deriving DecidableEq, Repr

/-- Bytes of the source, or the code of R435 that reading them gives. A flash byte that the flash operand does not list
within its size is erased. -/
def srcRead (src : BootSrc) (off n : Nat) : WM (Except Nat (List Byte)) := do
  match src with
  | .qspi => match (← getChip).pwr.flash with
    | none => return .error 0x01
    | some f =>
      let size := (f.map fun x => x.1 + 1).foldl max 0
      if size < off + n then return .error 0x06
      else return .ok ((List.range n).map fun i => ((f.find? fun x => x.1 == off + i).map Prod.snd).getD 0xFF)
  | .area pa size =>
    if size < off + n then return .error 0x06
    else match (← readPhys 0xFF (pa + off) n).mapM id with
      | some bs => return .ok bs
      | none => return .error 0x0B

/-- A valid directory: its place, GEN, SAC_OFF and PRC_OFF. -/
structure BootDir where
  slot : Nat
  gen : Nat
  sac : Nat
  prc : Nat
deriving DecidableEq, Repr

/-- A directory read and checked (R432). -/
def readDir (src : BootSrc) (slot : Nat) : WM (Except Nat BootDir) := do
  match ← srcRead src (0x1000 * slot) 64 with
  | .error e => return .error (if e = 0x06 then 0x02 else e)
  | .ok bs =>
    if leAt bs 0 4 ≠ 0x44495745 ∨ leAt bs 60 4 ≠ crc32 (bs.take 60) then return .error 0x02
    else return .ok { slot := slot, gen := leAt bs 4 4, sac := leAt bs 8 4, prc := leAt bs 12 4 }

/-! Images (R433, R435, R437). -/

/-- The stepping of the part in the form of SYS_ID (R71). -/
def stepping : Nat := 0xA1

/-- Bits set in a fuse word. -/
def fuseCount (v : DWord) : Nat := ((List.range 64).map fun i => bits v.toNat i 1).sum

/-- The key slot that a public key matches: programmed and not revoked. -/
def keySlot (f : Fuses) (key : List Byte) : Option Nat :=
  let h := BitVec.ofNat 384 (beNat (sha384 key))
  (List.range 4).find? fun i => f.keyHash.getD i 0 == h && h != 0 && !f.keyRevoke.getLsbD i

/-- An image that passed: what the firmware keeps of it, where it loads and its body. -/
structure BootImg where
  info : ImgInfo
  load : Nat
  body : List Byte
deriving DecidableEq, Repr

/-- The checks of a header, in the order of R435; 0 where all pass. -/
def headerCode (kind : Nat) (h : List Byte) : Nat :=
  let size := leAt h 20 4
  let load := leAt h 24 4
  let entry := leAt h 28 4
  let top := if kind = 1 then 0x3FF00 else 0x40000
  if leAt h 0 4 ≠ 0x4D495745 ∨ leAt h 5 1 ≠ 1 then 0x03
  else if leAt h 4 1 ≠ kind then 0x04
  else if stepping < leAt h 12 1 ∨ leAt h 13 1 < stepping then 0x05
  else if size < 4 ∨ 262144 < size ∨ load % 4 ≠ 0 ∨ entry % 4 ≠ 0 ∨ top < load + size ∨ top ≤ entry ∨ 64 < leAt h 16 4 then 0x06
  else 0x00

/-- The checks that the fuses ask for. -/
def fuseCode (f : Fuses) (kind : Nat) (h : List Byte) : Nat :=
  let key := (h.drop 160).take 97
  if f.secureBoot && (keySlot f key).isNone then 0x07
  else if f.secureBoot && !ecdsaOk key (h.take 264) ((h.drop 264).take 96) then 0x08
  else if leAt h 16 4 < fuseCount (if kind = 1 then f.arbSac else f.arbPrc) then 0x09
  else 0x00

/-- An image read and checked (R435). -/
def readImage (src : BootSrc) (kind off : Nat) : WM (Except Nat BootImg) := do
  let f := (← get).fuses
  match ← srcRead src off 512 with
  | .error e => return .error e
  | .ok h =>
    let code := headerCode kind h
    if code ≠ 0 then return .error code
    match ← srcRead src (off + 512) (leAt h 20 4) with
    | .error e => return .error e
    | .ok body =>
      let code := fuseCode f kind h
      if code ≠ 0 then return .error code
      else if sha384 body ≠ (h.drop 32).take 48 then return .error 0x0A
      else
        let info : ImgInfo := {
          fwVer := leAt h 8 4, secVer := leAt h 16 4, iface := leAt h 14 1
          partners := (List.range (min 16 (leAt h 15 1))).map fun i => leAt h (80 + 4 * i) 4
          clalaMin := leAt h 144 4, clalaMax := leAt h 148 4
          keySlot := if f.secureBoot then keySlot f ((h.drop 160).take 97) else none }
        return .ok { info := info, load := leAt h 24 4, body := body }

/-- The directories in the order the ROM tries them: the higher GEN first, and the first place on equal GEN. -/
def dirOrder : List BootDir → List BootDir
  | [a, b] => if a.gen < b.gen then [b, a] else [a, b]
  | l => l

/-- The first directory whose Sacristan image passes, or the last failure. -/
def tryDirs (src : BootSrc) : Nat → List BootDir → WM (Except Nat (BootDir × BootImg))
  | e, [] => return .error e
  | _, d :: ds => do
    match ← readImage src 1 d.sac with
    | .ok i => return .ok (d, i)
    | .error e => tryDirs src e ds

/-- The directories of a source tried (R432, R434, R435). An area that RELOAD_PA names holds one (R441). -/
def romSearch (src : BootSrc) (slots : List Nat) : WM (Except Nat (BootDir × BootImg)) := do
  let ds ← slots.mapM (readDir src)
  let good := ds.filterMap fun d => match d with
    | .ok x => some x
    | .error _ => none
  let last := (ds.filterMap fun d => match d with
    | .ok _ => none
    | .error e => some e).foldl (fun _ e => e) 0x02
  tryDirs src last (dirOrder good)

/-! Loading (R431, R436). -/

/-- Bytes stored into a core's memory. -/
def loadBytes (pa : Nat) (bs : List Byte) : WM Unit := do
  for (b, i) in bs.zipIdx do emit (.byte (pa + i) b)

/-- BOOT_CODE and PRC_CODE. -/
def Chip.setBootCode (c : Chip) (e : Nat) : Chip := c.setFld 0x008 0x0D0 24 8 e
def Chip.setPrcCode (c : Chip) (e : Nat) : Chip := c.setFld 0x008 0x0D0 16 8 e

/-- MODE with LIMITED_REASON: 0 BOOT_ROM, 1 NORMAL, 2 LIMITED; a change raises MODE_CHANGE. -/
def Chip.mode (c : Chip) : Nat := c.fld 0x008 0x0C4 8 3
def Chip.setMode (c : Chip) (m reason : Nat) : Chip :=
  let was := c.mode
  let c := (c.setFld 0x008 0x0C4 8 3 m).setFld 0x008 0x0C4 4 4 reason
  if was = m then c else c.raise 0x008 1

/-- The Sacristan image entered. -/
def enterSac (src : BootSrc) (d : BootDir) (i : BootImg) : WM Unit := do
  loadBytes (0x41000000 + i.load) i.body
  chipM fun c =>
    let c := (c.setBootCode 0).wr 0x008 0x0C8 (word i.info.fwVer)
    let c := c.setFld 0x008 0x0C4 16 8 i.info.iface
    let c := match src with
      | .qspi => (c.setBit 0x008 0x0D0 8 false).setFld 0x008 0x0D0 4 1 d.slot
      | .area _ _ => (c.setBit 0x008 0x0D0 8 true).setFld 0x008 0x0D0 4 1 d.slot
    { c.setBit 0x008 0x0D4 0 false with pwr := { c.pwr with sac := some i.info, romWait := false } }

/-- Two images are a tested pair (R442). -/
def testedPair (s p : ImgInfo) : Bool := s.partners.contains p.fwVer || p.partners.contains s.fwVer

/-- LIMITED mode: the engines are held in reset and their pages read as after reset (R443). -/
def Chip.limit (c : Chip) (reason : Nat) : Chip :=
  let c := { c with
    regs := c.regs.filter fun r => !heldBlock (r.1 / 0x1000) || r.1 % 0x1000 == 0x028
    bus := c.bus.drop heldBlock
    cho := { retired := c.cho.retired }
    lis := {}, dmd := {}
    pwr := { c.pwr with held := true } }
  c.failGraphs.setMode 2 reason

/-- The Precentor cores start (R442, R444): NORMAL mode, both cores running, FW_VER that of their image. -/
def Chip.startPrc (c : Chip) : Chip :=
  let c := { c.setMode 1 0 with pwr := { c.pwr with held := false } }
  (c.setFld 0x010 0x040 0 2 3).wr 0x010 0x048 (c.rd 0x008 0x0CC)

/-- The pair check and its outcome (R439, R442, R443). -/
def Chip.pairUp (c : Chip) : Chip :=
  match c.pwr.sac, c.pwr.prc with
  | some s, some p =>
    if testedPair s p then c.startPrc else c.limit 1
  | _, _ => c.limit 2

/-- The Precentor image of a directory loaded by the Sacristan firmware (R435, R439). -/
def loadPrc (src : BootSrc) (off : Nat) : WM Unit := do
  match ← readImage src 2 off with
  | .error e => chipM fun c => { (c.setPrcCode e).wr 0x008 0x0CC 0 with pwr := { c.pwr with prc := none } }
  | .ok i =>
    loadBytes (0x42000000 + i.load) i.body
    chipM fun c => { (c.setPrcCode 0).wr 0x008 0x0CC (word i.info.fwVer) with pwr := { c.pwr with prc := some i.info } }

/-- Cloister and LP5X initialised by the firmware, with the retirement set and the channel mask (R439, R476); a block
that is enabled already is left alone. -/
def initMemory : WM Unit := do
  let c ← getChip
  if !c.enabled 0x070 then
    let v := (c.fw.banks.zipIdx.map fun (b, i) => (64 + b) * 2 ^ (7 * i)).sum
    chipM fun c => if c.fw.banks = [] then c else c.wr 0x070 0x040 (word v)
    clsEnableTo true
    chipM fun c =>
      let c := c.setBit 0x070 0x010 8 false
      { c with memc := { c.memc with scrubRow := 0 } }
  if !(← getChip).enabled 0x088 then
    chipM fun c => match c.fw.channel with
      | some ch => c.setBit 0x088 0x040 (8 + ch) false
      | none => c
    chipM fun c => c.lpEnableTo true
    lpInitDone

/-- The firmware's steps after entry (R439): memory, the Precentor image, the pair check and MB_READY. -/
def fwInit (src : BootSrc) (prcOff : Nat) : WM Unit := do
  initMemory
  loadPrc src prcOff
  chipM fun c => c.pairUp.setBit 0x008 0x0C4 31 true

/-- The ROM waits for a PCI Express boot (R434, R440): context 0 maps the first 16 MiB of Cloister through tables in its
last 8 KiB, and BAR2 uses it. -/
def romWait (code : Nat) : WM Unit := do
  if !(← getChip).enabled 0x070 then
    clsEnableTo true
    chipM fun c => c.setBit 0x070 0x010 8 false
  let l1 := clsBase + 0x1FFE000
  let l2 := clsBase + 0x1FFF000
  let _ ← writePhys 0xFF l1 ((leBytes 8 (l2 + 3)).map some ++ List.replicate 4088 (some 0))
  let _ ← writePhys 0xFF l2 (((List.range 512).flatMap fun i =>
    leBytes 8 (if 0x80 ≤ i ∧ i < 0x88 then clsBase + (i - 0x80) * 0x200000 + 0xD else 0)).map some)
  chipM fun c =>
    let c := (c.wr64 0x072 (ctxOff 0 + 8) l1).setBit 0x072 (ctxOff 0) 0 true
    let c := ((c.dropTlb 0).setFld 0x072 0x300 0 4 0).setBootCode code
    { c with pwr := { c.pwr with romWait := true } }

/-- The firmware's quarantined pages released (R479, R530): nothing holds them any longer. -/
def Chip.releaseOwn (c : Chip) : Chip :=
  { c with vrg := { c.vrg with leases := c.vrg.leases.map fun e =>
      if e.1 < 0x1000 ∧ e.2.state = 2 ∧ e.2.owner = 2 then (e.1, { e.2 with hold := false }) else e } }

/-- The ROM boots from a source (R434-R436). A level 1 reset has left the Precentor running: then only the Sacristan
image is loaded, and MODE stays what the engines' state says (R441, R479). -/
def romBoot (src : BootSrc) (slots : List Nat) (level1 : Bool) : WM Unit := do
  match ← romSearch src slots with
  | .error e => romWait e
  | .ok (d, i) =>
    enterSac src d i
    if level1 then
      chipM fun c => (c.releaseOwn.setMode (if c.pwr.held then 2 else 1) (if c.pwr.held then (if c.pwr.prc.isSome then 1 else 2) else 0)).setBit 0x008 0x0C4 31 true
    else fwInit src d.prc

/-- The registers whose reset value the variant fuse decides, and SECURE (R3, R437, R457, R463, R465). -/
def Chip.loadFuses (c : Chip) (f : Fuses) : Chip :=
  let e := f.variantE
  let c := { c with pwr := { c.pwr with variantE := e } }
  let c := c.setFld 0x008 0x0D0 0 1 f.secureBoot.toNat
  if e then
    let c := (c.setFld 0x001 0x040 16 11 1000).setFld 0x001 0x040 0 11 (min c.choMin 1000)
    let c := c.setCho (min c.choMhz 1000)
    let c := { c with pwr := { c.pwr with choNext := c.pwr.choNext.map (min · 1000), fTherm := c.pwr.fTherm.map (min · 1000), fPwr := c.pwr.fPwr.map (min · 1000) } }
    ((c.wr 0x003 0x064 (word 1200)).wr 0x003 0x068 (word 1350)).wr 0x003 0x06C (word 1450)
  else c

/-- PORST_N has risen with the power up (R434, R436): fuses, then the source that BOOT_MODE and BOOT_LOCK choose. -/
def bootStart : WM Unit := do
  let f := (← get).fuses
  chipM fun c => c.loadFuses f
  if (← getChip).pwr.bootMode ∧ !f.bootLock then romWait 0 else romBoot .qspi [0, 1] false

/-- RELOAD_PA. -/
def Chip.reloadPa (c : Chip) : Nat := bits (c.rd64 0x008 0x0E0) 12 36 * 4096

/-- The end of the memory that an address lies in. -/
def areaEnd (pa : Nat) : Nat :=
  match target pa with
  | .cls => 0x12000000
  | .lp5x => 0x1800000000
  | _ => pa

/-- The Sacristan image reloaded after a level 1 reset (R441). -/
def reloadSac : WM Unit := do
  let c ← getChip
  if !c.bit 0x008 0x0D0 8 then romBoot .qspi [0, 1] true
  else if c.reloadPa = 0 then romWait 0x02
  else romBoot (.area c.reloadPa (areaEnd c.reloadPa - c.reloadPa)) [0] true

/-- The data plane initialised after a level 2 reset (R476). After a PCI Express boot the firmware keeps the Precentor
image it loaded, since its source is gone with the reset. -/
def reinitData : WM Unit := do
  initMemory
  if !(← getChip).bit 0x008 0x0D0 8 then
    match ← romSearch .qspi [0, 1] with
    | .ok (d, _) => loadPrc .qspi d.prc
    | .error e => chipM fun c => { c.setPrcCode e with pwr := { c.pwr with prc := none } }
  chipM fun c => c.pairUp.setBit 0x008 0x0C4 31 true

/-! PORST_N and the end of power-up (R502, R503). -/

/-- The sequencer runs on, and the part boots where it reaches DONE with PORST_N high. -/
def seqStep : WM Unit := do
  let was := (← getChip).psState
  chipM fun c => c.seqRun 3
  let c ← getChip
  if was ≠ psDone ∧ c.psState = psDone ∧ c.pwr.porstN then bootStart

/-- RAIL_OK: a group's power-good input rises. -/
def execRailOk (grp : RailGroup) (s : State) : Host.Outcome State Fault Refusal :=
  s.onMem do
    chipM fun c => c.setRail (railNum grp) true
    seqStep

/-- PORST_N_RISE: the balls are sampled; the part boots at once where SEQ_DONE is released, else at step 9. -/
def execPorstNRise (bootMode : Bool) (flash : Option (List (Nat × BitVec 8))) (s : State) : Host.Outcome State Fault Refusal :=
  s.onMem do
    chipM fun c => { c with pwr := { c.pwr with porstN := true, bootMode := bootMode, flash := flash } }
    if (← getChip).psState = psDone then bootStart

/-- BOOT_GO written 1 (R440, R460). -/
def bootGo (req : Requester) : WM Unit := do
  let c ← getChip
  if !c.pwr.romWait then chipM fun c => c.logUse 0x008 0x14 req (regAddr 0x008 0x0D4)
  else romBoot (.area clsBase 0x1000000) [0, 1] c.pwr.prc.isSome

/-- BOOT_GO. -/
def execBootGo (req : Requester) (s : State) : Host.Outcome State Fault Refusal :=
  s.onMem do
    chipM Chip.ovrBreak
    gatedM req 0x008 0x0D4 (bootGo req)

/-! The override (R444, R460). -/

/-- The value that the next write of the sequence needs. -/
def Chip.ovrWant (c : Chip) : Word := if c.pwr.ovrCount = 0 then 0x00004C49 else if c.pwr.ovrCount = 1 then 0x00004D54 else c.rd 0x008 0x0CC

/-- A write to OVR by a requester whose write the lease lets through. A completed sequence has its effect where an untested
pair of versions holds the chip in LIMITED mode; in any other mode it counts in OVR_FAILS. -/
def Chip.ovrWrite (c : Chip) (req : Requester) (v : Word) : Chip :=
  let n := c.pwr.ovrCount
  let untested := c.mode == 2 && c.fld 0x008 0x0C4 4 4 == 1
  let ok := c.holds req 0x008 && v == c.ovrWant && (n == 0 || decide (c.time.now ≤ c.pwr.ovrAt + 10000000)) &&
    (decide (n < 2) || untested)
  if !ok then { c.count 0x008 0x0DC with pwr := { c.pwr with ovrCount := 0 } }
  else if n < 2 then { c with pwr := { c.pwr with ovrCount := n + 1, ovrAt := c.time.now } }
  else
    let c := (c.setBit 0x008 0x0C4 0 true).startPrc
    { c with pwr := { c.pwr with ovrCount := 0 } }

/-- OVR: a write that the lease refuses resets the sequence too. -/
def execOvr (req : Requester) (value : Word) (s : State) : Host.Outcome State Fault Refusal :=
  .next (s.onChip fun c => match c.gate req (regAddr 0x008 0x0D8) .b4 with
    | .pass => c.ovrWrite req value
    | .stop c => c.ovrBreak)

end Sys2Proof.Machine
end

