-- ==== Sys2Proof/Machine/Mailbox.lean ====
section
/-! DEFINITION. The mailbox (R446-R450): the request and response words, and the Sacristan firmware's commands (R438, R449,
R451, R452, R458, R460). The places of the fields that R449 lists without offsets are open (`Config.mbPack`). -/

namespace Sys2Proof.Machine

/-! Requests and responses (R446, R447). -/

/-- A byte of the request. -/
def Chip.mbByte (c : Chip) (i : Nat) : Nat := c.fld 0x008 (0x040 + i / 4 * 4) (8 * (i % 4)) 8

/-- A little-endian field of the request. -/
def Chip.mbNum (c : Chip) (i n : Nat) : Nat := ((List.range n).map fun k => c.mbByte (i + k) * 256 ^ k).sum

/-- STATUS codes of R450. -/
def mbOk : Nat := 0
def mbBadOpcode : Nat := 1
def mbBadLen : Nat := 2
def mbBadParam : Nat := 3
def mbInconsistent : Nat := 4
def mbState : Nat := 5
def mbDenied : Nat := 6
def mbTimeout : Nat := 7
def mbFuseFail : Nat := 8

/-- A response written: unused bytes are 0, and FLAGS carries TAINT and LIMITED. The request has been answered and waits for
MB_POST. -/
def Chip.mbReply (c : Chip) (status : Nat) (payload : List Byte) : Chip :=
  let flags := c.taint.toNat + 2 * (c.mode == 2).toNat
  let head := [c.mbByte 0, c.mbByte 1, status, flags, c.mbByte 4, c.mbByte 5, c.mbByte 6, c.mbByte 7]
  let bs := head ++ payload.map fun b => b.toNat
  let c := (List.range 16).foldl (fun (c : Chip) w =>
    c.wr 0x008 (0x080 + 4 * w) (word (((List.range 4).map fun k => bs.getD (4 * w + k) 0 * 256 ^ k).sum))) c
  { c with pwr := { c.pwr with mbDone := true, mbSince := none } }

/-- A request of an opcode waits for its response, and the firmware that answers it runs. -/
def Chip.mbWaits (c : Chip) (op : Nat) : Bool := c.bit 0x008 0x0C0 0 && c.mbReady && !c.pwr.mbDone && c.mbNum 0 2 == op

/-- What a command's row makes of a waiting request (R449, R450): BAD_LEN, STATE where LIMITED mode does not allow the
command, or the command's own act. -/
def Chip.mbCheck (c : Chip) (len : Nat) (limited : Bool) : Option Nat :=
  if c.mbNum 2 2 ≠ len then some mbBadLen else if !limited && c.mode == 2 then some mbState else none

/-- A command that changes only the chip. -/
def Chip.mbRow (c : Chip) (op len : Nat) (f : Chip → Nat × List Byte × Chip) : Chip :=
  if !c.mbWaits op then c
  else match c.mbCheck len true with
    | some e => c.mbReply e []
    | none =>
      let (status, payload, c) := f c
      c.mbReply status payload

/-- The opcodes of R449 with the length of their request payload: the bytes up to the last one they name (DEDUCED). -/
def mbOps : List (Nat × Nat) :=
  [(0x0001, 0), (0x0010, 30), (0x0011, 0), (0x0020, 16), (0x0021, 1), (0x0030, 36), (0x0031, 8), (0x0040, 1), (0x0050, 0), (0x0051, 1)]

/-- MB_POST: the firmware's store to the POST word clears MB_SEND and sets MB_DONE. An unknown opcode has got its
BAD_OPCODE response by then. -/
def Chip.mbPost (c : Chip) : Chip :=
  let c := if c.bit 0x008 0x0C0 0 && c.mbReady && !(mbOps.any fun o => o.1 == c.mbNum 0 2) then c.mbReply mbBadOpcode [] else c
  let c := { c with pwr := { c.pwr with mbDone := false } }
  (c.setBit 0x008 0x0C0 0 false).raise 0x008 0

/-- MB_POST. -/
def execMbPost (s : State) : Host.Outcome State Fault Refusal := .next (s.onChip Chip.mbPost)

/-! Information. -/

/-- The bytes of fields whose places are open. -/
def packed (op n : Nat) (fields : List Nat) : List Byte := (List.range n).map (Config.mbPack op fields)

/-- GET_INFO. -/
def execGetInfo (s : State) : Host.Outcome State Fault Refusal :=
  .next (s.onChip fun c => c.mbRow 0x0001 0 fun c =>
    (mbOk, packed 0x0001 56 [(c.rd 0x008 0x0C8).toNat, (c.rd 0x008 0x0CC).toNat, c.fld 0x008 0x0C4 16 8, c.mode, c.fld 0x008 0x0C4 4 4,
      c.fld 0x008 0x0D0 24 8, c.fld 0x008 0x0D0 16 8, fuseCount s.fuses.arbSac, fuseCount s.fuses.arbPrc], c))

/-! The policy window (R50, R458). -/

/-- The stored window in the layout of R458. -/
def Chip.windowBytes (c : Chip) : List Byte :=
  leBytes 2 c.choMin ++ leBytes 2 c.choMax ++ leBytes 1 (c.fld 0x001 0x044 0 5) ++ leBytes 1 (c.fld 0x001 0x044 8 5) ++
  leBytes 2 (c.fld 0x002 0x040 0 16) ++ leBytes 4 (c.rd 0x060 0x040).toNat ++
  ((List.range 8).flatMap fun i => leBytes 2 (c.pwr.lampCeil.getD i 0)) ++ leBytes 2 (c.fld 0x003 0x064 0 16)

/-- A lamp ceiling of the request lies above the RATING that the head on its output has reported (R50, R393). -/
def Chip.ceilBad (c : Chip) : Bool :=
  c.fw.lamps.any fun x => decide (x.2 < c.mbNum (20 + 2 * (Config.lampOutput (x.1 / 32) (x.1 % 32) % 8)) 2)

/-- The check of a window (R50, R458): 0, or the status. -/
def Chip.windowStatus (c : Chip) : Nat :=
  let lo := c.mbNum 8 2
  let hi := c.mbNum 10 2
  let dLo := c.mbByte 12
  let dHi := c.mbByte 13
  let allowed := c.mbNum 16 4
  let badClk := fun v => decide (v < 600) || v % 25 != 0
  let badDuty := fun v => decide (v < 1) || decide (16 < v)
  let works := (List.range 32).any fun s => bits allowed s 1 == 1 && !c.suspect s && !c.stallRetired s
  if badClk lo || badClk hi || badDuty dLo || badDuty dHi || decide (sext 16 (c.mbNum 36 2) < 0) then mbInconsistent
  else if 1400 < lo ∨ 1400 < hi then mbBadParam
  else if hi < lo ∨ dHi < dLo ∨ !works ∨ c.ceilBad then mbInconsistent
  else mbOk

/-- The window written to the pages, each value at most its protection limit. -/
def Chip.storeWindow (c : Chip) : Chip :=
  let r := fun i n => c.mbNum i n
  let c := (c.setChoWindow (word (r 10 2 * 2 ^ 16 + r 8 2))).wr 0x001 0x044 (word (r 13 1 * 2 ^ 8 + r 12 1))
  let c := (c.setCap (if r 14 2 = 0 then 30000 else r 14 2)).allowedWrite (word (r 16 4))
  let c := { c with pwr := { c.pwr with lampCeil := (List.range 8).map fun i => r (20 + 2 * i) 2 } }
  c.setTLimit (r 36 2)

/-- SET_POLICY. -/
def execSetPolicy (s : State) : Host.Outcome State Fault Refusal :=
  .next (s.onChip fun c => c.mbRow 0x0010 30 fun c =>
    if c.windowStatus = mbOk then
      let c := c.storeWindow
      (mbOk, c.windowBytes, c)
    else (c.windowStatus, [], c))

/-- GET_POLICY. -/
def execGetPolicy (s : State) : Host.Outcome State Fault Refusal :=
  .next (s.onChip fun c => c.mbRow 0x0011 0 fun c =>
    (mbOk, c.windowBytes ++ packed 0x0011 26 ([(c.bit 0x002 0x050 30).toNat, c.fld 0x002 0x050 0 8] ++
      (List.range 5).map fun i => (c.rd 0x002 (0x058 + 4 * i)).toNat), c))

/-! Contexts, chains and power-down notices (R402, R449). -/

/-- CTX_GRANT. -/
def execCtxGrant (s : State) : Host.Outcome State Fault Refusal :=
  .next (s.onChip fun c => c.mbRow 0x0020 16 fun c =>
    let asked := c.mbByte 8
    let owner := c.mbByte 9
    let pa := c.mbNum 16 8
    if 15 < asked ∨ owner < 1 ∨ 4 < owner ∨ pa % 4096 ≠ 0 ∨ 2 ^ 48 ≤ pa then (mbBadParam, [], c)
    else
      let ctx := if asked = 0 then ((List.range 16).find? fun n => n != 0 && !c.ctxEnabled n).getD 0 else asked
      if ctx = 0 ∨ c.ctxEnabled ctx then (mbDenied, [], c)
      else
        let c := (c.wr64 0x072 (ctxOff ctx + 8) pa).setBit 0x072 (ctxOff ctx) 0 true
        let c := if c.mbByte 10 % 2 = 1 then c.setFld 0x072 0x300 0 4 ctx else c
        (mbOk, leBytes 1 ctx, c))

/-- CTX_RELEASE. -/
def execCtxRelease (s : State) : Host.Outcome State Fault Refusal :=
  .next (s.onChip fun c => c.mbRow 0x0021 1 fun c =>
    let ctx := c.mbByte 8
    if 15 < ctx then (mbBadParam, [], c) else (mbOk, [], (c.setBit 0x072 (ctxOff ctx) 0 false).dropTlb ctx))

/-- The response to a mailbox transaction that has ended. -/
def Chip.carAnswer (c : Chip) (n : Nat) : Nat × List Byte × Chip :=
  let p := pgCar n
  let c := { c with pwr := { c.pwr with mbCar := none } }
  (mbOk, leBytes 1 (c.fld p 0x06C 0 8) ++ leBytes 1 (c.fld p 0x06C 16 8) ++ leBytes 1 (c.fld p 0x06C 8 6) ++ [0] ++
    (List.range 32).map (fun i => BitVec.ofNat 8 (c.fld p (0x070 + i / 4 * 4) (8 * (i % 4)) 8)), c)

/-- A mailbox transaction started on its chain by the firmware, or refused; where the chain is busy, the firmware waits from
here on. -/
def Chip.carAsk (c : Chip) : Chip :=
  let n := c.mbByte 8
  let cmd := c.mbByte 10
  let c := { c with pwr := { c.pwr with mbSince := some (c.pwr.mbSince.getD c.time.now) } }
  if 1 < n ∨ 16 < c.mbByte 9 ∨ 32 < c.mbByte 11 then c.mbReply mbBadParam []
  else if cmd = 0x02 ∨ cmd = 0x03 ∨ cmd = 0x10 then c.mbReply mbDenied []
  else if (c.chain n).txn.isSome then c
  else
    let p := pgCar n
    let c := (List.range 8).foldl (fun (c : Chip) i => c.wr p (0x04C + 4 * i) (word (c.mbNum (12 + 4 * i) 4))) c
    let c := c.wr p 0x044 (word (c.mbByte 9 * 2 ^ 16 + cmd * 2 ^ 8 + c.mbByte 11))
    { c.carGo .sac n with pwr := { c.pwr with mbCar := some n } }

/-- The wait of a CAR_TXN that has reached 100 ms ends with TIMEOUT (R34, R460). -/
def Chip.mbExpire (c : Chip) : Chip :=
  match c.pwr.mbSince with
  | some t =>
    if c.mbWaits 0x0030 && decide (t + 100000000 ≤ c.time.now) then
      { (c.mbReply mbTimeout []).sacLog .mailboxTimeout with pwr := { (c.mbReply mbTimeout []).pwr with mbCar := none } }
    else c
  | none => c

/-- The firmware's own BOUNDARY request that has waited 100 ms for its fire is cancelled (R34, R403). -/
def Chip.boundaryExpire (c : Chip) : Chip :=
  [0, 1].foldl (fun (c : Chip) n => match (c.chain n).txn with
    | some t =>
      if t.sac && t.boundary.isSome && t.sent.isEmpty && decide (t.since + 100000000 ≤ c.time.now) then
        (c.txCancel n).sacLog (.boundaryTimeout n)
      else c
    | none => c) c

/-! The lamp-head derating loop (R46, R395, R458). -/

/-- A transaction that the firmware sets going on a chain. -/
def Chip.sacCar (c : Chip) (n addr cmd : Nat) (payload : List Byte) (bseq : Option Nat) : Chip :=
  let p := pgCar n
  let c := c.wr p 0x04C (word ((leNat (payload.map some)).getD 0))
  let b := match bseq with
    | some q => 2 ^ 30 + q % 4 * 2 ^ 28
    | none => 0
  (c.wr p 0x044 (word (b + addr * 2 ^ 16 + cmd * 2 ^ 8 + payload.length))).carGo .sac n

/-- The current of a LAMP_SET: what the firmware asks for, within the window's ceiling of the output that drives the head. -/
def Chip.lampCurrent (c : Chip) (n addr asked : Nat) : Nat :=
  min (asked % 65536) (c.pwr.lampCeil.getD (Config.lampOutput n addr % 8) 0)

/-- The loop looks at one head: the law by which the temperature moves the current, and when the firmware polls, are its own,
so it lets the head be, reads its LAMP_STATUS, or sends a BOUNDARY LAMP_SET on the sequencer that drives it. -/
def Chip.lampHead (c : Chip) (n addr : Nat) : Chip :=
  if (c.chain n).txn.isSome || (c.leaseState (pgCar n) != 0 && !c.holds .sac (pgCar n)) then c
  else
    let (k, c) := c.draw
    if Config.choice k % 3 = 1 then c.sacCar n addr 0x11 [] none
    else if Config.choice k % 3 = 2 then
      let (m, c) := c.draw
      c.sacCar n addr 0x10 (leBytes 2 (c.lampCurrent n addr (Config.choice m))) (some (Config.lampSeq n addr))
    else c

/-- The loop over the lamp heads that have an address. -/
def Chip.lampLoop (c : Chip) : Chip :=
  let heads := c.car.chains.flatMap fun x => (x.2.devs.filter fun d => d.2.cls == cmdClass 0x10 && d.2.addr != 0).map fun d => (x.1, d.2.addr)
  heads.foldl (fun (c : Chip) h => c.lampHead h.1 h.2) c

/-- CAR_TXN: the first of these rows starts the transaction on its chain, once the chain is free; the next one after
its end answers the request. -/
def execCarTxn (s : State) : Host.Outcome State Fault Refusal :=
  .next (s.onChip fun c =>
    if !c.mbWaits 0x0030 then c
    else match c.mbCheck 36 true with
      | some e => c.mbReply e []
      | none => match c.pwr.mbCar with
        | none => c.carAsk
        | some n =>
          if (c.chain n).txn.isSome then c
          else
            let (st, bs, c) := c.carAnswer n
            c.mbReply st bs)

/-- PD_NOTICE: PD_TIME and PD_VALID on both CAR pages (R402). -/
def execPdNotice (s : State) : Host.Outcome State Fault Refusal :=
  .next (s.onChip fun c => c.mbRow 0x0031 8 fun c =>
    let v := c.mbNum 8 8
    (mbOk, [], c.setPd v (v != 0)))

/-! Power states (R451, R452). -/

/-- The part may enter IDLE. -/
def Chip.mayIdle (c : Chip) : Bool :=
  ((List.range 8).all fun g => !(3 ≤ c.fld (pgSlot g) 0x080 0 3 && c.fld (pgSlot g) 0x080 0 3 ≤ 5)) &&
  ((List.range 112).all fun q => c.qstate q == qStopped) &&
  ((List.range 4).all fun p => !c.enabled (pgCam p)) && !c.enabled 0x027

/-- The part may enter SLEEP. -/
def Chip.maySleep (c : Chip) : Bool :=
  c.mayIdle && ((List.range 16).all fun k => c.dmaState k != dmaRunning) && !c.chEn && c.pcie.d3hot

/-- POWER_STATE. In SLEEP the core supply is at 0.65 V and the firmware stops. -/
def Chip.toPower (c : Chip) (target : Nat) : Nat × List Byte × Chip :=
  let ok := (mbOk, leBytes 1 target)
  if 2 < target then (mbBadParam, [], c)
  else if target = 0 then (ok.1, ok.2, c.wr 0x002 0x06C 0)
  else if target = 1 then (if c.mayIdle then (ok.1, ok.2, c.wr 0x002 0x06C 1) else (mbState, leBytes 1 c.pstate, c))
  else if c.maySleep then (ok.1, ok.2, ((c.wr 0x002 0x06C 2).setFld 0x002 0x08C 0 6 10).setBit 0x008 0x0C4 31 false)
  else (mbState, leBytes 1 c.pstate, c)

/-- POWER_STATE. -/
def execPowerState (s : State) : Host.Outcome State Fault Refusal :=
  .next (s.onChip fun c => c.mbRow 0x0040 1 fun c => c.toPower (c.mbByte 8))

/-! Fuses (R437, R438, R449, R461). -/

/-- A fuse word whose lowest clear bits are set until its count is n; it never falls. -/
def fuseTo (v : DWord) (n : Nat) : DWord :=
  let low := (List.range 64).filter fun i => bits v.toNat i 1 == 0
  (low.take (n - fuseCount v)).foldl (fun v i => v ||| BitVec.ofNat 64 (2 ^ i)) v

/-- The security version of a running image; 0 where none runs. -/
def secOf (i : Option ImgInfo) : Nat := (i.map fun x => x.secVer).getD 0

/-- ARB_COMMIT; where the fuses do not program, nothing changes. -/
def execArbCommit (programmed : Bool) (s : State) : Host.Outcome State Fault Refusal :=
  let c := s.chip
  if !c.mbWaits 0x0050 then .next s
  else match c.mbCheck 0 false with
    | some e => .next (s.onChip fun c => c.mbReply e [])
    | none =>
      let f := if programmed then
          { s.fuses with arbSac := fuseTo s.fuses.arbSac (secOf c.pwr.sac), arbPrc := fuseTo s.fuses.arbPrc (secOf c.pwr.prc) }
        else s.fuses
      let counts := packed 0x0050 56 [fuseCount f.arbSac, fuseCount f.arbPrc]
      .next { s.onChip fun c => c.mbReply (if programmed then mbOk else mbFuseFail) counts with fuses := f }

/-- KEY_REVOKE: not the slot that verified a running image. -/
def execKeyRevoke (programmed : Bool) (s : State) : Host.Outcome State Fault Refusal :=
  let c := s.chip
  if !c.mbWaits 0x0051 then .next s
  else match c.mbCheck 1 false with
    | some e => .next (s.onChip fun c => c.mbReply e [])
    | none =>
      let k := c.mbByte 8
      let used := (c.pwr.sac.bind fun i => i.keySlot) == some k || (c.pwr.prc.bind fun i => i.keySlot) == some k
      let status := if 3 < k then mbBadParam else if used then mbDenied else if programmed then mbOk else mbFuseFail
      let f := if status = mbOk then { s.fuses with keyRevoke := s.fuses.keyRevoke ||| BitVec.ofNat 4 (2 ^ k) } else s.fuses
      .next { s.onChip fun c => c.mbReply status [] with fuses := f }

end Sys2Proof.Machine
end

