-- ==== Sys2Proof/Machine/RegRead.lean ====
section
/-! DEFINITION. Reads of registers (R64-R67, R76-R78): the words that hold what another part of the state holds, frozen
snapshots, the HI shadows, and the answers that a requester gets. -/

namespace Sys2Proof.Machine

/-- STATUS as read (R68): LEASED and QUARANTINED follow LEASE, and a vision engine's page shows the queue whose command it
runs (R257). -/
def Chip.statusWord (c : Chip) (p : Nat) : Word :=
  let v := putBits (putBits (c.rd p 0x010).toNat 1 1 (c.leaseState p == 1).toNat) 3 1 (c.leaseState p == 2).toNat
  let vec := fun u => match c.vecActive u with
    | some q => putBits (putBits v 8 1 1) 16 3 (q % 8)
    | none => v
  word (if p = 0x030 then vec .pyr else if p = 0x031 then vec .wrp else if p = 0x032 then vec .ftr
    else if p = 0x033 then vec .flw else if p = 0x034 then vec .str else v)

/-- The fault FIFO's registers (R111, R119): 0 while it is empty. -/
def Chip.fltWord (c : Chip) (off : Nat) : Word :=
  if off = 0x118 then word c.rood.fifo.length
  else match c.rood.fifo.head? with
    | none => 0
    | some f =>
      if off = 0x100 then word f.va else if off = 0x104 then word (f.va / 2 ^ 32) else if off = 0x108 then f.info
      else if off = 0x10C then word f.time.toNat else word (f.time.toNat / 2 ^ 32)

/-- The journal's registers (R488): 0 while it is empty. -/
def Chip.jrnWord (c : Chip) (off : Nat) : Word :=
  if off = 0x058 then word c.vrg.journal.length
  else match c.vrg.journal.head? with
    | none => 0
    | some e =>
      if off = 0x040 then word (2 ^ 31 + e.page) else if off = 0x044 then e.lo else if off = 0x048 then e.hi
      else if off = 0x04C then word e.tb.toNat else word (e.tb.toNat / 2 ^ 32)

/-- RXDATA and the levels of a UART (R428). -/
def Chip.uartWord (c : Chip) (n off : Nat) : Word :=
  let u := c.uart n
  if off = 0x054 then word (u.tx.length * 2 ^ 8 + u.rx.length)
  else match u.rx.head? with
    | some v => word (2 ^ 31 + v)
    | none => 0

/-- WDT_LEFT_MS (R489): ms to the fire. -/
def Chip.wdtLeft (c : Chip) : Word := word ((c.vrg.wdtKick + 1000000 * c.fld 0x008 0x100 0 10 - c.time.now) / 1000000)

/-- IRQ_SUMMARY_i (R409): a bit for each page whose line is high. -/
def Chip.irqSummary (c : Chip) (i : Nat) : Word :=
  word ((c.linePages.filter fun p => p / 32 == i).eraseDups.map fun p => 2 ^ (p % 32)).sum

/-- The live word of a register. -/
def Chip.live (c : Chip) (p off : Nat) : Word :=
  if off = 0x010 then c.statusWord p
  else if off = 0x014 then c.irqRaw p
  else match pageClass p with
    | some .sys => if off = 0x040 then word (putBits (c.rd p off).toNat 4 4 c.pwr.variantE.toNat) else c.rd p off
    | some .vrgA =>
      if off = 0x044 then c.lvWord c.lvSel else if off = 0x048 then c.lvAge c.lvSel
      else if off = 0x060 then word c.locksHeld else c.rd p off
    | some .vrgB => if (0x040 ≤ off ∧ off ≤ 0x050) ∨ off = 0x058 then c.jrnWord off else c.rd p off
    | some .sac => if off = 0x110 then c.wdtLeft else c.rd p off
    | some .roodR => if (0x100 ≤ off ∧ off ≤ 0x110) ∨ off = 0x118 then c.fltWord off else c.rd p off
    | some .pciA => if 0x080 ≤ off ∧ off < 0x0C0 then c.irqSummary ((off - 0x080) / 4) else c.rd p off
    | some .pciB =>
      if off = 0x800 then word c.msixPending.toNat else if off = 0x804 then word (c.msixPending.toNat / 2 ^ 32)
      else c.rd p off
    | some .tb =>
      if off = 0x040 then word c.time.tb.toNat else if off = 0x044 then word (c.time.tb.toNat / 2 ^ 32) else c.rd p off
    | some .uart => if off = 0x04C ∨ off = 0x054 then c.uartWord (p - 0x0D1) off else c.rd p off
    | _ => c.rd p off

/-- A group of a page is frozen (R78). -/
def Chip.frozenGroup (c : Chip) (p off : Nat) : Bool := (snapGroupOf p off).any fun g => c.bit p 0x02C (8 + g)

/-- The word that a page answers with at a word-aligned offset: the frozen copy of a frozen group, else the live word. Pages
that LIMITED mode holds in reset answer their reset values (R443), LEASE and SCRATCH apart. -/
def Chip.answer (c : Chip) (p off : Nat) : Word :=
  if c.pwr.held && heldBlock p && off != 0x028 && off != 0x030 then resetWord (regAddr p off)
  else if c.frozenGroup p off then (aget c.bus.frozen (regAddr p off)).getD 0
  else c.live p off

/-- A read of the word that holds a register-bus address (R66, R76, R77): the word, and the chip after it. -/
def Chip.busRead (c : Chip) (req : Requester) (addr : Nat) : Word × Chip :=
  let p := addr / 0x1000
  let off := addr % 0x1000 / 4 * 4
  if (pageClass p).isNone then (0, c.logUse 0x000 0x02 req addr)
  else if c.clockStopped p then (BitVec.allOnes 32, c.logErr 0x000 clsAccess 0x20 (ownerCode req) (word (addr % 2 ^ 24)))
  else if (pairLo p off).isSome then
    (c.answer p off, { c with bus := { c.bus with shadows := aput c.bus.shadows (reqKey (regAddr p off) req) (c.answer p (off + 4)) } })
  else if (pairHi p off).isSome then ((aget c.bus.shadows (reqKey (regAddr p (off - 4)) req)).getD 0, c)
  else (c.answer p off, c)

/-- A read of 1, 2, 4 or 8 bytes (R64): the addressed bytes of one 32-bit read, or of two in ascending address order,
which for a pair are LO and then HI. -/
def Chip.busLoad (c : Chip) (req : Requester) (addr : Nat) (size : AccSize) : DWord × Chip :=
  let (lo, c) := c.busRead req addr
  let (hi, c) := if size = .b8 then c.busRead req (addr + 4) else (0, c)
  (BitVec.ofNat 64 ((lo.toNat + 2 ^ 32 * hi.toNat) / 256 ^ (addr % 4) % 256 ^ size.bytes), c)

/-- LO_READ: the answer, and the shadow (R64, R76). -/
def execLoRead (req : Requester) (addr : ReadAt) (s : State) : Host.Outcome State Fault Refusal :=
  .next (s.onChip fun c =>
    let (v, c) := c.busLoad req addr.addr.toNat addr.size
    c.reply (ownerCode req - 1) (.data v))

/-- BUS_TIMEOUT: an access to an allocated page is not taken within 4096 CK_MGT cycles (R77). -/
def execBusTimeout (req : Requester) (addr : BitVec 24) (read : Bool) (s : State) : Host.Outcome State Fault Refusal :=
  .next (s.onChip fun c =>
    if (pageClass (addr.toNat / 0x1000)).isNone then c
    else
      let c := (c.advance (c.time.now + 10240)).logErr 0x000 clsAccess 0x20 (ownerCode req) (word addr.toNat)
      if read then c.reply (ownerCode req - 1) (.data (BitVec.ofNat 64 (2 ^ 32 - 1))) else c)

/-! Snapshots (R78). -/

/-- The groups of a page as a mask. -/
def snapMask (p : Nat) : Nat :=
  match pageClass p with
  | some k => ((List.range 8).filter fun g => (snapGroups k).any fun r => r.1 == g).map (2 ^ ·) |>.sum
  | none => 0

/-- The frozen words of groups dropped. -/
def Chip.unfreeze (c : Chip) (p m : Nat) : Chip :=
  { c with bus := { c.bus with frozen := c.bus.frozen.filter fun r =>
      !(r.1 / 0x1000 == p && (snapGroupOf p (r.1 % 0x1000)).any fun g => bits m g 1 == 1) } }

/-- A group frozen as its registers stand. -/
def Chip.freeze (c : Chip) (p g : Nat) : Chip :=
  match pageClass p with
  | some k => { c with bus := { c.bus with
      frozen := (snapOffsets k g).foldl (fun l off => aput l (regAddr p off) (c.live p off)) c.bus.frozen } }
  | none => c

/-- A write to SNAP: groups released and groups taken; of one group the take wins (R74). -/
def Chip.snapWrite (c : Chip) (req : Requester) (p take release : Nat) : Chip :=
  let m := snapMask p
  let t := take &&& m
  let r := release &&& m &&& (255 - t)
  let c := (c.setFld p 0x02C 8 8 (c.fld p 0x02C 8 8 &&& (255 - r) ||| t)).unfreeze p (r ||| t)
  if t = 0 then c else ((maskBits 8 t).foldl (fun c g => c.freeze p g) c).setFld p 0x02C 20 4 (ownerCode req)

/-- SNAP_TAKE. -/
def execSnapTake (req : Requester) (page : Fin 4096) (groups : BitVec 8) (s : State) : Host.Outcome State Fault Refusal :=
  .next (s.onChip fun c => (c.ovrCut page).gated req page 0x02C fun c => c.snapWrite req page groups.toNat 0)

/-- SNAP_RELEASE. -/
def execSnapRelease (req : Requester) (page : Fin 4096) (groups : BitVec 8) (s : State) : Host.Outcome State Fault Refusal :=
  .next (s.onChip fun c => (c.ovrCut page).gated req page 0x02C fun c => c.snapWrite req page 0 groups.toNat)

/-! Interrupt causes. -/

/-- The bits of IRQ_RAW that a page has beside ERR, LEASE_REVOKED and WR_DENIED. -/
def irqBits (p : Nat) : Nat :=
  match pageClass p with
  | some .pwr | some .therm | some .vrgA | some .vrgB | some .sac | some .cho | some .car => 3
  | some .prcC | some .vec | some .dmaC => 1
  | some .gslot | some .dmaP | some .dmaT | some .lxe | some .uart => 31
  | some .cam | some .rlk | some .tb => 15
  | some .stall | some .ecc | some .roodR | some .pciA | some .queue => 7
  | some .gpio => 0xFFFF
  | _ => 0

/-- The bits of IRQ_RAW that a page has. -/
def irqMask (p : Nat) : Word := word (0xE0000000 + irqBits p)

/-- IRQ_FORCE. -/
def execIrqForce (req : Requester) (page : Fin 4096) (mask : Word) (s : State) : Host.Outcome State Fault Refusal :=
  .next (s.onChip fun c => (c.ovrCut page).gated req page 0x01C fun c => c.irqForce page (mask &&& irqMask page))

/-- IRQ_RAW_CLEAR: with the bits that hardware sets in the same cycle. -/
def execIrqRawClear (req : Requester) (page : Fin 4096) (mask hwSet : Word) (s : State) : Host.Outcome State Fault Refusal :=
  .next (s.onChip fun c =>
    let c := c.ovrCut page
    match c.gate req (regAddr page 0x014) .b4 with
    | .pass => c.irqClear page mask (hwSet &&& irqMask page)
    | .stop c => if (pageClass page).isSome then c.raiseMask page (hwSet &&& irqMask page) else c)

end Sys2Proof.Machine
end

