-- ==== Sys2Proof/Machine/RegWrite.lean ====
section
/-! DEFINITION. Writes of registers (R64-R75, R82, R525, R526): what each register does with a write that has passed the
checks, the fields that are locked, the values that are stored in place of others, CTRL, and the soft reset of each page.
The command registers of the graph slots are with the Precentor. -/

namespace Sys2Proof.Machine

/-! Soft reset (R68, R70, R526). -/

/-- The window copies in progress complete (R526). -/
def finishCopies : WM Unit := do
  for _ in (← getChip).cho.copies do copyDone

/-- Tiles abandoned on some stalls: they are dealt again (R526). -/
def Chip.abandonTiles (c : Chip) (ss : List Nat) : Chip := ss.foldl Chip.abandonTile c

/-- Every cached translation dropped (R526). -/
def Chip.dropAllTlb (c : Chip) : Chip := { c with rood := { c.rood with tlb := [] } }

/-- Every graph slot that is not EMPTY fails (R323). -/
def Chip.failSlots (c : Chip) : Chip :=
  (List.range 8).foldl (fun (c : Chip) g =>
    if c.fld (pgSlot g) 0x080 0 3 = 0 ∨ c.fld (pgSlot g) 0x080 0 3 = 6 then c
    else ((c.setBit (pgSlot g) 0x07C 31 false).setFld (pgSlot g) 0x080 0 3 6).raise (pgSlot g) 4) c

/-- A camera port's soft reset: the frame ends ABORTED, and FRAME_NUM is kept (R230). -/
def camReset (p : Nat) : WM Unit := do
  let n := (← getChip).rd (pgCam p) 0x060
  camAbort p
  chipM fun c => c.wr (pgCam p) 0x060 n

/-- What the soft reset of a page does to its block. The registers stay as written (R70, R526), and a page whose chapter
names no transient state has none. -/
def softResetEffect (p : Nat) : WM Unit :=
  match pageClass p with
  | some .cam => camReset (p - 0x020)
  | some .pipe => pipeSoftReset
  | some .dmd => do
    dmdSoftReset
    abortQueues (unitQueues .dmd) fun r => r.op == 0xD1 && !r.finished
  | some .lis => chipM Chip.lisSoftReset
  | some .vec => abortEngine p
  | some .stall => chipM fun c => c.abandonTile (p - 0x040)
  | some .cho => do
    finishCopies
    chipM fun c => c.abandonTiles (List.range 32)
  | some .roodC | some .roodR => do
    if (← getChip).rood.cmd.isSome then rgnDone
    chipM fun c => (if c.desc.cmd.isSome then c.descDone else c).dropAllTlb
  | some .dmaC => chipM Chip.dmaEngineReset
  | some .dmaP | some .dmaT => chipM fun c => if c.dmaActive (p - 0x091) then c else c.dmaChanReset (p - 0x091)
  | some .lxe => abortQueues (unitQueues .lxe) fun _ => true
  | some .queue => queueSoftReset (p - 0x100)
  | some .car => chipM fun c => c.carAbort (p - 0x0D8)
  | some .i2c => chipM fun c => c.i2cAbort (p - 0x0D3)
  | some .uart => chipM fun c => c.setUart (p - 0x0D1) {}
  | some .rlk => chipM fun c => if c.bit p 0x040 0 ∧ c.portState (p - 0x0B0) ≠ lpQuarantined then (c.leaveUp (p - 0x0B0) lpDown).trainStart (p - 0x0B0) else c
  | some .prcC => chipM Chip.failSlots
  | some .ecc => chipM fun c => { c with memc := { c.memc with scrubRow := 0 } }
  | some .sac => chipM fun c => { c with pwr := { c.pwr with ovrCount := 0 } }
  | some .tb => chipM fun c => { c with time := { c.time with ppsLast := none, ppsMiss := 0, ppsGood := 0 } }
  | _ => pure ()

/-- SOFT_RESET set (R68): one in progress goes on. -/
def softReset (p : Nat) : WM Unit := do
  if !(← getChip).resetBusy p then
    chipM fun c => (c.setBit p 0x00C 1 true).setBit p 0x010 0 true
    softResetEffect p

/-- SOFT_RESET. -/
def execSoftReset (req : Requester) (page : Fin 4096) (s : State) : Host.Outcome State Fault Refusal :=
  s.onMem do
    chipM fun c => c.ovrCut page
    gatedM req page 0x00C (softReset page)

/-- A channel of the DMA engine that runs ends its reset at its descriptor boundary (R339). -/
def Chip.resetWaits (c : Chip) (p : Nat) : Bool := decide (0x091 ≤ p ∧ p ≤ 0x0A0) && c.dmaActive (p - 0x091)

/-- SOFT_RESET_DONE. After page 0x010's the Precentor firmware runs anew (R323), and after page 0x0B4's the flits that waited act
(R526). -/
def execSoftResetDone (page : Fin 4096) (s : State) : Host.Outcome State Fault Refusal :=
  s.onMem do
    let c ← getChip
    if c.resetBusy page && !c.resetWaits page then
      chipM fun c =>
        let c := if page.val = 0x010 then { c with fw := { c.fw with prcLost := false, prcTold := false } } else c
        (List.range 32).foldl Chip.redealTile ((c.setBit page 0x00C 1 false).setBit page 0x010 0 false)
      if page.val = 0x0B4 then unpark

/-! CTRL (R68, R525). -/

/-- ENABLE written. -/
def enableWrite (req : Requester) (p : Nat) (on : Bool) : WM Unit :=
  match pageClass p with
  | some .cam => if on then chipM fun c => c.portEnable req (p - 0x020) else portDisable (p - 0x020)
  | some .lis => chipM fun c => c.lisEnableTo req on
  | some .cls => clsEnableTo on
  | some .lp5x => chipM fun c => c.lpEnableTo on
  | some .queue => chipM fun c => c.queueEnableTo (p - 0x100) on
  | _ => chipM fun c => c.setBit p 0x00C 0 on

/-- CTRL written. -/
def ctrlWrite (req : Requester) (p : Nat) (v : Word) : WM Unit := do
  enableWrite req p (v.getLsbD 0)
  if v.getLsbD 1 then softReset p

/-! Locked fields (R108, R186, R209, R230, R323, R345, R460). -/

/-- An offset of a block of registers that repeats: its instance, if it is one of these places in the block. -/
def inst (off base stride n : Nat) (at? : List Nat) : Option Nat :=
  if base ≤ off ∧ (off - base) / stride < n ∧ at?.contains ((off - base) % stride) then some ((off - base) / stride) else none

/-- The code under which a write to a field is ignored and logged in the present state; none where it is taken, and at an offset
without a register (R65). -/
def Chip.locked (c : Chip) (p off : Nat) : Option Nat :=
  if (regRow p off).isNone then none else
  let cfg := fun (b : Bool) => if b then some 0x04 else none
  match pageClass p with
  | some .cls | some .lp5x => if off = 0x040 then cfg (c.enabled p) else none
  | some .roodC => match inst off 0x040 0x20 16 [8, 12] with
    | some n => cfg (c.ctxEnabled n)
    | none => none
  | some .roodR => if 0x200 ≤ off ∧ off < 0x244 ∧ c.bit 0x073 0x248 31 then some 0x0A else none
  | some .queue =>
    if [0x040, 0x044, 0x048, 0x050, 0x054].contains off then
      cfg (c.qstate (p - 0x100) != qStopped || c.qhead (p - 0x100) != c.qtail (p - 0x100))
    else none
  | some .lis => if (inst off 0x080 0x40 4 [0]).isSome then cfg (c.enabled p) else none
  | some .cam => if 0x040 ≤ off ∧ off ≤ 0x054 then cfg (c.enabled p) else none
  | some .pipe => match inst off 0x080 0x40 4 [0x20, 0x24] with
    | some n => cfg (c.enabled (pgCam n))
    | none => none
  | some .gslot => if 0x040 ≤ off ∧ off ≤ 0x074 then cfg (c.fld p 0x080 0 3 != 0 && c.fld p 0x080 0 3 != 2) else none
  | some .dmaP | some .dmaT =>
    if 0x040 ≤ off ∧ off < 0x0C0 then cfg (c.dmaState (p - 0x091) != dmaIdle)
    else if 0x0C0 ≤ off ∧ off < 0x100 ∧ c.bit p 0x100 2 then some 0x0C else none
  | some .sac => if 0x040 ≤ off ∧ off < 0x080 ∧ c.bit 0x008 0x0C0 0 then some 0x13 else none
  | _ => none

/-! Values stored in place of others. -/

/-- A field kept where a test holds, else stored as another value. -/
def fixField (v lo w : Nat) (ok : Nat → Bool) (d : Nat) : Nat := if ok (bits v lo w) then v else putBits v lo w d

/-- A value within bounds. -/
def within (lo hi x : Nat) : Bool := decide (lo ≤ x) && decide (x ≤ hi)

/-- The word that a write stores for a word written (R188, R209, R210, R232-R234, R405, R428, R489). -/
def fixWord (p off v : Nat) : Nat :=
  match pageClass p with
  | some .queue => if off = 0x048 then fixField v 0 5 (within 4 16) 4 else v
  | some .lis =>
    if (inst off 0x080 0x40 4 [4]).isSome then fixField v 0 16 (· != 0) 1
    else if (inst off 0x080 0x40 4 [12]).isSome then fixField v 0 20 (within 0 200000) 200000 else v
  | some .dmd =>
    if (inst off 0x080 0x20 4 [8]).isSome then fixField v 28 4 (within 4 12) 4
    else if (inst off 0x080 0x20 4 [12]).isSome then fixField v 16 3 (within 0 4) 4 else v
  | some .cam => if off = 0x050 then fixField v 0 20 (within 0 400000) 400000 else v
  | some .pipe => if (inst off 0x080 0x40 4 [0]).isSome then fixField v 0 4 (within 5 8) 6 else v
  | some .stat => if (inst off 0x080 0x20 4 [8]).isSome then fixField v 0 4 (within 2 8) 2 else v
  | some .uart =>
    if off = 0x040 then fixField v 0 16 (within 16 65535) 16
    else if off = 0x044 then fixField v 1 2 (within 0 2) 0 else v
  | some .sac => if off = 0x100 then fixField v 0 10 (within 10 1000) 1000 else v
  | some .car => if off = 0x040 then fixField v 4 4 (within 0 3) 3 else v
  | _ => v

/-! What registers do. -/

/-- A camera port's word at 0x058: RST_ASSERT is stored, TRIG_SW acts. -/
def Chip.camPins (c : Chip) (req : Requester) (n : Nat) (v : Word) : Chip :=
  let c := c.setBit (pgCam n) 0x058 0 (v.getLsbD 0)
  if v.getLsbD 1 then c.trigSw req n else c

/-- The chain control word of a Carillon page (R405). What the presence check of a reset asked for here finds is open. -/
def Chip.carCtrl (c : Chip) (n : Nat) (v : Word) : Chip :=
  let c := (c.setFld (pgCar n) 0x040 4 4 (bits v.toNat 4 4)).chainEnTo n (v.getLsbD 0)
  let (k, c) := c.draw
  let seen := Config.choice k % 2 == 1
  let c := if v.getLsbD 1 then c.resetAsked n true seen else c
  if v.getLsbD 2 then c.resetAsked n false seen else c

/-- A word with a GO bit: its fields are stored, then GO acts. -/
def Chip.goWord (c : Chip) (p off : Nat) (v : Word) (go : Chip → Chip) : Chip :=
  let c := c.plain p off (v &&& 0x7FFFFFFF)
  if v.getLsbD 31 then go c else c

/-- A link port's control word: PORT_EN acts, the test bits are stored. -/
def Chip.rlkCtrl (c : Chip) (n : Nat) (v : Word) : Chip :=
  (c.setFld (pgRlk n) 0x040 1 3 (bits v.toNat 1 3)).portEn n (v.getLsbD 0)

/-- A word of the MSI-X table (R408, R410): a pending vector that becomes unmasked sends its one message,
which is the armed group's own where that is due too. -/
def Chip.msixWrite (c : Chip) (off : Nat) (v : Word) : Chip :=
  let c := c.plain 0x0C1 off v
  let n := (off - 0x400) / 16
  if c.pcie.pba.getLsbD n && !c.vectorMasked n then
    let pc := { c.pcie with pba := c.pcie.pba &&& ~~~(BitVec.ofNat 64 (2 ^ n)) }
    if c.highVectors.contains n && c.pcie.armed.getLsbD n then { c with pcie := pc }
    else { c with pcie := deliverVector (c.bit 0x0C0 0x040 8) false n pc }
  else c

/-- QCTX and QPRIO: a locked queue keeps QCTX and takes QPRIO (R186). -/
def Chip.qctxWrite (c : Chip) (req : Requester) (q : Nat) (v : Word) : Chip :=
  if c.qstate q = qStopped ∧ c.qhead q = c.qtail q then c.plain (pgQ q) 0x04C v
  else (c.setFld (pgQ q) 0x04C 4 2 (bits v.toNat 4 2)).logUse (pgQ q) 0x04 req (regAddr (pgQ q) 0x04C)

/-- QSIZE. -/
def Chip.qsizeWrite (c : Chip) (req : Requester) (q : Nat) (v : Word) : Chip :=
  let c := c.plain (pgQ q) 0x048 (word (fixWord (pgQ q) 0x048 v.toNat))
  if within 4 16 (bits v.toNat 0 5) then c else c.logUse (pgQ q) 0x05 req (regAddr (pgQ q) 0x048)

/-- A register of the management pages. -/
def mgtWrite (req : Requester) (p off : Nat) (v : Word) : WM Unit :=
  let n := v.toNat
  let plain := chipM fun c => c.plain p off (word (fixWord p off n))
  match p, off with
  | 0x001, 0x040 => chipM fun c => c.setChoWindow v
  | 0x002, 0x040 => chipM fun c => c.setCap n
  | 0x002, 0x054 => chipM fun c => c.policyRaise (bits n 0 8)
  | 0x003, 0x064 => chipM fun c => c.setTLimit (bits n 0 16)
  | 0x004, 0x04C => if bits n 24 8 = 0xA5 then vrgCmd req (bits n 16 3) (bits n 8 4) else pure ()
  | 0x005, 0x054 => if bits n 0 1 = 1 then chipM Chip.jrnPop else pure ()
  | 0x005, 0x064 => unitFail (bits n 0 9)
  | 0x005, 0x068 => if bits n 16 16 = 0x5253 then resetReq req (bits n 0 2) else pure ()
  | 0x008, 0x0D4 => if bits n 0 1 = 1 then bootGo req else pure ()
  | 0x008, 0x0D8 => chipM fun c => c.ovrWrite req v
  | 0x008, 0x104 => chipM fun c => c.sacOnly req fun c => c.wdtKick v
  | _, _ => if p = 0x008 ∧ 0x100 ≤ off then chipM fun c => c.sacOnly req fun c => c.plain p off (word (fixWord p off n)) else plain

/-- A register of the memory, DMA and link pages. -/
def fabricWrite (req : Requester) (p off : Nat) (v : Word) : WM Unit :=
  let n := v.toNat
  let plain := chipM fun c => c.plain p off v
  match pageClass p with
  | some .cls => if 0x080 ≤ off ∧ off < 0x180 then chipM fun c => c.clsSkew req ((off - 0x080) / 4) v else plain
  | some .roodC => match inst off 0x040 0x20 16 [0] with
    | some k => chipM fun c => c.ctxCtrl k (v.getLsbD 0) (v.getLsbD 1) (v.getLsbD 2)
    | none => plain
  | some .roodR =>
    if off = 0x054 then chipM fun c => c.rgnCmd req (v.getLsbD 0) (v.getLsbD 1)
    else if off = 0x114 then (if v.getLsbD 0 then chipM Chip.fltPop else pure ())
    else if off = 0x244 then chipM fun c => c.descCmd req n
    else plain
  | some .dmaP | some .dmaT => if off = 0x100 then chipM fun c => c.dmaCmd req (p - 0x091) n else plain
  | some .rlk => if off = 0x040 then chipM fun c => c.rlkCtrl (p - 0x0B0) v else plain
  | some .lxe => if off = 0x040 then chipM fun c => c.chapterCtrl req v else plain
  | _ => plain

/-- A register of the pages of cameras, demodulator, LIS, Choir and queues. -/
def engineWrite (req : Requester) (p off : Nat) (v : Word) : WM Unit :=
  let n := v.toNat
  let plain := chipM fun c => c.plain p off (word (fixWord p off n))
  match pageClass p with
  | some .cam => if off = 0x058 then chipM fun c => c.camPins req (p - 0x020) v else plain
  | some .lis => if off = 0x040 then chipM fun c => c.lisFire (bits n 0 4) else plain
  | some .stall => if off = 0x05C then (if v.getLsbD 0 then chipM fun c => c.suspectClr (p - 0x040) else pure ()) else plain
  | some .cho =>
    if off = 0x040 then chipM fun c => c.allowedWrite v
    else if off = 0x048 then chipM fun c => c.retireReq v
    else if 0x060 ≤ off ∧ off < 0x080 then chipM fun c => c.groupWrite req ((off - 0x060) / 4) n
    else plain
  | some .prcE =>
    if off = 0x840 then (if bits n 16 16 = 0 then pure () else chipM fun c => c.signal' (bits n 0 8) (bits n 16 16)) else plain
  | some .queue =>
    let q := p - 0x100
    if off = 0x048 then chipM fun c => c.qsizeWrite req q v
    else if off = 0x04C then chipM fun c => c.qctxWrite req q v
    else if off = 0x05C then chipM fun c => c.tailWrite req q v
    else if off = 0x064 then chipM fun c => c.qcmd req q (v.getLsbD 0) (v.getLsbD 1)
    else plain
  | _ => plain

/-- A register of the host link, timebase and peripheral pages. -/
def edgeWrite (req : Requester) (p off : Nat) (v : Word) : WM Unit :=
  let n := v.toNat
  let plain := chipM fun c => c.plain p off (word (fixWord p off n))
  match pageClass p with
  | some .pciA => if off = 0x044 then chipM fun c => c.irqEoi (bits n 0 6) else plain
  | some .pciB => if 0x400 ≤ off ∧ off < 0x800 then chipM fun c => c.msixWrite off v else plain
  | some .tb =>
    if off = 0x050 then chipM fun c => c.setRate v.toInt
    else if off = 0x054 then chipM fun c => { c.plain p off v with time := { c.time with slewPart := 0 } }
    else plain
  | some .uart =>
    if off = 0x048 then chipM fun c => c.txData (p - 0x0D1) (BitVec.ofNat 8 n)
    else if off = 0x050 then (if v.getLsbD 0 then chipM fun c => c.rxPop (p - 0x0D1) else pure ())
    else plain
  | some .i2c =>
    if off = 0x040 then chipM fun c => c.i2cSpeed (p - 0x0D3) (bits n 0 2)
    else if off = 0x044 then chipM fun c => c.i2cScl (p - 0x0D3) v
    else if off = 0x048 then chipM fun c => c.goWord p off v fun c => c.i2cGo req (p - 0x0D3)
    else plain
  | some .gpio =>
    if off = 0x048 then chipM fun c => c.gpioOut (bits n 0 16) true
    else if off = 0x04C then chipM fun c => c.gpioOut (bits n 0 16) false
    else plain
  | some .car =>
    if off = 0x040 then chipM fun c => c.carCtrl (p - 0x0D8) (word (fixWord p off n))
    else if off = 0x044 then chipM fun c => c.goWord p off v fun c => c.carGo req (p - 0x0D8)
    else if off = 0x048 then (if v.getLsbD 0 then chipM fun c => c.txCancel (p - 0x0D8) else pure ())
    else plain
  | _ => plain

/-- A block register written. -/
def blockWrite (req : Requester) (p off : Nat) (v : Word) : WM Unit :=
  if p < 0x010 then mgtWrite req p off v
  else if (0x070 ≤ p && p < 0x0C0) then fabricWrite req p off v
  else if (0x0C0 ≤ p && p < 0x100) then edgeWrite req p off v
  else engineWrite req p off v

/-- LEASE written (R81). -/
def Chip.leaseWord (c : Chip) (req : Requester) (p : Nat) (v : Word) : Chip :=
  c.leaseWrite req p (v.getLsbD 0) (v.getLsbD 1) (v.getLsbD 2) (bits v.toNat 16 8)

/-- A header register written (R67). -/
def headerWrite (req : Requester) (p off : Nat) (v : Word) : WM Unit :=
  if off = 0x00C then ctrlWrite req p v
  else if off = 0x014 then chipM fun c => c.irqClear p v 0
  else if off = 0x018 then chipM fun c => c.plain p off (v &&& irqMask p)
  else if off = 0x01C then chipM fun c => c.irqForce p (v &&& irqMask p)
  else if off = 0x028 then chipM fun c => c.leaseWord req p v
  else if off = 0x02C then chipM fun c => c.snapWrite req p (bits v.toNat 0 8) (bits v.toNat 8 8)
  else chipM fun c => c.plain p off v

/-- A half of a writable pair written (R76). RELOAD_PA is written by SAC alone, and TB_SET steps the timebase. -/
def Chip.pairWrite (c : Chip) (req : Requester) (p off : Nat) (v : Word) : Chip :=
  let act := fun (c : Chip) =>
    if pairLo p off = some true then c.pairLoWrite req p off v
    else if p = 0x0D0 ∧ off = 0x04C then c.tbSet req v
    else c.pairHiWrite req p (off - 4) v
  if p = 0x008 then c.sacOnly req act else act c

/-- The error code of a locked register; a pair is locked when either of its words is. -/
def Chip.lockedPair (c : Chip) (p off : Nat) : Option Nat :=
  match c.locked p off with
  | some e => some e
  | none => if pairHi p off = some true then c.locked p (off - 4) else none

/-- A write of a locked register: it is logged, and a HI word drops the LO word that its requester held (R68, R76). -/
def Chip.lockedWrite (c : Chip) (req : Requester) (p off e : Nat) : Chip :=
  let c := if pairHi p off = some true then
      { c with bus := { c.bus with held := adel c.bus.held (reqKey (regAddr p (off - 4)) req) } }
    else c
  c.logUse p e req (regAddr p off)

/-- A write that has passed the checks: the LO word of a pair is held, since a pair takes effect at its HI word (R76); locked
fields log; every other register does what it does. -/
def regTake (req : Requester) (p off : Nat) (v : Word) : WM Unit := do
  let c ← getChip
  if pairLo p off = some true then chipM fun c => c.pairWrite req p off v
  else
  match c.lockedPair p off with
  | some e => chipM fun c => c.lockedWrite req p off e
  | none =>
    if off < 0x040 then headerWrite req p off v
    else if pairLo p off = some true ∨ pairHi p off = some true then chipM fun c => c.pairWrite req p off v
    else blockWrite req p off v

/-- A write to a page but for a graph slot's commands. Any write to page 0x008 but the override's own ends a sequence in
progress (R444). -/
def regWriteWith (take : WM Unit) (req : Requester) (addr : Nat) (size : RegSize) : WM Unit := do
  if addr % 0x1000 ≠ 0x0D8 then chipM fun c => c.ovrCut (addr / 0x1000)
  match (← getChip).gate req addr size with
  | .pass => take
  | .stop c => chipM fun _ => if addr = regAddr 0x008 0x0D8 then c.ovrBreak else c

/-- A register write that no graph command is (R74). -/
def regWrite (req : Requester) (addr : Nat) (v : Word) : WM Unit :=
  regWriteWith (regTake req (addr / 0x1000) (addr % 0x1000 / 4 * 4) v) req addr .b4

end Sys2Proof.Machine
end

