-- ==== Sys2Proof/Machine/Graph.lean ====
section
/-! DEFINITION. Graph images (R303-R308): how the bytes of an image spell its records, the checks of LOAD in their order, and
the descriptors and initial content that LOAD makes. -/

namespace Sys2Proof.Machine

/-! Records (R304-R307). -/

/-- Fixed-size records of a section. -/
def recordsOf (bs : List Byte) (n size : Nat) : List (List Byte) := (List.range n).map fun i => (bs.drop (size * i)).take size

/-- A node. -/
def parseNode (b : List Byte) : GNode :=
  { id := leAt b 0 2, kind := leAt b 2 1, unit := leAt b 3 1, srcPos := leAt b 4 1, srcPort := leAt b 5 1, tapChip := leAt b 6 1, outBuf := leAt b 8 2 }

/-- An edge. -/
def parseEdge (b : List Byte) : GEdge :=
  { src := leAt b 0 2, dst := leAt b 2 2, buf := leAt b 4 2, tid := leAt b 6 2 % 4096, carry := leAt b 7 1 / 128 == 1 }

/-- A buffer. -/
def parseBuf (b : List Byte) : GBuf :=
  { kind := leAt b 0 1, arena := leAt b 1 1, desc := leAt b 2 2, off := leAt b 4 4, slotBytes := leAt b 8 4 }

/-- A piece. -/
def parsePiece (b : List Byte) : GPiece :=
  { tid := leAt b 0 2 % 4096, piece := leAt b 2 1, ndim := leAt b 3 1
    origin := (List.range 5).map fun i => leAt b (4 + 4 * i) 4
    extent := (List.range 5).map fun i => leAt b (24 + 4 * i) 4
    buf := leAt b 44 2
    owner := (List.range 8).map fun i => leAt b (48 + i) 1
    repl := (List.range 8).map fun i => leAt b (56 + i) 1 }

/-- A placement of n nodes. -/
def parsePlace (n : Nat) (b : List Byte) : GPlace :=
  { alive := leAt b 0 1
    units := (List.range 8).map fun i => leAt b (2 + 2 * i) 2
    queues := (List.range 8).map fun i => leAt b (32 + 16 * i) 16
    nodePos := (List.range n).map fun i => leAt b (160 + i) 1
    tmpl := (List.range n).map fun i => leAt b (416 + 2 * i) 2 }

/-- The offset and size of a section: 0 NODES, 1 EDGES, 2 BUFS, 3 PIECES, 4 PLACES, 5 TEMPLATES, 6 PARAMS, 7 INIT. -/
def sectOf (h : List Byte) (k : Nat) : Nat × Nat := (leAt h (112 + 8 * k) 4, leAt h (116 + 8 * k) 4)

/-- The bytes of a section. -/
def sectBytes (img : List Byte) (k : Nat) : List Byte := (img.drop (sectOf img k).1).take (sectOf img k).2

/-- Every byte of a range is 0. -/
def zeros (b : List Byte) (i n : Nat) : Bool := ((b.drop i).take n).all fun x => x == 0

/-- An image whose header, sections and counts have passed. -/
def parseImage (m : List Byte) : GImage :=
  let n := leAt m 24 2
  { size := leAt m 8 4, chapter := leAt m 20 1, pacing := leAt m 22 1, depth := leAt m 23 1, nDesc := leAt m 30 2, nEvt := leAt m 32 1
    seqMask := leAt m 33 1 % 16
    nodes := (recordsOf (sectBytes m 0) n 16).map parseNode
    edges := (recordsOf (sectBytes m 1) (leAt m 26 2) 8).map parseEdge
    bufs := (recordsOf (sectBytes m 2) (leAt m 28 2) 16).map parseBuf
    pieces := (recordsOf (sectBytes m 3) (leAt m 34 2) 64).map parsePiece
    places := (recordsOf (sectBytes m 4) (leAt m 21 1) 928).map (parsePlace n)
    templates := sectBytes m 5, tmplOff := (sectOf m 5).1, init := sectBytes m 7 }

/-! The checks of the header (R303, R308). -/

/-- FORMAT: the major version, and the reserved bytes of a header of this edition's minor. -/
def formatBad (h : List Byte) : Bool :=
  leAt h 4 1 != 1 || (leAt h 5 1 == 0 && !(zeros h 36 28 && zeros h 176 80))

/-- LIMITS: the counts of R303. -/
def limitsBad (h : List Byte) : Bool :=
  let inside := fun lo hi v => decide (lo ≤ v) && decide (v ≤ hi)
  !(inside 1 8 (leAt h 20 1) && inside 1 8 (leAt h 21 1) && leAt h 22 1 / 4 == 0 && inside 1 8 (leAt h 23 1) && inside 1 256 (leAt h 24 2) &&
    inside 0 1024 (leAt h 26 2) && inside 1 1024 (leAt h 28 2) && inside 1 4095 (leAt h 30 2) && inside 32 255 (leAt h 32 1) &&
    leAt h 33 1 / 16 == 0 && inside 0 4095 (leAt h 34 2))

/-- SECTION: inside the image, apart from each other, and as long as their records. -/
def sectionsBad (h : List Byte) : Bool :=
  let ss := (List.range 8).map (sectOf h)
  let size := leAt h 8 4
  let want := [16 * leAt h 24 2, 8 * leAt h 26 2, 16 * leAt h 28 2, 64 * leAt h 34 2, 928 * leAt h 21 1]
  let meet := fun (a b : Nat × Nat) => decide (a.1 < b.1 + b.2) && decide (b.1 < a.1 + a.2) && a.2 != 0 && b.2 != 0
  (ss.any fun s => s.1 % 8 != 0 || s.2 % 8 != 0 || decide (size < s.1 + s.2)) ||
  ((List.range 8).any fun i => (List.range i).any fun j => meet (ss.getD i (0, 0)) (ss.getD j (0, 0))) ||
  (want.zipIdx.any fun (w, k) => (sectOf h k).2 != w)

/-! The checks of the records (R304-R308). -/

/-- A source node. -/
def GNode.isSrc (n : GNode) : Bool := n.kind == 0 || n.kind == 1

/-- A node's record breaks R304. -/
def nodeBad (nBufs : Nat) (b : List Byte) : Bool :=
  let n := parseNode b
  decide (4 < n.kind) || !(zeros b 7 1 && zeros b 10 6) || decide (nBufs ≤ n.outBuf) ||
  (if n.kind = 2 then !(decide (n.unit ≤ 5) || n.unit == 7) else n.unit != 0xFF) ||
  (if n.isSrc then decide (8 ≤ n.srcPos) else n.srcPos != 0xFF) ||
  (n.kind == 0 && n.srcPort / 4 != 0) || (n.kind == 1 && (n.srcPort / 4 % 4 != 0 || n.srcPort / 64 != 0 || decide (16 ≤ n.tapChip)))

/-- The slots of a buffer (R305). -/
def GBuf.slots (b : GBuf) (depth : Nat) : Nat := if b.kind = 1 then 2 else if b.kind = 2 then 1 else depth

/-- A buffer's record breaks R305. -/
def bufBad (depth nDesc : Nat) (b : List Byte) : Bool :=
  let x := parseBuf b
  decide (4 < x.kind) || decide (2 < x.arena) || !zeros b 12 4 || decide (nDesc < x.desc + x.slots depth)

/-- A piece's record breaks R306. -/
def pieceBad (nBufs : Nat) (b : List Byte) : Bool :=
  let x := parsePiece b
  x.tid == 0 || leAt b 0 2 / 4096 != 0 || x.ndim == 0 || decide (5 < x.ndim) || ((x.extent.drop x.ndim).any fun e => e != 1) ||
  decide (nBufs ≤ x.buf) || !zeros b 46 2 || x.owner.any fun o => decide (8 ≤ o) && o != 0xFF

/-- A placement's record breaks R307. -/
def placeBad (n : Nat) (b : List Byte) : Bool :=
  let x := parsePlace n b
  !(zeros b 1 1 && zeros b 18 14) || (x.units.any fun u => u / 512 != 0) || x.nodePos.any fun p => decide (8 ≤ p) && p != 0xFF

/-- The nodes that a node's frame depends on, by edges without CARRY: a set closed under fuel steps. -/
def upstream (es : List GEdge) : Nat → List Nat → List Nat
  | 0, s => s
  | k + 1, s =>
    let new := (es.filter fun e => !e.carry && s.contains e.dst && !s.contains e.src).map GEdge.src
    if new = [] then s else upstream es k (s ++ new.eraseDups)

/-- Nodes left after removing, fuel times, those that no remaining edge enters: empty where the graph has no cycle. -/
def cycleRest (es : List GEdge) : Nat → List Nat → List Nat
  | 0, s => s
  | k + 1, s =>
    let rest := s.filter fun n => es.any fun e => !e.carry && e.dst == n && s.contains e.src
    if rest.length = s.length then s else cycleRest es k rest

/-- The sources that a node depends on, in ascending node index. -/
def GImage.sourcesOf (g : GImage) (i : Nat) : List Nat :=
  let up := upstream g.edges g.nodes.length [i]
  (List.range g.nodes.length).filter fun k => up.contains k && ((g.nodes[k]?).any GNode.isSrc)

/-- GRAPH. -/
def graphBad (m : List Byte) : Bool :=
  let g := parseImage m
  let n := g.nodes.length
  let nb := g.bufs.length
  ((recordsOf (sectBytes m 0) n 16).any (nodeBad nb)) ||
  ((recordsOf (sectBytes m 1) g.edges.length 8).any fun b =>
    let e := parseEdge b
    decide (n ≤ e.src) || decide (n ≤ e.dst) || decide (nb ≤ e.buf) || leAt b 7 1 / 16 % 8 != 0) ||
  ((recordsOf (sectBytes m 2) nb 16).any (bufBad g.depth g.nDesc)) ||
  ((recordsOf (sectBytes m 3) g.pieces.length 64).any (pieceBad nb)) ||
  ((recordsOf (sectBytes m 4) g.places.length 928).any (placeBad n)) ||
  cycleRest g.edges n (List.range n) != [] ||
  g.nodes.zipIdx.any fun (x, i) => x.kind == 4 && decide (12 < (g.sourcesOf i).length)

/-- NODE_POS and NODE_TMPL of a node, UNITS and QUEUES of a position. -/
def GPlace.pos (p : GPlace) (i : Nat) : Nat := p.nodePos.getD i 0xFF
def GPlace.unitsAt (p : GPlace) (q : Nat) : Nat := p.units.getD q 0
def GPlace.queuesAt (p : GPlace) (q : Nat) : List Nat := (List.range 128).filter fun k => bits (p.queues.getD q 0) k 1 == 1

/-- The bits of UNITS that a node needs: its engine's, or those that capture and demodulate a source. -/
def GNode.needs (n : GNode) : List Nat :=
  if n.kind = 0 then [6, 8] else if n.kind = 1 then [8] else if n.kind = 2 then [n.unit] else []

/-- PLACEMENT: one placement of the image. -/
def placementBad (g : GImage) (p : Nat) (x : GPlace) : Bool :=
  let high := fun q => q != 0xFF && decide (g.chapter ≤ q)
  ((g.nodes.zipIdx).any fun (n, i) =>
    let q := x.pos i
    (n.isSrc && q != n.srcPos && q != 0xFF) || high q || (q != 0xFF && n.needs.any fun u => bits (x.unitsAt q) u 1 == 0)) ||
  x.alive / 2 ^ g.chapter != 0 || ((List.range 8).any fun q => decide (g.chapter ≤ q) && (x.unitsAt q != 0 || x.queues.getD q 0 != 0)) ||
  (g.pieces.any fun c => high (c.owner.getD p 0xFF) || c.repl.getD p 0 / 2 ^ g.chapter != 0) ||
  g.edges.any fun e =>
    let a := x.pos e.src
    let b := x.pos e.dst
    a != 0xFF && b != 0xFF && a != b && (e.tid == 0 || !g.pieces.any fun c => c.tid == e.tid && c.owner.getD p 0xFF == b)

/-! The slot's registers (R326). -/

/-- GCTX, DESC_SLOT0, the arenas and IMG_PA. -/
def Chip.gctx (c : Chip) (g : Nat) : Nat := c.fld (pgSlot g) 0x060 28 4
def Chip.descSlot0 (c : Chip) (g : Nat) : Nat := c.fld (pgSlot g) 0x060 16 12
def Chip.arenaVa (c : Chip) (g arena : Nat) : Nat := c.rd64 (pgSlot g) (if arena = 1 then 0x054 else 0x048)
def Chip.arenaSize (c : Chip) (g arena : Nat) : Nat := 65536 * c.fld (pgSlot g) (if arena = 1 then 0x05C else 0x050) 0 24
def Chip.imgPa (c : Chip) (g : Nat) : Nat := c.rd64 (pgSlot g) 0x040 / 4096 * 4096

/-- The end of a graph command: BUSY falls with the code, and GDONE is set. -/
def Chip.gEnd (c : Chip) (g code : Nat) : Chip := (c.wr (pgSlot g) 0x07C (word code)).raise (pgSlot g) 0

/-- The counter ranges of two slots meet. -/
def Chip.evtMeets (c : Chip) (g n : Nat) : Bool :=
  c.prc.slots.any fun s => s.1 != g && decide (c.evtBase g < c.evtBase s.1 + s.2.img.nEvt) && decide (c.evtBase s.1 < c.evtBase g + n)

/-- A range of a context lies in a registered region of it. -/
def Chip.inRegion (c : Chip) (ctx va n : Nat) : Bool :=
  c.rood.regions.any fun r => r.2.ctx == ctx && decide (r.2.base ≤ va) && decide (va + n ≤ r.2.base + r.2.size)

/-- ARENA: the arenas that the buffers use, and the place of each slot. -/
def Chip.arenaBad (c : Chip) (g : Nat) (i : GImage) : Bool :=
  (i.bufs.any fun b =>
    decide ((if b.arena = 2 then i.size else c.arenaSize g b.arena) < b.off + b.slots i.depth * b.slotBytes)) ||
  ([0, 1].any fun a => (i.bufs.any fun b => b.arena == a) && !c.inRegion (c.gctx g) (c.arenaVa g a) (c.arenaSize g a))

/-! Writes of the firmware: its cores reach Cloister and LP5X by physical address (R87), and find it by the context's tables. -/

/-- Bytes written at a virtual address of a context, where the tables lead to memory. -/
def fwWrite (ctx va : Nat) (bs : List Byte) : WM Unit := do
  for (a, n) in bursts va bs.length do
    match ← walk ctx a with
    | .error _ => pure ()
    | .ok l =>
      let pa := l.base + a % 2 ^ l.log2
      let part := (bs.drop (a - va)).take n
      if target pa = .host then
        if !(← getChip).badTarget pa then
          let _ ← writePhys 0xFF pa (part.map some)
      else fwStore pa part

/-- Bytes written at an offset of an arena: the image's by its physical address. -/
def arenaWrite (g arena off : Nat) (bs : List Byte) : WM Unit := do
  let c ← getChip
  if arena = 2 then fwStore (c.imgPa g + off) bs
  else fwWrite (c.gctx g) (c.arenaVa g arena + off) bs

/-- The bindings that descriptors and templates are bound to. -/
def Chip.bindings (c : Chip) (g : Nat) : List Nat :=
  [c.gctx g, c.descSlot0 g, c.evtBase g, c.arenaVa g 0, c.arenaVa g 1, c.imgPa g]

/-! LOAD (R308). -/

/-- The end of the memory that an address of an image lies in, by what is in service; none outside Cloister and LP5X. -/
def Chip.imageEnd (c : Chip) (pa : Nat) : Option Nat :=
  match target pa with
  | .cls => if c.enabled 0x070 then some (clsBase + 16384 * c.clsCap) else none
  | .lp5x => if c.enabled 0x088 then some (lpBase + c.lpCap) else none
  | _ => none

/-- The image read and checked up to ARENA, in the order of R308: its records, or the code. -/
def checkImage (g : Nat) : WM (Except Nat GImage) := do
  let c ← getChip
  let pa := c.imgPa g
  if c.pwr.held then return .error 0x02
  match c.imageEnd pa with
  | none => return .error 0x03
  | some top =>
    if top < pa + 256 then return .error 0x06
    match ← fwLoad pa 256 with
    | none => return .error 0x03
    | some h =>
      let size := leAt h 8 4
      if leAt h 0 4 ≠ 0x49475647 then return .error 0x04
      else if formatBad h then return .error 0x05
      else if size % 64 ≠ 0 ∨ size < 256 ∨ 2 ^ 26 < size ∨ top < pa + size then return .error 0x06
      else match ← fwLoad pa size with
        | none => return .error 0x03
        | some m =>
          let i := parseImage m
          if sha384 (m.take 64 ++ List.replicate 48 0 ++ m.drop 112) ≠ (m.drop 64).take 48 then return .error 0x07
          else if stepping < leAt h 6 1 ∨ leAt h 7 1 < stepping then return .error 0x08
          else if (c.rd 0x010 0x048).toNat < leAt h 16 4 then return .error 0x09
          else if !(c.pwr.prc.any fun p => decide (p.clalaMin ≤ leAt h 12 4) && decide (leAt h 12 4 ≤ p.clalaMax)) then return .error 0x0A
          else if limitsBad h then return .error 0x0B
          else if sectionsBad h then return .error 0x0C
          else if 256 < c.evtBase g + i.nEvt ∨ c.evtMeets g i.nEvt then return .error 0x0D
          else if graphBad m then return .error 0x0E
          else if i.places.zipIdx.any fun (x, p) => placementBad i p x then return .error 0x0F
          else if c.arenaBad g i then return .error 0x10
          else return .ok i

/-- The descriptors of an image created from its templates (R131): the chip with them, or the chip as it was with the
first failing code. -/
def Chip.gDescs (c0 : Chip) (g : Nat) (i : GImage) : Nat → Chip → Except Nat Chip
  | 0, c => .ok c
  | k + 1, c =>
    let n := i.nDesc - (k + 1)
    let qw := Config.descTemplate i.templates n (c0.bindings g)
    let h := c0.gctx g * 4096 + (c0.descSlot0 g + n)
    let code := if 4096 ≤ c0.descSlot0 g + n then 0x02 else c.createCheck h qw
    if code ≠ 0 then .error code else c0.gDescs g i k (c.storeSlot h { qw := qw, owner := 3 })

/-- INIT's content of a persistent buffer written to one of its slots. -/
def initBuffer (g : Nat) (i : GImage) (b slot : Nat) : WM Unit := do
  match i.bufs[b]? with
  | none => pure ()
  | some x =>
    for (k, off, bs) in Config.initContent i.init do
      if k = b ∧ x.kind = 1 then arenaWrite g x.arena (x.off + slot * x.slotBytes + off) (bs.take (x.slotBytes - off))

/-- INIT's content: slot 1 of every persistent buffer (R311). -/
def initContent (g : Nat) (i : GImage) : WM Unit := do
  for b in List.range i.bufs.length do initBuffer g i b 1

/-- The state tensors that an abort left undefined are written anew, those that lie in a persistent buffer of the slot (R255). -/
def rewriteStates (g : Nat) (i : GImage) : WM Unit := do
  let c ← getChip
  for h in c.prc.rewrites do
    let d := h % 4096 - c.descSlot0 g
    match i.bufs.zipIdx.find? fun (x, _) => x.kind == 1 && decide (x.desc ≤ d) && decide (d < x.desc + 2) with
    | none => pure ()
    | some (x, b) =>
      if h / 4096 = c.gctx g ∧ c.descSlot0 g ≤ h % 4096 then
        initBuffer g i b (d - x.desc)
        chipM fun c => { c with prc := { c.prc with rewrites := c.prc.rewrites.erase h } }

/-- INIT's register writes made, as PRC_0. -/
def initRegs (i : GImage) : WM Unit := do
  for (addr, v) in Config.initWrites i.init do regWrite .prc0 addr v

/-- The descriptors of an image created under the lease of page 0x073, which the firmware takes and gives back. -/
def Chip.makeDescs (c : Chip) (g : Nat) (i : GImage) : Chip :=
  let mine := c.holds .prc0 0x073
  let c := if mine then c else c.leaseWrite .prc0 0x073 true false false 100
  let c := match c.gDescs g i i.nDesc c with
    | .ok c' => c'
    | .error _ => c
  if mine then c else c.leaseWrite .prc0 0x073 false true false 0

/-- GRAPH_LOAD_DONE: the slot is LOADED, or EMPTY with a code (R308). -/
def graphLoadDone (g : Nat) : WM Unit := do
  if (← getChip).gstate g = 1 then
    match ← checkImage g with
    | .error e => chipM fun c => (c.setGstate g 0).gEnd g e
    | .ok i =>
      let c ← getChip
      match c.gDescs g i i.nDesc c with
      | .error e => chipM fun c => ((c.setGstate g 0).logErr (pgSlot g) clsUse 0x05 3 (word e)).gEnd g 0x11
      | .ok _ =>
        if c.leaseState 0x073 ≠ 0 ∧ !c.holds .prc0 0x073 then
          chipM fun c => ((c.advance (c.time.now + 10000000)).setGstate g 0).gEnd g 0x12
        else
          chipM fun c => (c.makeDescs g i).setGslot g (some { img := i })
          initContent g i
          initRegs i
          chipM fun c => (c.setGstate g 2).gEnd g 0x00

/-- GRAPH_LOAD_DONE. -/
def execGraphLoadDone (slot : Fin 8) (s : State) : Host.Outcome State Fault Refusal := s.onMem (graphLoadDone slot)

end Sys2Proof.Machine
end

