-- ==== Sys2Proof/Machine/Frames.lean ====
section
/-! DEFINITION. Frames of a running graph on one chip (R313-R317): the placement in use, what the firmware writes, the
commands it posts and the result headers, and the end of a frame's commands (R321). -/

namespace Sys2Proof.Machine

/-! The slot's placement. -/

/-- A placement where none is named. -/
def noPlace : GPlace := { alive := 0, units := [], queues := [], nodePos := [], tmpl := [] }

/-- A placement of a slot's image, and the active one. -/
def GSlot.place (s : GSlot) (p : Nat) : GPlace := s.img.places.getD p noPlace
def Chip.gPlace (c : Chip) (g : Nat) (s : GSlot) : GPlace := s.place (c.fld (pgSlot g) 0x080 8 4)

/-- The Precentor firmware of this chip acts. -/
def Chip.prcRuns (c : Chip) : Bool :=
  c.fld 0x010 0x040 0 2 == 3 && c.fld 0x010 0x044 0 2 == 0 && !c.fw.prcLost && !c.pwr.held && !c.resetBusy 0x010

/-- K: the code length of the sequencers that the graph fires. -/
def Chip.graphK (c : Chip) (s : GSlot) : Nat := ((maskBits 4 s.img.seqMask).head?.map fun n => codeLen (c.rotCode n 0)).getD 0

/-- The nodes with their indices that a placement runs at a position. -/
def GSlot.nodesAt (s : GSlot) (x : GPlace) (q : Nat) : List (Nat × GNode) :=
  (s.img.nodes.zipIdx.filter fun n => x.pos n.2 == q).map fun n => (n.2, n.1)

/-- The sources that a placement runs on this chip. -/
def Chip.gSources (c : Chip) (s : GSlot) (x : GPlace) : List GNode :=
  ((s.nodesAt x c.chPos).map Prod.snd).filter GNode.isSrc

/-- The ports of sources. -/
def portsOf (l : List GNode) : List Nat := (l.map fun n => n.srcPort % 4).eraseDups

/-- A slot replaced, when it is there. -/
def Chip.mapSlot (c : Chip) (g : Nat) (f : GSlot → GSlot) : Chip :=
  match c.gslot g with
  | some s => c.setGslot g (some (f s))
  | none => c

/-- A frame of a slot replaced. -/
def Chip.setFrame (c : Chip) (g : Nat) (f : GFrame) : Chip :=
  c.mapSlot g fun s => { s with frames := s.frames.map fun (x : GFrame) => if x.a = f.a then f else x }

/-- A frame of a slot. -/
def Chip.gFrame (c : Chip) (g a : Nat) : Option GFrame := (c.gslot g).bind fun s => s.frames.find? fun f => f.a == a

/-! Posting (R168, R313, R315). -/

/-- The section TEMPLATES as memory holds it; none where it is poisoned (R321). -/
def readTemplates (g : Nat) (s : GSlot) : WM (Option (List Byte)) := do
  let c ← getChip
  fwLoad (c.imgPa g + s.img.tmplOff) s.img.templates.length

/-- A field of a word replaced. -/
def putField (w : DWord) (lo n v : Nat) : DWord :=
  BitVec.ofNat 64 (w.toNat - bits w.toNat lo n * 2 ^ lo + v % 2 ^ n * 2 ^ lo)

/-- The slot of a buffer that frame a uses (R311). -/
def GBuf.slotOf (b : GBuf) (depth a : Nat) (written : Bool) : Nat :=
  if b.kind = 1 then (if written then a % 2 else (a + 1) % 2) else if b.kind = 2 then 0 else a % depth

/-- A WAIT on an event counter of the graph to come to its baseline plus a count (R172, R310). -/
def Chip.waitWords (c : Chip) (g : Nat) (s : GSlot) (w0 : DWord) (e n : Nat) : List DWord :=
  [putField (putField w0 0 16 0x01) 32 32 (c.evtBase g + e), BitVec.ofNat 64 (s.base.getD e 0 + n), 0, 0]

/-- A template's command bound to frame a (R304, R311, R313, R315): NODE_ID, the handles of the slots that its operands use, the
threshold of a WAIT; before a command that writes a persistent slot the WAIT on COMMIT. -/
def Chip.bindCmd (c : Chip) (g : Nat) (s : GSlot) (n : GNode) (a : Nat) (t : Config.Posting) : List (List DWord) :=
  let w0 := putField (t.words.getD 0 0) 16 16 n.id
  let w0 := if n.kind = 0 then putField w0 0 8 0xD0 else w0
  let w1 := t.binds.foldl (fun (w : DWord) (k, b, wr) => match s.img.bufs[b]? with
    | some x => putField w (16 * k) 16 (c.gctx g * 4096 + c.descSlot0 g + x.desc + x.slotOf s.img.depth a wr)
    | none => w) (t.words.getD 1 0)
  let persists := t.binds.any fun (_, b, wr) => wr && (s.img.bufs[b]?).any fun x => x.kind == 1
  match t.wait with
  | some (e, per, fixed) => [c.waitWords g s w0 e (per * a + fixed)]
  | none => (if persists then [c.waitWords g s w0 4 a] else []) ++ [[w0, w1, t.words.getD 2 0, t.words.getD 3 0]]

/-- The commands of a node for a frame, on the queues that the placement gives this position. -/
def Chip.nodeCmds (c : Chip) (g : Nat) (s : GSlot) (bs : List Byte) (a i : Nat) (n : GNode) : List (Nat × Nat × List DWord) :=
  let x := c.gPlace g s
  (Config.template bs (x.tmpl.getD i 0) (c.bindings g)).flatMap fun t =>
    if (x.queuesAt c.chPos).contains t.queue then (c.bindCmd g s n a t).map fun ws => (i, t.queue, ws) else []

/-- The bytes of a command. -/
def cmdBytes (ws : List DWord) : List Byte := (List.range 4).flatMap fun i => leBytes 8 (ws.getD i 0).toNat

/-- Commands written to their rings in order while there is room: those left, and those posted. -/
def pushCmds (todo : List (Nat × Nat × List DWord)) : WM (List (Nat × Nat × List DWord) × List GCmd) := do
  let mut left := []
  let mut done := []
  for (i, q, ws) in todo do
    let c ← getChip
    if left.any (fun (x : Nat × Nat × List DWord) => x.2.1 == q) || decide (c.qslots q ≤ (c.qtail q - c.qhead q).toNat) then
      left := left ++ [(i, q, ws)]
    else
      let t := c.qtail q
      fwWrite (c.qctx q) (c.rd64 (pgQ q) 0x040 + 32 * (t.toNat % c.qslots q)) (cmdBytes ws)
      chipM fun c => c.gated .prc0 (pgQ q) 0x05C fun c => c.tailWrite .prc0 q (t + 1)
      done := done ++ [({ q := q, count := t, node := i } : GCmd)]
  return (left, done)

/-- What a frame still has to post, posted. -/
def pushFrame (g a : Nat) : WM Unit := do
  match (← getChip).gFrame g a with
  | none => pure ()
  | some f =>
    let (left, done) ← pushCmds f.todo
    chipM fun c => match c.gFrame g a with
      | some f => c.setFrame g { f with todo := left, cmds := f.cmds ++ done }
      | none => c

/-- A command of a frame has retired: HEAD has come past it. -/
def Chip.cmdRetired (c : Chip) (k : GCmd) : Bool :=
  let d := (c.qhead k.q - k.count).toNat
  decide (0 < d) && decide (d < 2 ^ 31)

/-! Result headers (R317). -/

/-- A source record of a frame on this chip (R314): of a port's DMD_PERIOD commands the frame's, of its sub-frames the one whose tag
bears TAP_CHIP among the fires of the frame. -/
def Chip.gRec (c : Chip) (s : GSlot) (n : GNode) (f : GFrame) : Option SrcRec :=
  let own := s.recs.filter fun r => r.port == n.srcPort % 4 && r.dmd == (n.kind == 0)
  if n.kind = 0 then own[f.a]?
  else
    let fires := f.first.find? fun x => bits (c.seqPorts x.1) (n.srcPort % 4) 1 == 1
    fires.bind fun x => own.find? fun r =>
      codeLen r.code != 0 && r.chip == n.tapChip && decide ((r.fire + 2 ^ 32 - x.2) % 2 ^ 32 < f.fired)

/-- The entry of a source in a header: no message brings a record of another chip here, so its fields are open, the same at every
writing (R320). -/
def Chip.srcEntry (c : Chip) (g : Nat) (s : GSlot) (n : GNode) (f : GFrame) : List Byte :=
  let entry := fun (code num : Nat) => leBytes 1 n.srcPos ++ leBytes 1 (n.srcPort % 4) ++ leBytes 1 code ++ [0] ++ leBytes 4 num
  match if n.srcPos = c.chPos then c.gRec s n f else none with
  | some r => entry r.code r.num
  | none =>
    let (code, num) := Config.remoteSource g s.t0 f.a n.id
    entry code num

/-- PFLAGS of a header: the local records upstream, what records of other chips add, TAINT and DEBUG. -/
def Chip.headerFlags (c : Chip) (g : Nat) (s : GSlot) (f : GFrame) (n : GNode) (up : List Nat) : Nat :=
  let own := (f.flags.filter fun r => up.contains r.1).foldl (fun m r => m ||| r.2) 0
  let own := own ||| pflags c.taint false false (f.debug || c.debugOn [pgSlot g, 0x010])
  if up.any fun i => (c.gPlace g s).pos i != 0xFF && (c.gPlace g s).pos i != c.chPos then
    own ||| Config.remoteFlags g s.t0 f.a n.id % 16
  else own

/-- The 128 bytes of a result header. -/
def Chip.headerBytes (c : Chip) (g : Nat) (s : GSlot) (f : GFrame) (i : Nat) (n : GNode) (ostatus : Nat) : List Byte :=
  let up := upstream s.img.edges s.img.nodes.length [i]
  let srcs := (s.img.sourcesOf i).filterMap fun k => s.img.nodes[k]?
  let fl := c.headerFlags g s f n up
  let es := srcs.flatMap fun x => c.srcEntry g s x f
  let payload := if ostatus = 0 then Config.payloadBytes s.img.templates ((c.gPlace g s).tmpl.getD i 0) else 0
  let h := leBytes 4 f.a ++ leBytes 4 fl ++ leBytes 1 ostatus ++ leBytes 1 srcs.length ++ leBytes 2 n.id ++ leBytes 4 f.step ++
    leBytes 4 f.skipped ++ leBytes 4 payload ++ leBytes 8 c.time.tb.toNat ++ es
  (h ++ List.replicate 128 0).take 128

/-- The result vector of a HOST_OUT node (R411). -/
def GSlot.outVector (s : GSlot) (g i : Nat) : Nat :=
  let j := (s.img.nodes.take i).countP fun n => n.kind == 4
  32 + (4 * g + j) % 32

/-- The SIGNAL of a node's event (R309, R316, R317): indices 32 and above belong to the templates. -/
def Chip.nodeSignal (c : Chip) (g : Nat) (s : GSlot) (i : Nat) : Chip :=
  if s.img.nEvt ≤ 32 then c else c.signal' (c.evtBase g + 32 + Config.nodeEvent s.img.templates i % (s.img.nEvt - 32)) 1

/-- A result header written, with the node's event and vector. -/
def writeHeader (g a i ostatus : Nat) : WM Unit := do
  let c ← getChip
  match c.gslot g, c.gFrame g a with
  | some s, some f =>
    match s.img.nodes[i]? with
    | none => pure ()
    | some n =>
      let bs := c.headerBytes g s f i n ostatus
      let b := s.img.bufs.getD n.outBuf { kind := 4, arena := 1, desc := 0, off := 0, slotBytes := 0 }
      arenaWrite g b.arena (b.off + a % s.img.depth * b.slotBytes) bs
      chipM fun c =>
        let c := c.setFrame g { f with headers := f.headers ++ [i] }
        (c.nodeSignal g s i).resultVector (s.outVector g i)
  | _, _ => pure ()

/-- The HOST_OUT nodes whose headers this chip writes: those it runs, and on the head those that run nowhere. -/
def Chip.outNodes (c : Chip) (g : Nat) (s : GSlot) : List Nat :=
  let x := c.gPlace g s
  (s.img.nodes.zipIdx.filter fun n => n.1.kind == 4 && (x.pos n.2 == c.chPos || (x.pos n.2 == 0xFF && c.isHead))).map Prod.snd

/-- LOST: the node or a source of it does not run in the active placement. -/
def Chip.outLost (c : Chip) (g : Nat) (s : GSlot) (i : Nat) : Bool :=
  let x := c.gPlace g s
  x.pos i == 0xFF || (s.img.sourcesOf i).any fun k => x.pos k == 0xFF

/-- Headers of nodes of a frame written with a status, those already written apart. -/
def headersNow (g a ostatus : Nat) (is : List Nat) : WM Unit := do
  for i in is do
    match (← getChip).gFrame g a with
    | some f => if f.headers.contains i then pure () else writeHeader g a i ostatus
    | none => pure ()

/-- The headers of a frame that runs whose node has finished: every command of it and of its local upstream nodes has
retired. -/
def headersReady (g a : Nat) : WM Unit := do
  let c ← getChip
  match c.gslot g, c.gFrame g a with
  | some s, some f =>
    if f.posted && f.run == some true && f.todo.isEmpty then
      let ready := (c.outNodes g s).filter fun i =>
        let up := upstream s.img.edges s.img.nodes.length [i]
        f.cmds.all fun k => !up.contains k.node || c.cmdRetired k
      headersNow g a 0 ready
  | _, _ => pure ()

/-- FAILED headers of every frame in flight (R321). -/
def failHeaders (g : Nat) : WM Unit := do
  let c ← getChip
  match c.gslot g with
  | some s => for f in s.frames do headersNow g f.a 3 (c.outNodes g s)
  | none => pure ()

/-- The graph fails: GFAILED, and FAILED headers. -/
def graphFail (g : Nat) : WM Unit := do
  chipM fun c => c.gFailed g
  failHeaders g

/-! Posting a frame (R315). -/

/-- RUN on this chip: LOST headers, then the commands of its nodes; a frame that has failed twice is written off. -/
def postRun (g a : Nat) : WM Unit := do
  let c ← getChip
  match c.gslot g, c.gFrame g a with
  | some s, some f =>
    match ← readTemplates g s with
    | none => graphFail g
    | some bs =>
      let outs := c.outNodes g s
      if 2 ≤ f.failed then
        chipM fun c => c.setFrame g { f with posted := true }
        headersNow g a 3 outs
      else
        let nodes := (s.nodesAt (c.gPlace g s) c.chPos).filter fun n => n.2.kind != 0 && !(n.2.kind == 4 && c.outLost g s n.1)
        let todo := nodes.flatMap fun n => c.nodeCmds g s bs a n.1 n.2
        chipM fun c => c.setFrame g { f with posted := true, todo := f.todo ++ todo }
        headersNow g a 2 (outs.filter (c.outLost g s))
        pushFrame g a
        headersReady g a
  | _, _ => pure ()

/-- The next thing that this chip has to post: what an earlier frame has left, then the next decided frame. -/
def postNext (g : Nat) : WM Unit := do
  let c ← getChip
  match c.gslot g with
  | none => pure ()
  | some s =>
    match s.frames.find? fun f => !f.todo.isEmpty && (f.posted || f.run.isNone) with
    | some f =>
      pushFrame g f.a
      headersReady g f.a
    | none =>
      match s.frames.find? fun f => f.run.isSome && !f.posted with
      | none => pure ()
      | some f =>
        if f.run = some true then postRun g f.a
        else
          chipM fun c => c.setFrame g { f with posted := true }
          headersNow g f.a 1 (c.outNodes g s)

/-- FRAME_POST: a failed slot writes its headers instead; state tensors that an abort spoiled come first (R255). -/
def execFramePost (slot : Fin 8) (s : State) : Host.Outcome State Fault Refusal :=
  s.onMem do
    let c ← getChip
    if c.prcRuns then
      if c.gstate slot = 6 then failHeaders slot
      else if c.gstate slot = 3 ∨ c.gstate slot = 4 then
        match c.gslot slot with
        | some x => rewriteStates slot x.img
        | none => pure ()
        postNext slot

/-! Retired commands (R167, R321). -/

/-- A frame's command that has ended: its record's flags, or the loss that its error reports; a frame fails once in a pass (R309,
R321). -/
def Chip.noteCmd (c : Chip) (g : Nat) (q : Nat) (r : Running) (f : GFrame) (k : GCmd) : Chip :=
  let dbg := r.debug || c.debugOn (pgQ q :: c.unitPages (unitOf q))
  let rec? := r.status != 0 || bits (r.w 0) 9 1 == 1
  let fl := if rec? then pflags c.taint r.poison r.flooded dbg else 0
  let old := (aget f.flags k.node).getD 0
  let new := r.status != 0 && !f.bad
  let c := c.setFrame g { f with flags := aput f.flags k.node (old ||| fl), failed := f.failed + new.toNat, bad := f.bad || new }
  if r.status = 0 then c
  else if r.status = 0x2C then c.lossUnit g (unitFailBit (unitOf q))
  else if r.status = 0x80 ∧ q < 64 then c.lossUnit g 0
  else if new then c.signalLoss g 512
  else c

/-- A retired command told to the slots that posted it. -/
def graphRetired (q : Nat) (r : Running) : WM Unit := do
  for (g, s) in (← getChip).prc.slots do
    if (← getChip).slotLive g && !(← getChip).fw.prcLost then
      for f in s.frames do
        match f.cmds.find? fun k => k.q == q && k.count == r.count with
        | none => pure ()
        | some k =>
          chipM fun c => c.noteCmd g q r f k
          headersReady g f.a

/-- COMMAND_RETIRE. -/
def execCommandRetire (q : Fin 128) (s : State) : Host.Outcome State Fault Refusal :=
  s.onMem do
    match ← retireCommand q with
    | none => pure ()
    | some r => graphRetired q r

/-- WAIT_RETIRE: a WAIT whose counter has reached its threshold retires (R178). -/
def execWaitRetire (q : Fin 128) (s : State) : Host.Outcome State Fault Refusal :=
  s.onMem do
    let c ← getChip
    match c.waiting q with
    | some r =>
      if c.waitMet r ∧ !c.tripped then
        retireOk q { r with finished := true }
        graphRetired q r
    | none => pure ()

/-! Votes, decisions and completion (R314, R315). -/

/-- VOTE: the first frame not voted, once RUN or ABANDON of the one before is known and its source records are written. -/
def Chip.vote (c : Chip) (g : Nat) : Chip :=
  match c.gslot g with
  | none => c
  | some s => match s.frames.find? fun f => !f.voted with
    | none => c
    | some f =>
      let srcs := c.gSources s (c.gPlace g s)
      match srcs.mapM fun n => c.gRec s n f with
      | none => c
      | some rs =>
        if srcs = [] ∨ s.decided < f.a then c
        else
          let bad := rs.any fun r => if r.dmd then r.status == 3 else r.status != 0
          (c.setFrame g { f with voted := true }).prcSignal 0 (c.evtBase g + 8 + c.chPos) (if bad then 2 else 1)

/-- VOTE. -/
def execVote (slot : Fin 8) (s : State) : Host.Outcome State Fault Refusal :=
  .next (s.onChip fun c => if c.prcRuns && c.slotLive slot then c.vote slot else c)

/-- RUN_DECISION: every source position of the active placement has voted on the first undecided frame. -/
def Chip.runDecision (c : Chip) (g : Nat) : Chip :=
  match c.gslot g with
  | none => c
  | some s =>
    let x := c.gPlace g s
    let qs := ((s.img.nodes.zipIdx.filter fun n => n.1.isSrc && x.pos n.2 != 0xFF).map fun n => x.pos n.2).eraseDups
    let new := fun q => c.gcount g s (8 + q) - (aget s.votes q).getD 0
    if s.admitted ≤ s.decided ∨ (qs.any fun q => new q == 0) then c
    else
      let votes := qs.foldl (fun l q => aput l q (c.gcount g s (8 + q))) s.votes
      let c := c.setGslot g (some { s with votes := votes })
      c.prcSignalAll (c.evtBase g + (if qs.all fun q => new q == 1 then 2 else 3)) 1

/-- RUN_DECISION. -/
def execRunDecision (slot : Fin 8) (s : State) : Host.Outcome State Fault Refusal :=
  .next (s.onChip fun c =>
    if c.prcRuns && c.isHead && (c.gstate slot == 3 || c.gstate slot == 4) then c.runDecision slot else c)

/-- DONE_SIGNAL: every command of the first frame not done has retired on this chip, and its headers are written. -/
def doneSignal (g : Nat) : WM Unit := do
  match (← getChip).gslot g with
  | none => pure ()
  | some s => match s.frames.find? fun f => !f.done with
    | none => pure ()
    | some f =>
      headersReady g f.a
      chipM fun c => match c.gFrame g f.a with
        | none => c
        | some f =>
          if f.posted && f.todo.isEmpty && f.cmds.all c.cmdRetired && (c.outNodes g s).all fun i => f.headers.contains i then
            (c.setFrame g { f with done := true }).prcSignal 0 (c.evtBase g + 16 + c.chPos) 1
          else c

/-- DONE_SIGNAL. -/
def execDoneSignal (slot : Fin 8) (s : State) : Host.Outcome State Fault Refusal :=
  s.onMem do
    let c ← getChip
    if c.prcRuns && (c.gstate slot == 3 || c.gstate slot == 4) then doneSignal slot

/-- COMMIT: every position of the active placement shows the frame done. -/
def Chip.commit (c : Chip) (g : Nat) : Chip :=
  match c.gslot g with
  | none => c
  | some s =>
    let qs := maskBits 8 (c.gPlace g s).alive
    let done := fun q => decide (s.committed + 1 ≤ c.gcount g s (16 + q) - (aget s.doneOff q).getD 0)
    if s.committed < s.decided && qs.all done then c.prcSignalAll (c.evtBase g + 4) 1 else c

/-- COMMIT. -/
def execCommit (slot : Fin 8) (s : State) : Host.Outcome State Fault Refusal :=
  .next (s.onChip fun c =>
    if c.prcRuns && c.isHead && (c.gstate slot == 3 || c.gstate slot == 4) then c.commit slot else c)

/-! The host's side of a frame (R316, R323). -/

/-- A write to IN_POST. -/
def Chip.inPost (c : Chip) (req : Requester) (g node : Nat) : Chip :=
  let bad := c.logUse (pgSlot g) 0x0F req (regAddr (pgSlot g) 0x0B0)
  match c.gslot g with
  | none => bad
  | some s =>
    let n := (aget s.inPosts node).getD 0
    let here := (s.nodesAt (c.gPlace g s) c.chPos).any fun x => x.1 == node && x.2.kind == 3
    if c.slotLive g && here && decide (n < s.committed + s.img.depth) then
      (c.setGslot g (some { s with inPosts := aput s.inPosts node (n + 1) })).nodeSignal g s node
    else bad

/-- IN_POST. -/
def execInPost (req : Requester) (slot : Fin 8) (node : BitVec 16) (s : State) : Host.Outcome State Fault Refusal :=
  .next (s.onChip fun c => c.gated req (pgSlot slot) 0x0B0 fun c => c.inPost req slot node.toNat)

/-- A write to OUT_ACK. -/
def Chip.outAck (c : Chip) (req : Requester) (g n : Nat) : Chip :=
  let acked := (c.rd (pgSlot g) 0x0AC).toNat + n
  if ((c.gslot g).map GSlot.admitted).getD 0 < acked then c.logUse (pgSlot g) 0x0E req (regAddr (pgSlot g) 0x0A8)
  else c.wr (pgSlot g) 0x0AC (word acked)

/-- OUT_ACK. -/
def execOutAck (req : Requester) (slot : Fin 8) (count : BitVec 16) (s : State) : Host.Outcome State Fault Refusal :=
  .next (s.onChip fun c => c.gated req (pgSlot slot) 0x0A8 fun c => c.outAck req slot count.toNat)

end Sys2Proof.Machine
end

