-- ==== Sys2Proof/Machine/Precentor.lean ====
section
/-! DEFINITION. Graph slots as a whole (chapter 13): the placement rule (R319), START (R310), step decisions (R312), fires
(R313), the switch of placements (R320), and the graph commands with their meetings (R308, R322, R323). -/

namespace Sys2Proof.Machine

/-! Placements (R319). -/

/-- The units of a position that are known to be lost, by a slot's reports or another's. -/
def Chip.unitsLost (c : Chip) (q : Nat) : Nat :=
  (aget c.prc.lost q).getD 0 ||| (if q = c.chPos then (c.rd 0x005 0x060).toNat else 0)

/-- A placement meets R319, as far as this chip can tell: the stall groups of other chips reach it as LOSS of CHO. -/
def Chip.placeOk (c : Chip) (x : GPlace) : Bool :=
  ((List.range 8).all fun q => (bits x.alive q 1 == 0 && x.unitsAt q == 0) || c.alivePos q) &&
  ((List.range 8).all fun q => (x.unitsAt q &&& c.unitsLost q) == 0) &&
  (((x.queuesAt c.chPos).filter fun q => decide (q < 64)).all fun q => !(c.servedSlots (q / 8)).isEmpty)

/-- The active placement: the lowest-numbered one that meets the rule. -/
def Chip.pickPlace (c : Chip) (s : GSlot) : Option Nat :=
  (List.range s.img.places.length).find? fun p => c.placeOk (s.place p)

/-! What a running graph holds (R301, R310). -/

/-- The pages whose leases a placement needs on this chip. -/
def Chip.gPages (c : Chip) (s : GSlot) (x : GPlace) : List Nat :=
  let srcs := c.gSources s x
  (x.queuesAt c.chPos).map pgQ ++ (portsOf srcs).map pgCam ++
    (if srcs.isEmpty then [] else [0x024, 0x025, 0x027] ++ if srcs.any fun n => n.kind == 0 then [0x026] else [])

/-- The other slots that run. -/
def Chip.otherLive (c : Chip) (g : Nat) : List (Nat × GSlot) := c.prc.slots.filter fun s => s.1 != g && c.slotLive s.1

/-- The leases of pages taken or renewed as PRC_0 with TIMEOUT_MS = 100. -/
def Chip.prcLeases (c : Chip) (pages : List Nat) : Chip :=
  pages.foldl (fun (c : Chip) p => c.leaseWrite .prc0 p true false false 100) c

/-- Pages released that PRC_0 holds and no other running slot needs. -/
def Chip.prcReleases (c : Chip) (g : Nat) (pages : List Nat) : Chip :=
  let kept := (c.otherLive g).flatMap fun s => c.gPages s.2 (c.gPlace s.1 s.2)
  (pages.filter fun p => !kept.contains p).foldl (fun (c : Chip) p =>
    if c.holds .prc0 p then c.leaseWrite .prc0 p false true false 0 else c) c

/-- The pieces that a placement binds on this chip. -/
def Chip.gPieces (c : Chip) (s : GSlot) (p : Nat) : List GPiece :=
  s.img.pieces.filter fun x => x.owner.getD p 0xFF == c.chPos || bits (x.repl.getD p 0) c.chPos 1 == 1

/-- The receive binding table without a slot's entries, and with those of a placement (R160). -/
def Chip.unbind (c : Chip) (g : Nat) : Chip := { c with link := { c.link with bind := c.link.bind.filter fun b => b.2.slot != g } }
def Chip.bindPieces (c : Chip) (g : Nat) (s : GSlot) (p : Nat) : Chip :=
  (c.gPieces s p).foldl (fun (c : Chip) x =>
    let d := (s.img.bufs[x.buf]?.map GBuf.desc).getD 0
    let b : Binding := {
      origin := x.origin.take x.ndim, extent := x.extent.take x.ndim, handle := c.gctx g * 4096 + c.descSlot0 g + d, slot := g }
    { c with link := { c.link with bind := aput c.link.bind (bindKey x.tid x.piece) b } }) (c.unbind g)

/-- What a slot holds given up: ports disabled, bindings removed, leases released. -/
def graphRelease (g : Nat) : WM Unit := do
  let c ← getChip
  match c.gslot g with
  | none => pure ()
  | some s =>
    let x := c.gPlace g s
    let used := (c.otherLive g).flatMap fun o => portsOf (c.gSources o.2 (c.gPlace o.1 o.2))
    for p in portsOf (c.gSources s x) do
      if !used.contains p then portDisable p
    chipM fun c => (c.unbind g).prcReleases g (c.gPages s x)

/-! START (R310). -/

/-- Codes 0x13 to 0x16, the last one only for a START of the host; 0 when none fails. -/
def Chip.startPace (c : Chip) (g : Nat) (s : GSlot) (first : Bool) : Nat :=
  let size := if c.chEn then c.fld 0x0B4 0x044 12 4 else 1
  let ns := maskBits 4 s.img.seqMask
  let lens := ns.flatMap fun n => (List.range (c.rotLen n)).map fun i => codeLen (c.rotCode n i)
  let fire := (c.rd (pgSlot g) 0x06C).toNat
  if size ≠ s.img.chapter ∨ (c.chEn ∧ c.chState ≠ chUp) then 0x13
  else if bits s.img.pacing (c.gFree g).toNat 1 = 0 ∨ (ns.any c.seqSliding) ∨ lens.eraseDups.length > 1 then 0x14
  else if fire < 4000000 ∨ c.gPeriod g < c.graphK s * fire then 0x15
  else if first && decide (c.rd64 (pgSlot g) 0x070 < c.time.tb.toNat + 1000000) then 0x16
  else 0

/-- Code 0x18: a lease, sequencer, port or piece that the placement needs here is taken. -/
def Chip.startTaken (c : Chip) (g : Nat) (s : GSlot) (p : Nat) : Bool :=
  let x := s.place p
  let srcs := c.gSources s x
  ((c.gPages s x).any fun a => c.leaseState a == 2 || (c.leaseState a == 1 && c.leaseOwner a != 3)) ||
  ((c.otherLive g).any fun o =>
    let theirs := c.gSources o.2 (c.gPlace o.1 o.2)
    (!srcs.isEmpty && !theirs.isEmpty && (s.img.seqMask &&& o.2.img.seqMask) != 0) || (portsOf srcs).any fun n => (portsOf theirs).contains n) ||
  (c.gPieces s p).any fun y => (aget c.link.bind (bindKey y.tid y.piece)).any fun b => b.slot != g && c.slotLive b.slot

/-- A slot that is LOADED starts: its code, with the state RUNNING on OK. -/
def startSlot (g t0 : Nat) (lastD : Option Nat) (first : Bool) : WM Nat := do
  let c ← getChip
  match c.gslot g with
  | none => return 0x01
  | some old =>
    let s : GSlot := { img := old.img, t0 := t0, lastD := lastD, base := (List.range old.img.nEvt).map fun e => c.evt (c.evtBase g + e) }
    let code := c.startPace g s first
    if code ≠ 0 then return code
    match c.pickPlace s with
    | none => return 0x17
    | some p =>
      if c.startTaken g s p then return 0x18
      chipM fun c =>
        let c := (c.setGslot g (some s)).setFld (pgSlot g) 0x080 8 4 p
        let c := ((c.wr (pgSlot g) 0x08C 0).wr (pgSlot g) 0x0AC 0).setBit (pgSlot g) 0x080 16 c.isHead
        (c.prcLeases (c.gPages s (s.place p))).bindPieces g s p
      initContent g s.img
      initRegs s.img
      for n in portsOf (c.gSources s (s.place p)) do
        chipM fun c => c.gated .prc0 (pgCam n) 0x00C fun c => c.portEnable .prc0 n
      chipM fun c => c.setGstate g 3
      return 0x00

/-! Step decisions (R312, R318). -/

/-- A step skipped for the cause whose counter lies at an offset. -/
def Chip.skipStep (c : Chip) (g step off : Nat) : Chip :=
  let c := ((c.count (pgSlot g) off).wr (pgSlot g) 0x0A4 (word step)).raise (pgSlot g) 1
  c.prcSignalAll (c.evtBase g + 1) 1

/-- The frames in flight fill the slots, or those that the host has not finished do (R312). -/
def GSlot.full (s : GSlot) : Bool := decide (s.committed + s.img.depth ≤ s.admitted)
def Chip.hostFull (c : Chip) (g : Nat) (s : GSlot) : Bool := decide ((c.rd (pgSlot g) 0x0AC).toNat + s.img.depth ≤ s.admitted)

/-- A FREE step: time moves to T_n − 100 µs. A step that falls during a switch counts as SKIP_SWITCH. -/
def Chip.freeStep (c : Chip) (g : Nat) (s : GSlot) : Chip :=
  let t := s.t0 + s.steps * c.gPeriod g
  let c := c.advanceTb (t - 100000)
  if c.gstate g = 5 then c.skipStep g s.steps 0x09C
  else if s.full then c.skipStep g s.steps 0x094
  else if c.hostFull g s then c.skipStep g s.steps 0x098
  else if t < c.time.tb.toNat then c.skipStep g s.steps 0x0A0
  else c.prcSignalAll (c.evtBase g) 1

/-- A LOCKSTEP step waits for its conditions; it is never skipped. -/
def Chip.lockStep (c : Chip) (g : Nat) (s : GSlot) : Chip :=
  if c.gstate g ≠ 3 ∨ s.full ∨ c.hostFull g s then c
  else
    let due := match s.lastD with
      | some d => d + c.gPeriod g
      | none => s.t0 - 100000
    let c := c.advanceTb due
    let c := c.setGslot g (some { s with lastD := some (max due c.time.tb.toNat) })
    c.prcSignalAll (c.evtBase g) 1

/-- STEP_DECISION: STOP ends admission. -/
def execStepDecision (slot : Fin 8) (s : State) : Host.Outcome State Fault Refusal :=
  .next (s.onChip fun c => match c.gslot slot with
    | some x =>
      if c.prcRuns && c.isHead && (c.gstate slot == 3 || (c.gstate slot == 5 && !x.stopping)) then
        (if c.gFree slot then c.freeStep slot x else c.lockStep slot x)
      else c
    | none => c)

/-! Fires (R196, R313). -/

/-- The fires of the sub-frames of a port that have not left the pipeline. -/
def Chip.portPending (c : Chip) (p : Nat) : List Nat :=
  let x := c.ntxPort p
  let frames := (x.cap.map Capture.frame).toList ++ x.errs.map Prod.fst ++
    ((c.ntx.inl ++ c.ntx.ready ++ c.ntx.mem.toList).map PipeItem.frame).filter fun f => f.port == p
  x.tags.map (fun t => t.1.fire) ++ (frames.filter fun f => f.tag.code != 0xFF).map fun f => f.tag.fire

/-- The two waits of R196 are over for a sequencer: sub-frames up to two fires back are through, and where the next fire is a code
boundary, by the flood restart too, the DMD records of two periods back are written for every port that demodulates: one with a
DMD_SRC node here, or whose DMD queue is enabled (DEDUCED: log entry 93). -/
def Chip.fireReady (c : Chip) (n : Nat) (dmd : List Nat) : Bool :=
  let q := c.seq n
  let ports := maskBits 4 (c.seqPorts n)
  let restart := q.restartNext || q.restart.any (firePast (fireAdd (c.fires n) 1))
  let per := if restart && q.boundFire.isSome && q.boundFire == q.gapFire then q.next - 1 else q.next
  (ports.all fun p => (c.portPending p).all fun f => !firePast (fireAdd (c.fires n) (2 ^ 32 - 1)) f) &&
  ((c.seqChip n != 0 && !restart) || decide (per < 2) ||
    (ports.filter fun p => dmd.contains p || c.enabled (pgQ (104 + p))).all fun p => (aget q.last p).any fun l => decide (per ≤ l + 2))

/-- Time moves on until FIRE_NS has passed since the last fire of a sequencer. -/
def Chip.fireGap (c : Chip) (g n : Nat) : Chip :=
  match (c.seq n).lastFire with
  | some t => c.advance (t + (c.rd (pgSlot g) 0x06C).toNat)
  | none => c

/-- The DMD_PERIOD commands of a frame put forward for posting (R313). -/
def postDmd (g : Nat) (s : GSlot) (f : GFrame) : WM Unit := do
  match ← readTemplates g s with
  | none => graphFail g
  | some bs =>
    chipM fun c =>
      let nodes := (s.nodesAt (c.gPlace g s) c.chPos).filter fun n => n.2.kind == 0
      c.setFrame g { f with start := max f.start c.time.tb.toNat, dmdPosted := true, todo := nodes.flatMap fun n => c.nodeCmds g s bs f.a n.1 n.2 }
    pushFrame g f.a

/-- GRAPH_FIRE: the next fire of the oldest frame that has fires left; its DMD_PERIOD commands go out before the first, which waits
while a full ring keeps one of them back. -/
def graphFire (g : Nat) : WM Unit := do
  let c ← getChip
  match c.gslot g with
  | none => pure ()
  | some s =>
    let x := c.gPlace g s
    let srcs := c.gSources s x
    let ns := maskBits 4 s.img.seqMask
    match s.frames.find? fun f => decide (f.fired < c.graphK s) with
    | none => pure ()
    | some f =>
      let dmd := portsOf (srcs.filter fun n => n.kind == 0)
      if !srcs.isEmpty && ns.all fun n => c.fireReady n dmd then
        if !f.dmdPosted then postDmd g s f
        match (← getChip).gFrame g f.a with
        | none => pure ()
        | some f =>
          if f.dmdPosted && (f.fired != 0 || f.todo.isEmpty) then
            chipM fun c =>
              let c := c.advanceTb (f.start + f.fired * (c.rd (pgSlot g) 0x06C).toNat)
              let c := if f.fired = 0 then ns.foldl (fun (c : Chip) n => c.fireGap g n) c else c
              let first := if f.fired = 0 then ns.map fun n => (n, fireAdd (c.fires n) 1) else f.first
              c.setFrame g { f with
                fired := f.fired + 1, first := first, start := if f.fired = 0 then max f.start c.time.tb.toNat else f.start }
            regWrite .prc0 (regAddr 0x027 0x040) (word s.img.seqMask)

/-- GRAPH_FIRE. -/
def execGraphFire (slot : Fin 8) (s : State) : Host.Outcome State Fault Refusal :=
  s.onMem do
    let c ← getChip
    if c.prcRuns && c.slotLive slot then graphFire slot

/-! The switch (R319-R321). -/

/-- SWITCH_START: the reports of the LOSS counters and of the link are taken in; where the active placement can no longer
run, or a frame has failed, the next placement is chosen. -/
def switchStart (g : Nat) : WM Unit := do
  let c ← getChip
  match c.gslot g with
  | none => pure ()
  | some s =>
    let seen := fun q => (aget s.losses q).getD 0
    let delta := fun q => c.gcount g s (24 + q) - seen q
    let ps := List.range 8
    let lost := ps.foldl (fun l q => if delta q % 512 = 0 then l else aput l q ((aget l q).getD 0 ||| delta q % 512)) c.prc.lost
    let s' := { s with losses := ps.foldl (fun l q => if delta q = 0 then l else aput l q (c.gcount g s (24 + q))) s.losses }
    chipM fun c => { c with prc := { c.prc with lost := lost } }.setGslot g (some s')
    let c ← getChip
    if (ps.any fun q => decide (512 ≤ delta q)) || !c.placeOk (c.gPlace g s') then
      match c.pickPlace s' with
      | none => graphFail g
      | some p =>
        chipM fun c =>
          let c := c.mapSlot g fun s => { s with quiets := c.gcount g s 6 }
          c.prcSignalAll (c.evtBase g + 5) (1 + p)

/-- SWITCH_START. -/
def execSwitchStart (slot : Fin 8) (s : State) : Host.Outcome State Fault Refusal :=
  s.onMem do
    let c ← getChip
    if c.prcRuns && c.isHead && (c.gstate slot == 3 || c.gstate slot == 4) then switchStart slot

/-- The CHO, VEC and LXE queues that a placement gives this chip. -/
def Chip.quietQueues (c : Chip) (x : GPlace) : List Nat := (x.queuesAt c.chPos).filter fun q => decide (q < 104) || decide (112 ≤ q)

/-- A queue rests: it is STOPPED, in ERROR or QUARANTINED. -/
def Chip.queueRests (c : Chip) (q : Nat) : Bool := c.qstate q == qStopped || c.qstate q == qError || c.qstate q == qQuarantined

/-- SWITCH_QUIESCE: ENABLE is cleared on the queues; once they rest they are reset, and QUIET is signalled. -/
def switchQuiesce (g : Nat) : WM Unit := do
  let c ← getChip
  match c.gslot g with
  | none => pure ()
  | some s =>
    if s.quiet then pure ()
    else
      let qs := c.quietQueues (c.gPlace g s)
      chipM fun c => qs.foldl (fun (c : Chip) q => c.gated .prc0 (pgQ q) 0x00C fun c => c.queueEnableTo q false) c
      if qs.all (← getChip).queueRests then
        for q in qs do
          if (← getChip).qstate q ≠ qQuarantined then queueSoftReset q
        chipM fun c => (c.mapSlot g fun s => { s with quiet := true }).prcSignal 0 (c.evtBase g + 6) 1

/-- SWITCH_QUIESCE. -/
def execSwitchQuiesce (slot : Fin 8) (s : State) : Host.Outcome State Fault Refusal :=
  s.onMem do
    let c ← getChip
    if c.prcRuns && c.gstate slot == 5 then switchQuiesce slot

/-- SWITCH_RESUME: every surviving position is quiet. DONE counts again from c. -/
def Chip.switchResume (c : Chip) (g : Nat) : Chip :=
  match c.gslot g with
  | none => c
  | some s =>
    let alive := (List.range 8).countP c.alivePos
    if c.gcount g s 7 = s.resumes ∧ s.quiets + alive ≤ c.gcount g s 6 then
      let off := (List.range 8).map fun q => (q, c.gcount g s (16 + q) - s.committed)
      (c.setGslot g (some { s with doneOff := off })).prcSignalAll (c.evtBase g + 7) 1
    else c

/-- SWITCH_RESUME. -/
def execSwitchResume (slot : Fin 8) (s : State) : Host.Outcome State Fault Refusal :=
  .next (s.onChip fun c => if c.prcRuns && c.isHead && c.gstate slot == 5 then c.switchResume slot else c)

/-- A frame posted again: what its DMD_SRC nodes posted stands, with their records (R320: source and DMD activity continues). -/
def GSlot.repost (s : GSlot) (f : GFrame) : GFrame :=
  let src := fun i => (s.img.nodes[i]?).any fun n => n.kind == 0
  { f with posted := false, todo := f.todo.filter fun t => src t.1, cmds := f.cmds.filter fun k => src k.node, headers := [], done := false,
           flags := f.flags.filter fun x => src x.1, bad := false }

/-- SWITCH_REPOST: the leases and bindings of the new placement, and the frames from c on posted again. -/
def switchRepost (g : Nat) : WM Unit := do
  let c ← getChip
  match c.gslot g with
  | none => pure ()
  | some s =>
    match s.newPlace with
    | none => pure ()
    | some p =>
      if c.gcount g s 7 = s.resumes then pure ()
      else
        let old := c.gPages s (c.gPlace g s)
        let pages := c.gPages s (s.place p)
        let fresh := s.frames.map s.repost
        chipM fun c =>
          let c := c.setGslot g (some { s with newPlace := none, stopping := false, quiet := false, frames := fresh })
          let c := (c.setFld (pgSlot g) 0x080 8 4 p).setGstate g (if s.stopping then 4 else 3)
          let c := ((c.prcReleases g (old.filter fun a => !pages.contains a)).prcLeases pages).bindPieces g s p
          (c.quietQueues (s.place p)).foldl (fun (c : Chip) q => c.gated .prc0 (pgQ q) 0x00C fun c => c.queueEnableTo q true) c
        for _ in fresh do postNext g
        chipM fun c =>
          let c := c.raise (pgSlot g) 3
          if c.isHead then (c.count (pgSlot g) 0x0B4).count (pgSlot g) 0x0B8 fresh.length else c

/-- SWITCH_REPOST. -/
def execSwitchRepost (slot : Fin 8) (s : State) : Host.Outcome State Fault Refusal :=
  s.onMem do
    let c ← getChip
    if c.prcRuns && c.gstate slot == 5 then switchRepost slot

/-! The graph commands (R308, R310, R322, R323). -/

/-- LOAD: the slot is LOADING. -/
def Chip.graphLoad (c : Chip) (g : Nat) : Chip :=
  if c.gstate g = 0 then (c.setGstate g 1).wr (pgSlot g) 0x07C 0x80000000 else c.gEnd g 0x01

/-- START. -/
def graphStart (g : Nat) : WM Unit := do
  let c ← getChip
  if c.gstate g ≠ 2 then chipM fun c => c.gEnd g 0x01
  else
    let code ← startSlot g (c.rd64 (pgSlot g) 0x070) none true
    chipM fun c => c.gEnd g code

/-- STOP: a switch under way is completed first. -/
def Chip.graphStop (c : Chip) (g : Nat) : Chip :=
  if c.gstate g = 3 then (c.setGstate g 4).wr (pgSlot g) 0x07C 0
  else if c.gstate g = 5 then (c.mapSlot g fun s => { s with stopping := true }).wr (pgSlot g) 0x07C 0
  else c.gEnd g 0x01

/-- The slot returns to LOADED with nothing of its run. -/
def Chip.graphLoaded (c : Chip) (g : Nat) : Chip := (c.mapSlot g fun s => { img := s.img }).setGstate g 2

/-- ABORT. -/
def graphAbort (g : Nat) : WM Unit := do
  let c ← getChip
  match c.gslot g with
  | some s =>
    if c.slotLive g then
      for q in (c.gPlace g s).queuesAt c.chPos do
        if (← getChip).qstate q ≠ qQuarantined then queueSoftReset q
      graphRelease g
      chipM fun c => (c.graphLoaded g).gEnd g 0x00
    else chipM fun c => c.gEnd g 0x01
  | none => chipM fun c => c.gEnd g 0x01

/-- UNLOAD: the slot's descriptors are destroyed. -/
def graphUnload (g : Nat) : WM Unit := do
  let c ← getChip
  if c.gstate g = 2 ∨ c.gstate g = 6 then
    graphRelease g
    chipM fun c =>
      let n := ((c.gslot g).map fun s => s.img.nDesc).getD 0
      let hs := (List.range n).map fun i => c.gctx g * 4096 + c.descSlot0 g + i
      let c := hs.foldl (fun (c : Chip) h => if (aget c.desc.slots h).any fun d => d.owner == 3 then c.emptySlot h else c) c
      ((c.setGslot g none).setGstate g 0).gEnd g 0x00
  else chipM fun c => c.gEnd g 0x01

/-- A write to GCMD: bits LOAD, START, STOP, ABORT and UNLOAD from 0 up. -/
def gcmd (req : Requester) (g v : Nat) : WM Unit := do
  let c ← getChip
  let v := v % 32
  if v = 0 then pure ()
  else if c.bit (pgSlot g) 0x07C 31 then chipM fun c => c.logUse (pgSlot g) 0x0D req (regAddr (pgSlot g) 0x078)
  else if v = 1 then chipM fun c => c.graphLoad g
  else if v = 2 then graphStart g
  else if v = 4 then chipM fun c => c.graphStop g
  else if v = 8 then graphAbort g
  else if v = 16 then graphUnload g
  else chipM fun c => c.gEnd g 0x01

/-- GRAPH_LOAD. -/
def execGraphLoad (req : Requester) (slot : Fin 8) (s : State) : Host.Outcome State Fault Refusal :=
  s.onMem (gatedM req (pgSlot slot) 0x078 (gcmd req slot 1))

/-- GRAPH_START. -/
def execGraphStart (req : Requester) (slot : Fin 8) (s : State) : Host.Outcome State Fault Refusal :=
  s.onMem (gatedM req (pgSlot slot) 0x078 (gcmd req slot 2))

/-- GRAPH_STOP. -/
def execGraphStop (req : Requester) (slot : Fin 8) (s : State) : Host.Outcome State Fault Refusal :=
  s.onMem (gatedM req (pgSlot slot) 0x078 (gcmd req slot 4))

/-- GRAPH_ABORT. -/
def execGraphAbort (req : Requester) (slot : Fin 8) (s : State) : Host.Outcome State Fault Refusal :=
  s.onMem (gatedM req (pgSlot slot) 0x078 (gcmd req slot 8))

/-- UNLOAD. -/
def execUnload (req : Requester) (slot : Fin 8) (s : State) : Host.Outcome State Fault Refusal :=
  s.onMem (gatedM req (pgSlot slot) 0x078 (gcmd req slot 16))

/-- The steps of a FREE graph between its last frame's commit and the first step of the slot that follows it: the number of
them. -/
def Chip.stepsBetween (c : Chip) (g : Nat) (s : GSlot) : Nat :=
  let next := s.t0 + s.steps * c.gPeriod g
  if c.gFree g && c.gPeriod g != 0 then (c.time.tb.toNat + 100000 - next + c.gPeriod g - 1) / c.gPeriod g else 0

/-- NEXT_EN: slot NEXT_SLOT follows (R322). -/
def graphChain (g : Nat) (s : GSlot) : WM Unit := do
  let c ← getChip
  let h := c.fld (pgSlot g) 0x064 8 3
  if c.bit (pgSlot g) 0x064 11 then
    match c.gslot h with
    | none => chipM fun c => c.gEnd g 0x01
    | some x =>
      if c.gstate h ≠ 2 ∨ x.img.seqMask ≠ s.img.seqMask ∨ c.gPeriod h ≠ c.gPeriod g then chipM fun c => c.gEnd g 0x01
      else
        let n := c.stepsBetween g s
        if n ≠ 0 then
          chipM fun c => (((c.count (pgSlot g) 0x09C n).count (pgSlot g) 0x084 n).wr (pgSlot g) 0x0A4 (word (s.steps + n - 1))).raise (pgSlot g) 1
        let code ← startSlot h (s.t0 + (s.steps + n) * c.gPeriod g) s.lastD false
        chipM fun c => c.gEnd h code

/-- STOP_COMPLETE: every admitted frame is committed. -/
def execStopComplete (slot : Fin 8) (s : State) : Host.Outcome State Fault Refusal :=
  s.onMem do
    let c ← getChip
    match c.gslot slot with
    | none => pure ()
    | some x =>
      if c.prcRuns && c.gstate slot == 4 && x.committed == x.admitted then
        graphRelease slot
        chipM fun c => (c.graphLoaded slot).gEnd slot 0x00
        graphChain slot x

end Sys2Proof.Machine
end

