-- ==== Sys2Proof/Machine/Tick.lean ====
section
/-! DEFINITION. The 1 ms control tick (R33): the Verger's checks (R83, R471, R473), the watchdog (R478), the renewal of the
Precentor's leases (R301), the Sacristan firmware's policies (R480) and its part when a Precentor stops (R483), and the end
of resets of levels 1 to 3 (R475, R476, R479). -/

namespace Sys2Proof.Machine

/-! Resets (R475). -/

/-- A reset begun before this tick is completed: level 1 reloads the Sacristan, level 2 brings the data plane up again, level
3 boots. -/
def endReset : WM Unit := do
  let n := (← getChip).vrg.resetting
  if n ≠ 0 then
    chipM fun c => { c with vrg := { c.vrg with resetting := 0 } }
    if n = 3 then bootStart
    else
      if (← getChip).pwr.sac.isNone then reloadSac
      if n = 2 ∧ (← getChip).pwr.sac.isSome then reinitData

/-! The Verger (R83, R471, R473). -/

/-- The pages that the graphs hold renewed, a failed one's too until it is unloaded (R301). -/
def Chip.prcRenew (c : Chip) : Chip :=
  if !c.prcRuns then c
  else
    let pages := (c.prc.slots.filter fun s => decide (3 ≤ c.gstate s.1)).flatMap fun s => c.gPages s.2 (c.gPlace s.1 s.2)
    (pages.filter (c.holds .prc0)).foldl (fun (c : Chip) p => c.leaseWrite .prc0 p false false true 100) c

/-- Every lease whose timeout has passed revoked: pages, bank locks and credits. -/
def leaseTimeouts : WM Unit := do
  pageTimeouts (← getChip).leasePages
  let c ← getChip
  for sel in (((c.vrg.leases.map Prod.fst).filter fun n => decide (0x1000 ≤ n) && decide (n < 0x1044)).filter c.timedOut) do revoke sel 0x50

/-- Quarantines that may end at this tick end; a page whose block has not reported by the tenth tick is STUCK. -/
def Chip.quarChecks (c : Chip) : Chip :=
  let old := (c.vrg.leases.map Prod.fst).filter fun n => c.selState n == 2 && decide (c.quarTick n ≤ c.time.now)
  old.foldl (fun (c : Chip) n =>
    if c.quarFree n then c.quarRelease n
    else if !c.quarReported n && decide (c.quarTick n + 9000000 ≤ c.time.now) then c.quarStuck n
    else c) c

/-! Policies (R480). -/

/-- A pending change recorded on VRG page 0x005. The code of a bank's retirement is open among those of the class. -/
def Chip.unitRecord (c : Chip) (code : Nat) : Chip := (c.raise 0x005 1).logErr 0x005 clsUnit code 0 0

/-- A Cloister bank joins the retirement set. -/
def Chip.retireBank (c : Chip) (b : Nat) : Chip :=
  if c.fw.banks.contains b then c
  else if 4 ≤ c.fw.banks.length then c.unitRecord 0x64
  else
    let (k, c) := c.draw
    { c with fw := { c.fw with banks := c.fw.banks ++ [b] } }.unitRecord (0x60 + Config.choice k % 6)

/-- The first LP5X channel to fail is to be retired. -/
def Chip.retireChannel (c : Chip) (ch : Nat) : Chip :=
  if c.fw.channel.isSome then c else { c with fw := { c.fw with channel := some ch } }.unitRecord 0x62

/-- One more error of a kind: how many have come within a time, this one among them. -/
def Chip.errorSeen (c : Chip) (key t span : Nat) : Nat × Chip :=
  let l := (((aget c.fw.errors key).getD []).filter fun x => decide (t < x + span)) ++ [t]
  (l.length, { c with fw := { c.fw with errors := aput c.fw.errors key l } })

/-- The unit whose line buffers a page covers. -/
def parityUnit (p : Nat) : Option Nat :=
  if 0x030 ≤ p ∧ p ≤ 0x034 then some (p - 0x02F) else if p = 0x024 then some 8 else none

/-- A journal entry taken note of. -/
def noteEntry (e : JrnEntry) : WM Unit := do
  let code := bits e.lo.toNat 20 8
  let t := e.tb.toNat
  if bits e.lo.toNat 28 4 = clsEcc then
    if code = 0x31 then
      if e.page = 0x071 then
        chipM fun c =>
          let b := bankOf (c.clsCell (clsBase + 8 * bits e.hi.toNat 0 22))
          let (n, c) := c.errorSeen b t 60000000000
          if 2 ≤ n then c.retireBank b else c
      else if e.page = 0x088 then
        chipM fun c =>
          let ch := c.lpChannel (lpBase + 32 * e.hi.toNat)
          let (n, c) := c.errorSeen (256 + ch) t 60000000000
          if 2 ≤ n then c.retireChannel ch else c
      else if 0x040 ≤ e.page ∧ e.page < 0x060 then chipM fun c => c.retireReq (word (2 ^ (e.page - 0x040)))
    else if code = 0x33 then
      match parityUnit e.page with
      | none => pure ()
      | some u =>
        let n ← modifyGet fun w => w.useChip fun c => c.errorSeen (512 + u) t 1000000000
        if 16 ≤ n then unitFail (2 ^ u)

/-- The journal entries that are new to the firmware. -/
def noteJournal : WM Unit := do
  let c ← getChip
  for e in c.vrg.journal.drop c.fw.noted do noteEntry e
  chipM fun c => { c with fw := { c.fw with noted := c.vrg.journal.length } }

/-- Stalls marked SUSPECT: the first time within 1 h the mark is cleared 1 s later, the second time the stall is retired. -/
def Chip.suspectPolicy (c : Chip) : Chip :=
  let now := c.time.now
  let c := (List.range 32).foldl (fun (c : Chip) s =>
    if !c.suspect s || (aget c.fw.clears s).isSome || c.stallRetired s || c.bit 0x060 0x048 s then c
    else
      let again := (aget c.fw.suspects s).any fun t => decide (now < t + 3600000000000)
      let c := { c with fw := { c.fw with suspects := aput c.fw.suspects s now } }
      if again then c.retireReq (word (2 ^ s)) else { c with fw := { c.fw with clears := aput c.fw.clears s (now + 1000000000) } }) c
  let due := c.fw.clears.filter fun x => decide (x.2 ≤ now)
  due.foldl (fun (c : Chip) x => { c.suspectClr x.1 with fw := { c.fw with clears := adel c.fw.clears x.1 } }) c

/-- The key under which the firmware marks that it has sampled the counters before. -/
def sampledKey : Nat := 0x10000

/-- BANK_CE sampled: a rise of 256 within 1 s retires the bank. A counter seen first by a firmware that has sampled before
has risen from 0. -/
def Chip.bankPolicy (c : Chip) : Chip :=
  let now := c.time.now
  let before := (aget c.fw.samples sampledKey).isSome
  let c := (List.range 64).foldl (fun (c : Chip) b =>
    let v := c.fld 0x071 (0x080 + 4 * b) 0 16
    if v = 0 then c
    else
      let old := (aget c.fw.samples b).getD (if before then [(now, 0)] else [(now, v)])
      let l := old.filter fun x => decide (now ≤ x.1 + 1000000000)
      let first := (l.head?.map Prod.snd).getD v
      let c := { c with fw := { c.fw with samples := aput c.fw.samples b (l ++ [(now, v)]) } }
      if first + 256 ≤ v then c.retireBank b else c) c
  { c with fw := { c.fw with samples := aput c.fw.samples sampledKey [] } }

/-! A Precentor that stopped (R483). -/

/-- The queue pages of the Precentor are out of quarantine. -/
def Chip.prcQuarOver (c : Chip) : Bool :=
  (List.range 128).all fun q => !(decide (2 ≤ c.selState (pgQ q)) && ((c.leaseAux (pgQ q)).owner == 3 || (c.leaseAux (pgQ q)).owner == 4))

/-- The Sacristan firmware reports the loss of every unit through the lowest-numbered free LXE queue, for which it waits, or ends
the chapter. -/
def Chip.prcStopped (c : Chip) : Chip :=
  let told := { c with fw := { c.fw with prcTold := true } }
  if c.isHead then (if c.chEn then (told.setBit 0x0B4 0x040 0 false).chapterStop else told.failGraphs)
  else match (unitQueues .lxe).find? fun q => c.leaseState (pgQ q) == 0 with
    | none => c
    | some q =>
      (c.prc.slots.filter fun s => c.slotLive s.1).foldl (fun (c : Chip) s => c.signalLoss s.1 0x1FF)
        (told.leaseWrite .sac (pgQ q) true false false 100)

/-- The Sacristan firmware's work at a tick. -/
def sacTick : WM Unit := do
  if (← getChip).mbReady then
    noteJournal
    chipM fun c => (c.suspectPolicy).bankPolicy
    chipM fun c => ((c.mbExpire).boundaryExpire).lampLoop
    chipM fun c => if c.fw.prcLost && !c.fw.prcTold && c.prcQuarOver then c.prcStopped else c

/-- CONTROL_TICK: time moves to the next tick. -/
def controlTick : WM Unit := do
  chipM fun c => c.advance (tickAt (c.time.now + 1))
  if (← getChip).pwr.porstN then
    endReset
    chipM Chip.prcRenew
    leaseTimeouts
    chipM Chip.quarChecks
    chipM Chip.linkTick
    unpark
    let c ← getChip
    if c.bit 0x008 0x100 31 ∧ c.wdtDue ≤ c.time.now then wdtFire
    sacTick

/-- CONTROL_TICK. -/
def execControlTick (s : State) : Host.Outcome State Fault Refusal := s.onMem controlTick

end Sys2Proof.Machine
end

