-- ==== Sys2Proof/Machine/Bus.lean ====
section
/-! DEFINITION. Register writes at large (R64-R76) and the accesses of the Sacristan and Precentor cores (R85, R87, R112,
R431, R446). -/

namespace Sys2Proof.Machine

/-! Register writes. -/

/-- A write that has passed the checks, the command registers of the graph slots among them. -/
def regTakeAll (req : Requester) (p off : Nat) (v : Word) : WM Unit :=
  if 0x018 ≤ p ∧ p ≤ 0x01F ∧ off = 0x078 then gcmd req (p - 0x018) v.toNat
  else if 0x018 ≤ p ∧ p ≤ 0x01F ∧ off = 0x0A8 then chipM fun c => c.outAck req (p - 0x018) (bits v.toNat 0 16)
  else if 0x018 ≤ p ∧ p ≤ 0x01F ∧ off = 0x0B0 then chipM fun c => c.inPost req (p - 0x018) (bits v.toNat 0 16)
  else regTake req p off v

/-- A register-bus write. -/
def regWriteAll (req : Requester) (addr : Nat) (size : RegSize) (v : Word) : WM Unit :=
  regWriteWith (regTakeAll req (addr / 0x1000) (addr % 0x1000 / 4 * 4) v) req addr size

/-- REGISTER_WRITE. Eight bytes of the host are the LO word's access followed by the HI word's (R64). -/
def execRegisterWrite (req : Requester) (addr : BitVec 24) (size : RegSize) (value : Word) (s : State) :
    Host.Outcome State Fault Refusal :=
  s.onMem (match size with
    | .b8 hi => do
      regWriteAll req addr.toNat .b4 value
      regWriteAll req (addr.toNat + 4) .b4 hi
    | size => regWriteAll req addr.toNat size value)

/-- HI_WRITE: a four-byte write to the HI word of a writable pair. -/
def execHiWrite (req : Requester) (addr : BitVec 24) (value : Word) (s : State) : Host.Outcome State Fault Refusal :=
  s.onMem (if pairHi (addr.toNat / 0x1000) (addr.toNat % 0x1000) = some true then regWriteAll req addr.toNat .b4 value else pure ())

/-! Core accesses (R87). -/

/-- The mailbox window at the top of Sacristan memory (R431, R446): the request, the response and the POST word. -/
def mbWindow : Nat := 0x4103FF00

/-- A byte of Sacristan memory as a core reads it: the window shows MB_REQ and MB_RSP. -/
def Work.coreByte (w : Work) (pa : Nat) : Byte :=
  if mbWindow ≤ pa ∧ pa < mbWindow + 0x80 then
    BitVec.ofNat 8 (w.chip.fld 0x008 (0x040 + (pa - mbWindow) / 4 * 4) (8 * (pa % 4)) 8)
  else w.byteAt pa

/-- Bytes stored by a core in a memory of the cores; a store of 1 to POST answers the mailbox. -/
def coreStore (pa : Nat) (bs : List Byte) : WM Unit := do
  for (b, i) in bs.zipIdx do
    let a := pa + i
    if mbWindow ≤ a ∧ a < mbWindow + 0x80 then
      chipM fun c => c.setFld 0x008 (0x040 + (a - mbWindow) / 4 * 4) (8 * (a % 4)) 8 b.toNat
    else emit (.byte a b)
  if pa = mbWindow + 0x80 ∧ bs.take 4 = [1, 0, 0, 0] then chipM Chip.mbPost

/-- A core's access to the register pages: one access of the register bus, or two for a pair. -/
def coreRegs (core : CoreId) (store : Bool) (pa : Nat) (size : AccSize) (v : DWord) : WM Unit := do
  let req := coreReq core
  if store then
    match size with
    | .b8 =>
      regWriteAll req pa .b4 (v.setWidth 32)
      regWriteAll req (pa + 4) .b4 ((v >>> 32).setWidth 32)
    | .b4 => regWriteAll req pa .b4 (v.setWidth 32)
    | .b2 => regWriteAll req pa .b2 (v.setWidth 32)
    | .b1 => regWriteAll req pa .b1 (v.setWidth 32)
    chipM fun c => c.reply (coreKey core) .none
  else
    chipM fun c =>
      let (v, c) := c.busLoad req pa size
      c.reply (coreKey core) (.data v)

/-- CORE_ACCESS: a load of a poisoned word takes an access fault. -/
def coreAccess (core : CoreId) (kind : AccKind) (pa : Nat) (size : AccSize) (v : DWord) : WM Unit := do
  let c ← getChip
  let n := size.bytes
  let store := kind == .store
  if !c.pmpAllows core store pa n then chipM fun c => c.reply (coreKey core) .accessFault
  else if !c.coreAllowed store pa n then chipM fun c => c.coreFault core pa
  else match target pa with
    | .regs => coreRegs core store pa size v
    | .cls | .lp5x =>
      if store then
        busStore pa (leBytes n v.toNat)
        chipM fun c => c.reply (coreKey core) .none
      else
        let bs ← readPhys 0xFF pa n
        chipM fun c => c.reply (coreKey core) (match leNat bs with
          | some x => .data (BitVec.ofNat 64 x)
          | none => .accessFault)
    | _ =>
      if store then
        coreStore pa (leBytes n v.toNat)
        chipM fun c => c.reply (coreKey core) .none
      else
        let w ← get
        let bs := (List.range n).map fun i => some (w.coreByte (pa + i))
        chipM fun c => c.reply (coreKey core) (.data (BitVec.ofNat 64 ((leNat bs).getD 0)))

/-- CORE_ACCESS. -/
def execCoreAccess (core : CoreId) (kind : AccKind) (pa : BitVec 48) (size : AccSize) (value : DWord) (s : State) :
    Host.Outcome State Fault Refusal :=
  s.onMem (coreAccess core kind pa.toNat size value)

end Sys2Proof.Machine
end

