-- ==== Sys2Proof/Machine/Image.lean ====
section
/-! DEFINITION. What the vision engines share (R235-R239, R254-R257, R259): image operands, samples under the EDGE
rule, line-buffer parity, the checks of their operands, and their counters. -/

namespace Sys2Proof.Machine

/-- An image as an engine holds it: rows of planes of samples, none where a sample is poisoned; the EDGE rule and
the pad value of its descriptor, and whether −32768 is invalid in it (R237, R238). -/
structure Img where
  w : Nat
  h : Nat
  planes : Nat
  edge : Nat
  pad : Int
  inv : Bool
  data : List (List (List (Option Int)))
deriving DecidableEq, Repr

/-- The sample at a position of a plane (R238). EDGE = ERROR is checked before a sample outside is asked for. -/
def Img.at (i : Img) (pl : Nat) (x y : Int) : Option Int :=
  let get := fun (x y : Nat) => ((i.data.getD pl []).getD y []).getD x none
  if 0 ≤ x ∧ x < i.w ∧ 0 ≤ y ∧ y < i.h then get x.toNat y.toNat
  else if i.edge = 1 then some i.pad
  else get (max 0 (min x ((i.w : Int) - 1))).toNat (max 0 (min y ((i.h : Int) - 1))).toNat

/-- A sample holds the invalid value (R237). -/
def Img.invalid (i : Img) (v : Int) : Bool := i.inv && v == -32768

/-- The planes of an operand. -/
def Opd.planes (o : Opd) : Nat := if o.ndim = 3 then o.size 2 else 1

/-- The 8-byte words of a vector and the lanes of one. -/
def vecWords (t : Nat) : Nat := vecBytes t / 8
def wordLanes (t : Nat) : Nat := 64 / typeBits t

/-- Line-buffer parity errors of a slot's image (R256): word indices over its vectors in dense order. -/
def parityOf (parity : List (Nat × Nat)) (slot : Nat) (o : Opd) : List Nat :=
  (parity.filter fun p => p.1 == slot && decide (p.2 < o.d.vectors * vecWords o.d.type)).map Prod.snd

/-- The lanes of failing words treated as poisoned (R256). -/
def poisonWords (t : Nat) (bad : List Nat) (lin : Nat) (v : Vec) : Vec :=
  { v with lanes := v.lanes.zipIdx.map fun (x, l) => if bad.contains (lin * vecWords t + l / wordLanes t) then none else x }

/-- Line-buffer parity errors counted and reported on an engine's page (R256, R467). -/
def Chip.lbParity (c : Chip) (p n : Nat) : Chip :=
  (List.range n).foldl (fun c _ => ((c.count p 0x04C).raise p 0).logErr p clsEcc 0x33 0 0) c

/-- The image of an operand whose vectors are at hand. -/
def Img.from (o : Opd) (m : Loaded) : Img :=
  let data := (List.range o.planes).map fun (pl : Nat) => (List.range (o.size 1)).map fun (y : Nat) => (List.range (o.size 0)).map fun (x : Nat) =>
    (elemAt o m o.d.type [(x : Int), (y : Int), (pl : Int)]).v
  { w := o.size 0, h := o.size 1, planes := o.planes, edge := o.d.edge, pad := o.d.padValue, inv := o.d.type == 3, data := data }

/-- An image loaded whole. -/
def loadImg (page : Nat) (parity : List (Nat × Nat)) (slot : Nat) (o : Opd) : EM Img := do
  let bad := parityOf parity slot o
  let m ← (List.range o.d.vectors).mapM fun l => do return (l, poisonWords o.d.type bad l (← loadVec o l))
  modify fun w => w.onChip fun c => c.lbParity page bad.length
  return Img.from o m

/-- The lanes of a vector as memory holds them after a store: a poisoned sample has poisoned its whole granule (R45). -/
def storedLanes (o : Opd) (lin : Nat) (w : Work) : List (Option Int) :=
  let bs := (bursts ((o.d.base : Int) + o.d.offset lin * vecBytes o.d.type).toNat (vecBytes o.d.type)).flatMap fun (a, l) =>
    match (translate o.ctx 1 a w).1 with
    | .ok pa => (readPhys o.src pa l w).1
    | .error _ => List.replicate l none
  decodeLanes o.d.type bs

/-- An image as a store has left it. -/
def storedImg (o : Opd) : EM Img := do
  let w ← get
  return Img.from o ((List.range o.d.vectors).map fun l => (l, { lanes := storedLanes o l w, e := some 0 }))

/-- An image from computed samples, with the EDGE rule of the descriptor it is stored through. -/
def Img.make (o : Opd) (f : Nat → Nat → Nat → Option Int) : Img :=
  { w := o.size 0, h := o.size 1, planes := o.planes, edge := o.d.edge, pad := o.d.padValue, inv := o.d.type == 3,
    data := (List.range o.planes).map fun pl => (List.range (o.size 1)).map fun y => (List.range (o.size 0)).map fun x => f pl x y }

/-- The range of a valid sample of a type (R237). -/
def validRange (t : Nat) : Int × Int := if t = 3 then (-32767, 32767) else (typeMin t, typeMax t)

/-- A view index's coordinates. -/
def vx (v : List Nat) : Nat := v.getD 0 0
def vy (v : List Nat) : Nat := v.getD 1 0
def vp (v : List Nat) : Nat := v.getD 2 0

/-! Checks (R236, R254, R259, R274). -/

/-- The element types of images: UINT8, INT16, UINT16. -/
def imgTypes : List Nat := [2, 3, 4]

/-- An operand's type is not allowed, or it is block-scaled or compressed (VEC_TYPE). -/
def vecTypeBad (o : Opd) (ts : List Nat) : Bool := !ts.contains o.d.type || o.d.scaleEn || o.d.comp != 0

/-- An image size lies outside R236 or R259 (VEC_SIZE). -/
def vecSizeBad (lo : Nat) (o : Opd) : Bool :=
  decide (o.size 0 < lo) || decide (4096 < o.size 0) || decide (o.size 1 < lo) || decide (65536 < o.size 1)

/-- NDIM, VDIM or the plane count breaks R236 (VEC_LAYOUT). -/
def imgLayoutBad (o : Opd) : Bool := o.d.vdim != 0 || !(o.ndim == 2 || (o.ndim == 3 && decide (o.size 2 ≤ 4)))

/-- An operand has another rank or VDIM. -/
def rankBad (o : Opd) (n : Nat) : Bool := o.ndim != n || o.d.vdim != 0

/-- The XFORM checks of a vision command (R162): the operand types are judged by VEC_TYPE. -/
def vecXforms (r : Running) (os : List (Nat × PortUse × Opd)) : EM Unit :=
  checkCodes (os.map fun (i, u, o) => xformOf r i o.d u none false)

/-- An XFORM is not 0 (VEC_LAYOUT). -/
def xformsSet (r : Running) (slots : List Nat) : Bool := slots.any fun i => r.xform i != 0

/-- An optional slot's operand (R263, R268). -/
def optOpd (q : Nat) (r : Running) (i : Nat) : EM (Option Opd) := return (← get).chip.opd q r i

/-- The counters of a command that ran (R239, R257, R260). BUSY_CYCLES takes the command time of the tables, without
the start overhead and the stalls, which are timing. -/
def vecCounts (page cycles px a b : Nat) : EM Unit :=
  modify fun w => w.onChip fun c => (((c.count page 0x040 cycles).count page 0x044 px).count page 0x050 a).count page 0x054 b

end Sys2Proof.Machine
end

