-- ==== Sys2Proof/Machine/Feature.lean ====
section
/-! DEFINITION. FTR (R247-R254): the segment test and score, suppression, bucketing, descriptors, the feature list
and the per-cell threshold loop. -/

namespace Sys2Proof.Machine

/-- The circle of R247. -/
def circle16 : List (Int × Int) :=
  [(0, -3), (1, -3), (2, -2), (3, -1), (3, 0), (3, 1), (2, 2), (1, 3), (0, 3), (-1, 3), (-2, 2), (-3, 1), (-3, 0), (-3, -1),
   (-2, -2), (-1, -3)]

/-- At least n cyclically consecutive flags of 16 hold. -/
def arcOf (n : Nat) (fs : List Bool) : Bool :=
  (List.range 16).any fun k => (List.range n).all fun i => fs.getD ((k + i) % 16) false

/-- A sample, where a poisoned one counts as invalid. -/
def Img.valid (g : Img) (x y : Int) : Option Int := (g.at 0 x y).filter fun v => !g.invalid v

/-- The score of a pixel under a threshold (R247). -/
def cornerScore (g : Img) (arc : Nat) (desc : Bool) (t : Int) (x y : Nat) : Nat :=
  let px : Int := x
  let py : Int := y
  match g.valid px py, circle16.mapM fun o => g.valid (px + o.1) (py + o.2) with
  | some p, some cs =>
    let window := (List.range 33).all fun j => (List.range 33).all fun i => (g.valid (px + i - 16) (py + j - 16)).isSome
    let bright := cs.map fun c => decide (p + t < c)
    let dark := cs.map fun c => decide (c + t < p)
    if (desc && !window) || !(arcOf arc bright || arcOf arc dark) then 0
    else
      let sb := (cs.map fun c => if p + t < c then c - p - t else 0).sum
      let sd := (cs.map fun c => if c + t < p then p - t - c else 0).sum
      (max sb sd).toNat
  | _, _ => 0

/-- A corner: cell, score, position, rank in its cell. -/
structure Corner where
  cell : Nat
  score : Nat
  x : Nat
  y : Nat
  rank : Nat := 0
deriving DecidableEq, Repr

/-- The grid of R249: columns and rows of cells. -/
def gridOf (param : Nat) (a : Opd) : Nat × Nat :=
  ((a.size 0 - 1) / 2 ^ bits param 12 4 + 1, (a.size 1 - 1) / 2 ^ bits param 16 4 + 1)

/-- The cell of a pixel (R249). -/
def cellOfPx (param gx x y : Nat) : Nat := y / 2 ^ bits param 16 4 * gx + x / 2 ^ bits param 12 4

/-- The scores of an image, row by row; 0 outside the examined area (R247, R248). -/
def scoreMap (g : Img) (param gx : Nat) (thr : List Int) : List (List Nat) :=
  (List.range g.h).map fun y => (List.range g.w).map fun x =>
    if 16 ≤ x ∧ x + 17 ≤ g.w ∧ 16 ≤ y ∧ y + 17 ≤ g.h then
      cornerScore g (bits param 0 4) (bits param 4 1 == 1) (thr.getD (cellOfPx param gx x y) 0) x y
    else 0

/-- A pixel survives suppression (R248). -/
def survives (m : List (List Nat)) (x y : Nat) : Bool :=
  let s := fun (i j : Nat) => (m.getD j []).getD i 0
  let v := s x y
  v != 0 && decide (s (x - 1) y < v) && decide (s (x - 1) (y - 1) < v) && decide (s x (y - 1) < v) && decide (s (x + 1) (y - 1) < v) &&
  decide (s (x + 1) y ≤ v) && decide (s (x - 1) (y + 1) ≤ v) && decide (s x (y + 1) ≤ v) && decide (s (x + 1) (y + 1) ≤ v)

/-- The kept corners in raster order. -/
def keptCorners (param gx : Nat) (m : List (List Nat)) : List Corner :=
  m.zipIdx.flatMap fun (row, y) => row.zipIdx.filterMap fun (v, x) =>
    if survives m x y then some { cell := cellOfPx param gx x y, score := v, x := x, y := y } else none

/-- Insertion by descending score; equal scores keep raster order. -/
def insCorner (c : Corner) : List Corner → List Corner
  | [] => [c]
  | d :: l => if d.score < c.score then c :: d :: l else d :: insCorner c l

/-- The corners that qualify, in list order (R249). -/
def qualify (param cells : Nat) (kept : List Corner) : List Corner :=
  (List.range cells).flatMap fun c =>
    let l := (kept.filter fun k => k.cell == c).foldl (fun l k => insCorner k l) []
    (l.take (bits param 8 4 + 1)).zipIdx.map fun (k, i) => { k with rank := i }

/-- The sum of the 3 × 3 pixels at a position (R250). -/
def box3 (g : Img) (x y : Int) : Int :=
  (([-1, 0, 1] : List Int).flatMap fun j => ([-1, 0, 1] : List Int).map fun i => (g.at 0 (x + i) (y + j)).getD 0).sum

/-- Descriptor word k of a feature (R250, R251). -/
def descWord (g : Img) (pat : List (List Int)) (x y w : Nat) : Nat :=
  ((List.range 32).map fun i =>
    let row := pat.getD (32 * w + i) []
    let o := fun k => row.getD k 0
    if box3 g (x + o 0) (y + o 1) < box3 g (x + o 2) (y + o 3) then 2 ^ i else 0).sum

/-- A record's sixteen words (R251). -/
def featureWords (g : Img) (pat : Option (List (List Int))) (k : Corner) : List Nat :=
  [k.x + k.y * 2 ^ 16, k.score, k.cell + k.rank * 2 ^ 16, 0] ++
  ((List.range 8).map fun w => (pat.map fun p => descWord g p k.x k.y w).getD 0) ++ [0, 0, 0, 0]

/-- One row of the list stored. -/
def storeRow (o : Opd) (lin : Nat) (poison : Bool) (ws : List Nat) : EM Unit := do
  let _ ← storeVec o lin (ws.map fun w => { v := if poison then none else some (sext 32 w) })

/-- The next threshold of a cell (R252); `keep` where the frame read a poisoned pixel. -/
def nextThreshold (hd : List Int) (keep : Bool) (n : Nat) (t : Int) : Int :=
  let h := fun k => hd.getD k 0
  let t2 := if h 4 = 0 ∨ keep then t else if h 3 < n then t + h 4 else if (n : Int) < h 2 then (if h 4 < t then t - h 4 else 0) else t
  max (h 0) (min (h 1) t2)

/-- The thresholds rewritten (R252): elements 8 and onward; elements 0–7 are never written. -/
def rewriteState (o : Opd) (ts : List Int) : EM Unit := do
  for lin in List.range o.d.vectors do
    if lin = 0 then
      for i in List.range (min 24 ts.length) do storeElem o [8 + i] (some (ts.getD i 0))
    else
      let _ ← storeVec o lin (((ts.drop (32 * lin - 8)).take 32).map fun t => { v := some t })

/-- A state or pattern tensor read whole: none where a word is poisoned. -/
def readWords (o : Opd) (idx : List (List Int)) : EM (List (Option Int)) := do
  let m ← loadFor o idx
  return idx.map fun v => (elemAt o m o.d.type v).v

/-- A word that was read breaks a rule. -/
def wordBreaks (l : List (Option Int)) (k : Nat) (p : Int → Bool) : Bool := (l.getD k none).any p

/-- The header of the state breaks R254. -/
def stateBad (l : List (Option Int)) : Bool :=
  wordBreaks l 0 (fun lo => wordBreaks l 1 fun hi => decide (hi < lo)) ||
  wordBreaks l 2 (fun lo => wordBreaks l 3 fun hi => decide (hi < lo)) || [5, 6, 7].any fun k => wordBreaks l k (· != 0)

/-- What FTR_DETECT works with once its checks pass. -/
structure FtrIn where
  a : Opd
  b : Opd
  d : Opd
  state : List (Option Int)
  pat : List (Option Int)
deriving DecidableEq, Repr

/-- The checks of FTR_DETECT (R236, R254). -/
def ftrCheck (q : Nat) (r : Running) : EM FtrIn := do
  let desc := bits r.param 4 1 == 1
  let a ← needOpd q r 0
  let b ← needOpd q r 1
  let p ← if desc then some <$> needOpd q r 2 else pure none
  let d ← needOpd q r 3
  let ps := p.toList
  vecXforms r ([(0, .load, a), (1, .store, b), (3, .both, d)] ++ ps.map fun p => (2, .load, p))
  check ((a :: d :: ps).any fun o => b.d.meets o.d) 0x13
  check ((a :: ps).any fun o => d.d.meets o.d) 0x13
  check (b.size 0 != 16 || ps.any fun p => p.size 0 != 256 || p.size 1 != 4) 0x16
  check (vecTypeBad a imgTypes || vecTypeBad b [6] || vecTypeBad d [4] || ps.any fun p => vecTypeBad p [1]) 0x80
  check (vecSizeBad 33 a) 0x81
  check (rankBad a 2 || rankBad b 2 || rankBad d 1 || (ps.any fun p => rankBad p 2) || xformsSet r ([0, 1, 3] ++ ps.map fun _ => 2)) 0x82
  let (gx, gy) := gridOf r.param a
  check (d.size 0 != 8 + gx * gy) 0x84
  let st ← readWords d ((List.range (8 + gx * gy)).map fun (i : Nat) => [(i : Int)])
  check (stateBad st) 0x84
  let pat ← match p with
    | some p => readWords p ((List.range 256).flatMap fun (k : Nat) => (List.range 4).map fun (f : Nat) => [(k : Int), (f : Int)])
    | none => pure []
  check (pat.any fun v => v.any fun x => decide (x < -15) || decide (15 < x)) 0x85
  check (decide (1024 < gx * gy)) 0x86
  check (st.any Option.isNone || pat.any Option.isNone) 0x90
  return { a := a, b := b, d := d, state := st, pat := pat }

/-- FTR_DETECT (R247-R252). A frame with a poisoned pixel poisons the header and every record (R256); whether its thresholds are
left as they are (R256) or still clamped (R252) is open where one lies outside T_MIN to T_MAX (log entry 90). -/
def ftrDetect (parity : List (Nat × Nat)) (q : Nat) (r : Running) : EM Stats := do
  let i ← ftrCheck q r
  let desc := bits r.param 4 1 == 1
  let (gx, gy) := gridOf r.param i.a
  let st := i.state.map fun x => x.getD 0
  let thr := st.drop 8
  let g ← loadImg (pgVec 2) parity 0 i.a
  let poison := (g.data.flatten.flatten).any Option.isNone
  let kept := keptCorners r.param gx (scoreMap g r.param gx thr)
  let qual := qualify r.param (gx * gy) kept
  let m := i.b.size 1 - 1
  let written := qual.take m
  let pat := if desc then
      some ((List.range 256).map fun k => (List.range 4).map fun f => (i.pat.getD (4 * k + f) none).getD 0)
    else none
  storeRow i.b 0 poison ([written.length, kept.length, qual.length - written.length, gx + gy * 2 ^ 16] ++ List.replicate 12 0)
  for (k, n) in written.zipIdx do storeRow i.b (n + 1) poison (featureWords g pat k)
  if poison then
    for n in List.range (m - written.length) do storeRow i.b (written.length + n + 1) true (List.replicate 16 0)
  let clamp ← if poison then (do let n ← liftM drawM; return Config.choice n % 2 == 1) else pure true
  if clamp then
    rewriteState i.d (thr.zipIdx.map fun (t, c) => nextThreshold st poison (kept.filter fun k => k.cell == c).length t)
  let px := i.a.size 0 * i.a.size 1
  vecCounts (pgVec 2) (px + (if desc then 48 * written.length else 0) + 2 * gx * gy) px written.length (qual.length - written.length)
  return { poison := poison }

/-- FTR_DETECT. -/
def execFtrDetect (q : Fin 128) (parity : List (Nat × Nat)) (s : State) : Host.Outcome State Fault Refusal :=
  opRow q 0xA0 (ftrDetect parity) [1, 3] s

end Sys2Proof.Machine
end

