-- ==== Sys2Proof/Machine/Pyramid.lean ====
section
/-! DEFINITION. PYR and WRP (chapter 10): the pyramid reduce and the Laplacian (R240-R242), the homography and mesh
sample positions and the bilinear blend (R243-R246). -/

namespace Sys2Proof.Machine

/-- The weight of offset −2 to 2 (R240). -/
def w5 (i : Int) : Int := if i = 0 then 6 else if i = 1 ∨ i = -1 then 4 else 1

/-- The offsets −2 to 2. -/
def offs5 : List Int := [-2, -1, 0, 1, 2]

/-- A weighted sum of samples: none where one is poisoned, and whether one is invalid (R237, R45). -/
def weighted (g : Img) (pl : Nat) (ts : List (Int × Int × Int)) : Option (Int × Bool) :=
  ts.foldl (fun acc (w, x, y) => match acc, g.at pl x y with
    | some (s, bad), some v => some (s + w * v, bad || g.invalid v)
    | _, _ => none) (some (0, false))

/-- One pixel of the next level (R240). -/
def reducePx (g : Img) (t pl x y : Nat) : Elem :=
  let ts := offs5.flatMap fun j => offs5.map fun i => (w5 i * w5 j, 2 * (x : Int) + i, 2 * (y : Int) + j)
  match weighted g pl ts with
  | none => { v := none }
  | some (_, true) => { v := some (-32768) }
  | some (s, false) =>
    let (lo, hi) := validRange t
    let (o, sat) := satTo lo hi (rshift s 8)
    { v := some o, sat := sat }

/-- One level reduced and stored, and the image it is for the next one, which is reduced from the stored level (R240). -/
def reduceLevel (g : Img) (o : Opd) : EM (Img × Stats) := do
  check (g.edge == 2) 0x20
  let img := Img.make o fun pl x y => (reducePx g o.d.type pl x y).v
  let st ← storeTensor o fun v => reducePx g o.d.type (vp v) (vx v) (vy v)
  let img ← if st.poison then storedImg o else pure img
  return (img, st)

/-- The size of the next level. -/
def half (n : Nat) : Nat := (n + 1) / 2

/-- PYR_BUILD (R240, R242). -/
def pyrBuild (parity : List (Nat × Nat)) (q : Nat) (r : Running) : EM Stats := do
  let n := bits r.param 0 2 + 1
  let a ← needOpd q r 0
  let outs ← (List.range n).mapM fun i => needOpd q r (i + 1)
  vecXforms r ((0, PortUse.load, a) :: outs.zipIdx.map fun (o, i) => (i + 1, PortUse.store, o))
  let all := a :: outs
  check (outs.zipIdx.any fun (o, i) => (all.zipIdx.any fun (p, j) => j != i + 1 && o.d.meets p.d)) 0x13
  check ((all.zip outs).any fun (p, o) => o.size 0 != half (p.size 0) || o.size 1 != half (p.size 1) || o.planes != a.planes ||
    o.d.type != a.d.type) 0x16
  check (all.any fun o => vecTypeBad o imgTypes) 0x80
  check (all.any (vecSizeBad 8)) 0x81
  check (all.any imgLayoutBad || xformsSet r (List.range (n + 1))) 0x82
  let g ← loadImg (pgVec 0) parity 0 a
  let (_, st) ← outs.foldlM (fun (acc : Img × Stats) o => do
    let (g', st) ← reduceLevel acc.1 o
    return (g', acc.2.add st)) (g, {})
  let px := a.planes * a.size 0 * a.size 1
  vecCounts (pgVec 0) (a.planes * half (a.size 0) * a.size 1) px n 0
  return st

/-- PYR_BUILD. -/
def execPyrBuild (q : Fin 128) (parity : List (Nat × Nat)) (s : State) : Host.Outcome State Fault Refusal :=
  opRow q 0x80 (pyrBuild parity) [1, 2, 3] s

/-- One pixel of the Laplacian (R241). -/
def laplacePx (g g1 : Img) (pl x y : Nat) : Elem :=
  let ts := offs5.flatMap fun j => offs5.filterMap fun i =>
    if ((x : Int) - i) % 2 = 0 ∧ ((y : Int) - j) % 2 = 0 then some (w5 i * w5 j, ((x : Int) - i) / 2, ((y : Int) - j) / 2) else none
  match g.at pl x y, weighted g1 pl ts with
  | some v, some (s, bad) => { v := some (if bad || g.invalid v then -2147483648 else 64 * v - s) }
  | _, _ => { v := none }

/-- PYR_LAPLACE (R241, R242). -/
def pyrLaplace (parity : List (Nat × Nat)) (q : Nat) (r : Running) : EM Stats := do
  let a ← needOpd q r 0
  let b ← needOpd q r 1
  let o ← needOpd q r 2
  vecXforms r [(0, .load, a), (1, .load, b), (2, .store, o)]
  check (o.d.meets a.d || o.d.meets b.d) 0x13
  let want := if a.d.type = 2 then 3 else 6
  check (b.size 0 != half (a.size 0) || b.size 1 != half (a.size 1) || b.planes != a.planes || o.planes != a.planes ||
    o.size 0 != a.size 0 || o.size 1 != a.size 1 ||
    (imgTypes.contains a.d.type && (b.d.type != a.d.type || o.d.type != want))) 0x16
  check (vecTypeBad a imgTypes || vecTypeBad b imgTypes || vecTypeBad o [3, 6]) 0x80
  check ([a, b, o].any (vecSizeBad 8)) 0x81
  check ([a, b, o].any imgLayoutBad || xformsSet r [0, 1, 2]) 0x82
  check (b.d.edge == 2) 0x20
  let g ← loadImg (pgVec 0) parity 0 a
  let g1 ← loadImg (pgVec 0) parity 1 b
  let st ← storeTensor o fun v => laplacePx g g1 (vp v) (vx v) (vy v)
  vecCounts (pgVec 0) (a.planes * half (a.size 0) * a.size 1) (a.planes * a.size 0 * a.size 1) 1 0
  return st

/-- PYR_LAPLACE. -/
def execPyrLaplace (q : Fin 128) (parity : List (Nat × Nat)) (s : State) : Host.Outcome State Fault Refusal :=
  opRow q 0x81 (pyrLaplace parity) [2] s

/-! WRP (R243-R246). -/

/-- A sample position in 1/256 px, none where the table gives none because a word it needs is poisoned. -/
abbrev Pos := Option (Int × Int)

/-- The four neighbours of a position with their weights (R245). -/
def neighbours (p : Int × Int) : List (Int × Int × Int) :=
  let fx := p.1 % 256
  let fy := p.2 % 256
  let ix := p.1 / 256
  let iy := p.2 / 256
  [((256 - fx) * (256 - fy), ix, iy), (fx * (256 - fy), ix + 1, iy), ((256 - fx) * fy, ix, iy + 1), (fx * fy, ix + 1, iy + 1)]

/-- A position reads outside the source: a neighbour of weight 0 is read too (R238, R245). -/
def readsOutside (w h : Nat) (p : Pos) : Bool :=
  p.any fun p => (neighbours p).any fun (_, x, y) => !(decide (0 ≤ x) && decide (x < w) && decide (0 ≤ y) && decide (y < h))

/-- The blend at a position (R237, R245): a neighbour of weight 0 does not count as a contributor. -/
def samplePx (g : Img) (t pl : Nat) (p : Pos) : Elem :=
  match p with
  | none => { v := none }
  | some p => match weighted g pl ((neighbours p).filter fun t => t.1 != 0) with
    | none => { v := none }
    | some (_, true) => { v := some (-32768) }
    | some (s, false) =>
      let (lo, hi) := validRange t
      let (o, sat) := satTo lo hi (rshift s 16)
      { v := some o, sat := sat }

/-- The matrix or mesh read: its words by view index; none is poisoned. -/
def loadTable (o : Opd) (idx : List (List Int)) : EM (List (Option Int)) := do
  let m ← loadFor o idx
  return idx.map fun v => (elemAt o m 6 v).v

/-- The position of an output pixel under a matrix (R243, R245). -/
def homogPos (h : List Int) (u v : Nat) : Int × Int :=
  let c := fun k => h.getD k 0
  let row := fun k => c k * u + c (k + 1) * v + c (k + 2)
  let z := row 6
  let q := fun (x : Int) => (sat32 (if z ≤ 0 then -2147483648 else (2 * x * 4096 + z) / (2 * z))).1 / 16
  (q (row 0), q (row 3))

/-- The position of an output pixel under a mesh (R244, R245, R256). -/
def meshPos (ms : Nat) (knot : Nat → Nat → Nat → Option Int) (u v : Nat) : Pos :=
  let s := 2 ^ ms
  let fx := u % s
  let fy := v % s
  let ts := [((s - fx) * (s - fy), 0, 0), (fx * (s - fy), 1, 0), ((s - fx) * fy, 0, 1), (fx * fy, 1, 1)].filter fun t => t.1 != 0
  let term := fun (p : Nat) (t : Nat × Nat × Nat) => (knot (u / s + t.2.1) (v / s + t.2.2) p).map fun k => k * (t.1 : Int)
  let plane := fun (p : Nat) => (ts.mapM (term p)).map fun (l : List Int) => l.sum / 2 ^ (4 + 2 * ms)
  match plane 0, plane 1 with
  | some x, some y => some (x, y)
  | _, _ => none

/-- The checks that both WRP opcodes share (R236, R245, R254). -/
def wrpCheck (r : Running) (a b m : Opd) : EM Unit := do
  vecXforms r [(0, .load, a), (1, .store, b), (2, .load, m)]
  check (b.d.meets a.d || b.d.meets m.d) 0x13
  check (b.planes != a.planes || (imgTypes.contains a.d.type && b.d.type != a.d.type)) 0x16
  check (vecTypeBad a imgTypes || vecTypeBad b imgTypes || vecTypeBad m [6]) 0x80
  check (vecSizeBad 8 a || vecSizeBad 8 b) 0x81
  check (imgLayoutBad a || imgLayoutBad b || xformsSet r [0, 1, 2]) 0x82

/-- The output of WRP for the positions of its pixels (R238, R245). -/
def warp (parity : List (Nat × Nat)) (a b : Opd) (pos : Nat → Nat → Pos) : EM Stats := do
  let rows := (List.range (b.size 1)).map fun v => (List.range (b.size 0)).map fun u => pos u v
  let outside := (rows.flatten.filter (readsOutside (a.size 0) (a.size 1))).length
  check (a.d.edge == 2 && outside != 0) 0x20
  let g ← loadImg (pgVec 1) parity 0 a
  let st ← storeTensor b fun v => samplePx g b.d.type (vp v) ((rows.getD (vy v) []).getD (vx v) none)
  let px := b.planes * b.size 0 * b.size 1
  vecCounts (pgVec 1) px px (b.planes * outside) 0
  return st

/-- WRP_HOMOG (R243). -/
def wrpHomog (parity : List (Nat × Nat)) (q : Nat) (r : Running) : EM Stats := do
  let a ← needOpd q r 0
  let b ← needOpd q r 1
  let m ← needOpd q r 2
  wrpCheck r a b m
  check (rankBad m 1 || m.size 0 != 9) 0x83
  let h ← loadTable m ((List.range 9).map fun (i : Nat) => [(i : Int)])
  warp parity a b fun u v => (h.mapM id).map fun h => homogPos h u v

/-- WRP_HOMOG. -/
def execWrpHomog (q : Fin 128) (parity : List (Nat × Nat)) (s : State) : Host.Outcome State Fault Refusal :=
  opRow q 0x90 (wrpHomog parity) [1] s

/-- WRP_MESH (R244). -/
def wrpMesh (parity : List (Nat × Nat)) (q : Nat) (r : Running) : EM Stats := do
  let a ← needOpd q r 0
  let b ← needOpd q r 1
  let m ← needOpd q r 2
  let ms := bits r.param 0 3
  let gw := (b.size 0 - 1) / 2 ^ ms + 2
  let gh := (b.size 1 - 1) / 2 ^ ms + 2
  wrpCheck r a b m
  check (rankBad m 3 || m.sizes != [gw, gh, 2]) 0x83
  let knots ← loadTable m ((allIndices [gw, gh, 2]).map toInts)
  warp parity a b (meshPos ms fun x y p => knots.getD (x + gw * (y + gh * p)) none)

/-- WRP_MESH. -/
def execWrpMesh (q : Fin 128) (parity : List (Nat × Nat)) (s : State) : Host.Outcome State Fault Refusal :=
  opRow q 0x91 (wrpMesh parity) [1] s

end Sys2Proof.Machine
end

