-- ==== Sys2Proof/Machine/Search.lean ====
section
/-! DEFINITION. FLW and STR (chapter 11): census words and costs (R261, R262), block matching with refinement and
confidence (R263-R266), and semi-global stereo (R268-R272). -/

namespace Sys2Proof.Machine

/-- A census word (R261): the image's samples give bits, an invalid window, or poison (R276). -/
inductive Census
  | word (bits : List Bool)
  | invalid
  | poison
deriving DecidableEq, Repr

/-- The census of a pixel with a window of half-width h (R261). -/
def censusAt (g : Img) (h : Nat) (x y : Nat) : Census :=
  let n := 2 * h + 1
  let all := (List.range n).flatMap fun j => (List.range n).map fun i =>
    (i == h && j == h, g.at 0 ((x : Int) + i - h) ((y : Int) + j - h))
  if all.any fun p => p.2.isNone then .poison
  else if all.any fun p => p.2.any g.invalid then .invalid
  else
    let c := (g.at 0 x y).getD 0
    .word ((all.filter fun p => !p.1).map fun p => decide (c < p.2.getD 0))

/-- The census words of an image, row by row. -/
def censusMap (g : Img) (h : Nat) : List (List Census) :=
  (List.range g.h).map fun y => (List.range g.w).map fun x => censusAt g h x y

/-- A census word of a map, where the position lies inside. -/
def censusIn (m : List (List Census)) (x y : Int) : Option Census :=
  if 0 ≤ x ∧ 0 ≤ y then (m.getD y.toNat [])[x.toNat]? else none

/-- The elementary cost (R262); none is poisoned (R276). -/
def pxCost (nb : Nat) (p : Census) (q : Option Census) : Option Nat :=
  match p, q with
  | _, none => some nb
  | .poison, _ => none
  | _, some .poison => none
  | .word a, some (.word b) => some ((a.zip b).countP fun x => x.1 != x.2)
  | _, _ => some nb

/-! FLW (R263-R266). -/

/-- The centre from a prior vector in Q11.4 (R263). -/
def flowCentre (u : Int) : Int := (2 * u + 8) / 16

/-- The block cost of a candidate (R264). -/
def blockCost (a b : List (List Census)) (nb hb x y : Nat) (dx dy : Int) : Option Nat :=
  let n := 2 * hb + 1
  ((List.range n).flatMap fun (j : Nat) => (List.range n).map fun (i : Nat) => ((x : Int) + i - hb, (y : Int) + j - hb)).foldl (fun acc (px, py) =>
    match censusIn a px py with
    | none => acc
    | some p => match acc, pxCost nb p (censusIn b (px + dx) (py + dy)) with
      | some s, some c => some (s + c)
      | _, _ => none) (some 0)

/-- The quarter-pixel offset (R265). -/
def quarter (cm c0 cp : Int) : Int :=
  let den := cm + cp - 2 * c0
  if den = 0 then 0 else (4 * (cm - cp) + den) / (2 * den)

/-- What a pixel of the flow becomes: poisoned, invalid (with RANGE or INPUT), or a vector with its confidence. -/
inductive FlowPx
  | poison
  | invalid (range : Bool)
  | vec (u v : Int) (conf : Nat)
deriving DecidableEq, Repr

/-- The flow of one pixel for a centre (R264-R266). -/
def flowPx (a b : List (List Census)) (nb hb sr x y : Nat) (px py : Int) : FlowPx :=
  let offs := (List.range (2 * sr + 1)).map fun (k : Nat) => (k : Int) - sr
  let cands := offs.flatMap fun j => offs.map fun i => (px + i, py + j)
  let costs := cands.map fun (dx, dy) => (dx, dy, blockCost a b nb hb x y dx dy)
  match costs.mapM fun c => c.2.2.map fun k => (c.1, c.2.1, k) with
  | none => .poison
  | some [] => .poison
  | some (f :: l) =>
    if censusIn a x y = some .poison then .poison
    else if censusIn a x y = some .invalid then .invalid false
    else if 2040 < px.natAbs + sr ∨ 48 < py.natAbs + sr then .invalid true
    else
      let best := l.foldl (fun m c => if c.2.2 < m.2.2 then c else m) f
      if (best.1 - px).natAbs = sr ∨ (best.2.1 - py).natAbs = sr then .invalid true
      else
        let at' := fun (dx dy : Int) => (((f :: l).find? fun c => c.1 == dx && c.2.1 == dy).map fun c => (c.2.2 : Int)).getD 0
        let c0 : Int := best.2.2
        let far := (f :: l).filter fun c => decide (2 ≤ (c.1 - best.1).natAbs) || decide (2 ≤ (c.2.1 - best.2.1).natAbs)
        let conf := match far with
          | [] => 255
          | g :: gs => let c2 := gs.foldl (fun m c => min m c.2.2) g.2.2; (256 * ((c2 : Int) - c0) / (c2 + 1)).toNat
        .vec (16 * best.1 + 4 * quarter (at' (best.1 - 1) best.2.1) c0 (at' (best.1 + 1) best.2.1))
          (16 * best.2.1 + 4 * quarter (at' best.1 (best.2.1 - 1)) c0 (at' best.1 (best.2.1 + 1))) conf

/-- The checks both search engines make (R259, R274): images a and b, prior p, output o with `planes` planes. -/
def searchCheck (r : Running) (a b o : Opd) (p : Option Opd) (ty rank planes : Nat) : EM Unit := do
  vecXforms r ([(0, .load, a), (1, .load, b), (3, .store, o)] ++ p.toList.map fun p => (2, .load, p))
  check ((a :: b :: p.toList).any fun x => o.d.meets x.d) 0x13
  check (a.size 0 != b.size 0 || a.size 1 != b.size 1 || o.size 0 != a.size 0 || o.size 1 != a.size 1 ||
    p.any fun p => p.size 0 != (a.size 0 + 1) / 2 || p.size 1 != (a.size 1 + 1) / 2) 0x16
  check (vecTypeBad a imgTypes || vecTypeBad b [a.d.type] || vecTypeBad o [ty] || p.any fun p => vecTypeBad p [ty]) 0x80
  check (vecSizeBad 16 a || vecSizeBad 16 b) 0x81
  check (rankBad a 2 || rankBad b 2 || rankBad o rank || o.size 2 != planes ||
    (p.any fun p => rankBad p rank || p.size 2 != planes) || xformsSet r ([0, 1, 3] ++ p.toList.map fun _ => 2)) 0x82
  check (a.d.edge == 2 || b.d.edge == 2) 0x20

/-- A prior tensor's element at a view index; none is poisoned. -/
def priorAt (p : Opd) (m : Loaded) (v : List Nat) : Option Int := (elemAt p m p.d.type (toInts v)).v

/-- The prior loaded whole, where there is one. -/
def loadPrior (p : Option Opd) : EM (Option (Opd × Loaded)) := do
  match p with
  | none => return none
  | some p => return some (p, ← loadFor p ((allIndices p.sizes).map toInts))

/-- The centre of a pixel and whether its prior was invalid; none is a poisoned prior (R263, R276). -/
def flowPrior (p : Option (Opd × Loaded)) (x y : Nat) : Option (Int × Int × Bool) :=
  match p with
  | none => some (0, 0, false)
  | some (p, m) => match priorAt p m [x / 2, y / 2, 0], priorAt p m [x / 2, y / 2, 1] with
    | some u, some v => if u = -32768 ∧ v = -32768 then some (0, 0, true) else some (flowCentre u, flowCentre v, false)
    | _, _ => none

/-- FLW_LEVEL (R263-R267). -/
def flwLevel (parity : List (Nat × Nat)) (q : Nat) (r : Running) : EM Stats := do
  let a ← needOpd q r 0
  let b ← needOpd q r 1
  let p ← optOpd q r 2
  let o ← needOpd q r 3
  searchCheck r a b o p 3 3 3
  let hc := if bits r.param 0 1 = 1 then 3 else 2
  let hb := bits r.param 1 2 + 1
  let sr := bits r.param 4 3
  let nb := (2 * hc + 1) * (2 * hc + 1) - 1
  let ca := censusMap (← loadImg (pgVec 3) parity 0 a) hc
  let cb := censusMap (← loadImg (pgVec 3) parity 1 b) hc
  let prior ← loadPrior p
  let rows := (List.range (a.size 1)).map fun y => (List.range (a.size 0)).map fun x =>
    match flowPrior prior x y with
    | none => (FlowPx.poison, false)
    | some (px, py, bad) => (flowPx ca cb nb hb sr x y px py, bad)
  let st ← storeTensor o fun v => match ((rows.getD (vy v) []).getD (vx v) (.poison, false)).1 with
    | .poison => { v := none }
    | .invalid _ => { v := some (if vp v = 2 then 0 else -32768) }
    | .vec u w c => { v := some (if vp v = 0 then u else if vp v = 1 then w else (c : Int)) }
  let px := a.size 0 * a.size 1
  vecCounts (pgVec 3) (2 * px) px (rows.flatten.countP fun f => f.1 == .invalid true) (rows.flatten.countP Prod.snd)
  return st

/-- FLW_LEVEL. -/
def execFlwLevel (q : Fin 128) (parity : List (Nat × Nat)) (s : State) : Host.Outcome State Fault Refusal :=
  opRow q 0xB0 (flwLevel parity) [3] s

/-! STR (R268-R272). -/

/-- One pixel's search: the base, the values over its window, whether any is poisoned, and whether the base itself is. -/
structure Win where
  b : Nat
  l : List Nat
  poison : Bool
  lost : Bool := false
deriving DecidableEq, Repr

/-- The value of a window at a disparity. -/
def Win.at (w : Win) (d : Int) : Option Nat := if (w.b : Int) ≤ d then w.l[(d - w.b).toNat]? else none

/-- The least of a list, 0 for none. -/
def listMin : List Nat → Nat
  | [] => 0
  | x :: l => l.foldl min x

/-- One path's values at a pixel from those at its neighbour (R269). -/
def pathStep (p1 p2 : Nat) (c : Win) (nb : Option Win) : Win :=
  match nb with
  | none => c
  | some n =>
    let m := listMin n.l
    { b := c.b, poison := c.poison || n.poison, lost := c.lost, l := c.l.zipIdx.map fun (x, k) =>
        let d : Int := c.b + k
        let terms := (n.at d).toList ++ ((n.at (d - 1)).map (· + p1)).toList ++ ((n.at (d + 1)).map (· + p1)).toList ++ [m + p2]
        x + listMin terms - m }

/-- A path that runs along the row in list order. -/
def pathAlong (p1 p2 : Nat) (cs : List Win) : List Win :=
  (cs.foldl (fun (acc : List Win × Option Win) c => let l := pathStep p1 p2 c acc.2; (l :: acc.1, some l)) ([], none)).1.reverse

/-- A path from the row above, at an offset of x. -/
def pathAbove (p1 p2 : Nat) (dx : Int) (above : List Win) (cs : List Win) : List Win :=
  cs.zipIdx.map fun (c, x) =>
    let i := (x : Int) + dx
    pathStep p1 p2 c (if 0 ≤ i then above[i.toNat]? else none)

/-- The sum of windows of one base. -/
def addWin (a b : Win) : Win := { b := a.b, l := a.l.zipWith (· + ·) b.l, poison := a.poison || b.poison, lost := a.lost }

/-- One row aggregated (R269): the paths' rows, and the sums. -/
def aggRow (p1 p2 : Nat) (five : Bool) (above : List (List Win)) (cs : List Win) : List (List Win) × List Win :=
  let ab := fun k => above.getD k []
  let l0 := pathAlong p1 p2 cs
  let l1 := pathAbove p1 p2 (-1) (ab 1) cs
  let l2 := pathAbove p1 p2 0 (ab 2) cs
  let l3 := pathAbove p1 p2 1 (ab 3) cs
  let l4 := (pathAlong p1 p2 cs.reverse).reverse
  let s := ((l0.zipWith addWin l1).zipWith addWin l2).zipWith addWin l3
  ([l0, l1, l2, l3], if five then s.zipWith addWin l4 else s)

/-- The least entry of a window and its disparity, the smaller on a tie (R270). -/
def Win.best (w : Win) : Nat × Nat :=
  (w.l.zipIdx.foldl (fun (m : Option (Nat × Nat)) (x, k) => match m with
    | none => some (w.b + k, x)
    | some (d, y) => if x < y then some (w.b + k, x) else some (d, y)) none).getD (w.b, 0)

/-- The right-referenced disparity of a column (R272): none where no window holds it; poisoned where a window that
holds it is, or may be because its base depends on a poisoned prior. -/
def rightDisp (s : List Win) (col : Nat) : Option (Nat × Bool) :=
  let lost := s.zipIdx.any fun (w, x) => w.lost && decide (col ≤ x)
  let cands := s.zipIdx.filterMap fun (w, x) =>
    if col ≤ x ∧ !w.lost then (w.at ((x : Int) - col)).map fun v => (x - col, v, w.poison) else none
  match cands with
  | [] => if lost then some (0, true) else none
  | f :: l => some ((l.foldl (fun m c => if c.2.1 < m.2.1 then c else m) f).1, lost || cands.any fun c => c.2.2)

/-- What a pixel of the disparity becomes: poisoned, or its code with whether it counts as RANGE or LR. -/
inductive DispPx
  | poison
  | code (v : Nat) (counted : Bool)
deriving DecidableEq, Repr

/-- The disparity of one pixel (R270-R272): the cases in their order, each poisoned only by what it reads (R276). -/
def dispPx (s : List Win) (nd : Nat) (lr : Bool) (tol x : Nat) (centre : Option Census) (w : Win) : DispPx :=
  let d := w.best.1
  let right := if d ≤ x then rightDisp s (x - d) else none
  if w.poison || centre == some .poison then .poison
  else if centre == some .invalid then .code 0xFFFF false
  else if d = w.b + nd - 1 ∨ (d = w.b ∧ 0 < w.b) then .code 0xFFFF true
  else if lr && right.any Prod.snd then .poison
  else if lr && (match right with
    | none => true
    | some (r, _) => decide (tol < ((d : Int) - r).natAbs)) then .code 0xFFFF true
  else
    let at' := fun (k : Int) => ((w.at k).getD 0 : Int)
    let sm := at' (d - 1)
    let s0 := at' d
    let sp := at' (d + 1)
    let den := sm + sp - 2 * s0
    let q : Int := if den = 0 ∨ d = 0 then 0 else (16 * (sm - sp) + den) / (2 * den)
    let v := (16 * (d : Int) + q).toNat
    if 0xFFFE < v then .code 0xFFFF true else .code v false

/-- The base of a pixel's window and whether its prior was invalid; none is a poisoned prior (R268, R276). -/
def dispBase (p : Option (Opd × Loaded)) (nd dmin x y : Nat) : Option (Nat × Bool) :=
  match p with
  | none => some (dmin, false)
  | some (p, m) => match priorAt p m [x / 2, y / 2] with
    | none => none
    | some v => if v = 0xFFFF then some (dmin, true) else some ((2 * v.toNat + 8) / 16 - nd / 2, false)

/-- The costs of one pixel over its window (R268). -/
def costWin (ca cb : List (List Census)) (nb nd x y : Nat) (b : Option (Nat × Bool)) : Win :=
  match b with
  | none => { b := 0, l := List.replicate nd 0, poison := true, lost := true }
  | some (b, _) =>
    let cs := (List.range nd).map fun k => pxCost nb ((censusIn ca x y).getD .poison) (censusIn cb ((x : Int) - (b + k : Nat)) y)
    { b := b, l := cs.map fun c => c.getD 0, poison := cs.any Option.isNone }

/-- STR_LEVEL (R268-R273). -/
def strLevel (parity : List (Nat × Nat)) (q : Nat) (r : Running) : EM Stats := do
  let a ← needOpd q r 0
  let b ← needOpd q r 1
  let p ← optOpd q r 2
  let o ← needOpd q r 3
  searchCheck r a b o p 4 2 1
  let hc := if bits r.param 0 1 = 1 then 3 else 2
  let nb := (2 * hc + 1) * (2 * hc + 1) - 1
  let nd := 32 * (bits r.param 2 2 + 1)
  let ca := censusMap (← loadImg (pgVec 4) parity 0 a) hc
  let cb := censusMap (← loadImg (pgVec 4) parity 1 b) hc
  let prior ← loadPrior p
  let base := fun x y => dispBase prior nd (32 * bits r.param 26 6) x y
  let (rows, _) := (List.range (a.size 1)).foldl (fun (acc : List (List DispPx) × List (List Win)) y =>
    let cs := (List.range (a.size 0)).map fun x => costWin ca cb nb nd x y (base x y)
    let (ls, s) := aggRow (bits r.param 8 8) (bits r.param 16 10) (bits r.param 1 1 == 1) acc.2 cs
    let out := s.zipIdx.map fun (w, x) =>
      dispPx s nd (bits r.param 4 1 == 1) (bits r.param 5 2) x (censusIn ca x y) w
    (acc.1 ++ [out], ls)) ([], [])
  let st ← storeTensor o fun v => match (rows.getD (vy v) []).getD (vx v) .poison with
    | .poison => { v := none }
    | .code x _ => { v := some (x : Int) }
  let px := a.size 0 * a.size 1
  let invalidPriors := ((List.range (a.size 1)).map fun y => (List.range (a.size 0)).countP fun x => (base x y).any Prod.snd).sum
  vecCounts (pgVec 4) (nd / 32 * px) px (rows.flatten.countP fun f => match f with
    | .code _ c => c
    | .poison => false) invalidPriors
  return st

/-- STR_LEVEL. -/
def execStrLevel (q : Fin 128) (parity : List (Nat × Nat)) (s : State) : Host.Outcome State Fault Refusal :=
  opRow q 0xC0 (strLevel parity) [3] s

end Sys2Proof.Machine
end

