-- ==== Sys2Proof/Machine/Dispatch.lean ====
section
/-! DEFINITION. The dispatch of commands to their meanings: one arm per row of spec/opcode_table.json. -/

namespace Sys2Proof.Machine

/-- The effect of a command on everything but the queue of waiting commands. -/
def exec (i : Instr) (s : State) : Host.Outcome State Fault Refusal :=
  match i with
  | .registerWrite req addr size value => Sys2Proof.Machine.execRegisterWrite req addr size value s
  | .loRead req addr => Sys2Proof.Machine.execLoRead req addr s
  | .hiWrite req addr value => Sys2Proof.Machine.execHiWrite req addr value s
  | .busTimeout req addr read => Sys2Proof.Machine.execBusTimeout req addr read s
  | .softReset req page => Sys2Proof.Machine.execSoftReset req page s
  | .softResetDone page => Sys2Proof.Machine.execSoftResetDone page s
  | .irqForce req page mask => Sys2Proof.Machine.execIrqForce req page mask s
  | .irqRawClear req page mask hwSet => Sys2Proof.Machine.execIrqRawClear req page mask hwSet s
  | .snapTake req page groups => Sys2Proof.Machine.execSnapTake req page groups s
  | .snapRelease req page groups => Sys2Proof.Machine.execSnapRelease req page groups s
  | .acquire req page timeoutMs => Sys2Proof.Machine.execAcquire req page timeoutMs s
  | .renew req page timeoutMs => Sys2Proof.Machine.execRenew req page timeoutMs s
  | .leaseRelease req page => Sys2Proof.Machine.execLeaseRelease req page s
  | .leaseTimeout page => Sys2Proof.Machine.execLeaseTimeout page s
  | .coreAccess core kind pa size value => Sys2Proof.Machine.execCoreAccess core kind pa size value s
  | .bar2Access write offset size value => Sys2Proof.Machine.execBar2Access write offset size value s
  | .ceWriteBack pa => Sys2Proof.Machine.execCeWriteBack pa s
  | .scrubAccess upsets => Sys2Proof.Machine.execScrubAccess upsets s
  | .clsEnable req => Sys2Proof.Machine.execClsEnable req s
  | .clsInitDone => Sys2Proof.Machine.execClsInitDone s
  | .clsDisable req => Sys2Proof.Machine.execClsDisable req s
  | .clsSkewWrite req n value => Sys2Proof.Machine.execClsSkewWrite req n value s
  | .lp5xEnable req => Sys2Proof.Machine.execLp5xEnable req s
  | .lp5xInitDone => Sys2Proof.Machine.execLp5xInitDone s
  | .lp5xDisable req => Sys2Proof.Machine.execLp5xDisable req s
  | .inval req ctx => Sys2Proof.Machine.execInval req ctx s
  | .invalDone ctx => Sys2Proof.Machine.execInvalDone ctx s
  | .ctxDisable req ctx => Sys2Proof.Machine.execCtxDisable req ctx s
  | .rgnRegister req => Sys2Proof.Machine.execRgnRegister req s
  | .rgnFree req => Sys2Proof.Machine.execRgnFree req s
  | .rgnDone => Sys2Proof.Machine.execRgnDone s
  | .fltPop req => Sys2Proof.Machine.execFltPop req s
  | .lockLeaseTimeout entry => Sys2Proof.Machine.execLockLeaseTimeout entry s
  | .create req => Sys2Proof.Machine.execCreate req s
  | .destroy req => Sys2Proof.Machine.execDestroy req s
  | .descRead req => Sys2Proof.Machine.execDescRead req s
  | .descDone => Sys2Proof.Machine.execDescDone s
  | .qtailWrite req q value => Sys2Proof.Machine.execQtailWrite req q value s
  | .doorbell offset write => Sys2Proof.Machine.execDoorbell offset write s
  | .commandFetch unit => Sys2Proof.Machine.execCommandFetch unit s
  | .nop q => Sys2Proof.Machine.execNop q s
  | .wait q => Sys2Proof.Machine.execWait q s
  | .waitRetire q => Sys2Proof.Machine.execWaitRetire q s
  | .waitTimeout q => Sys2Proof.Machine.execWaitTimeout q s
  | .signal q => Sys2Proof.Machine.execSignal q s
  | .stop q => Sys2Proof.Machine.execStop q s
  | .copy q => Sys2Proof.Machine.execCopy q s
  | .gather q => Sys2Proof.Machine.execGather q s
  | .scatter q => Sys2Proof.Machine.execScatter q s
  | .bgather q => Sys2Proof.Machine.execBgather q s
  | .bscatter q => Sys2Proof.Machine.execBscatter q s
  | .pieceSend q => Sys2Proof.Machine.execPieceSend q s
  | .commandRetire q => Sys2Proof.Machine.execCommandRetire q s
  | .skip req q => Sys2Proof.Machine.execSkip req q s
  | .drain req q => Sys2Proof.Machine.execDrain req q s
  | .queueEnable req q => Sys2Proof.Machine.execQueueEnable req q s
  | .queueDisable req q => Sys2Proof.Machine.execQueueDisable req q s
  | .evtSig req inc evt => Sys2Proof.Machine.execEvtSig req inc evt s
  | .conv q => Sys2Proof.Machine.execConv q s
  | .matmul q => Sys2Proof.Machine.execMatmul q s
  | .eltwise q => Sys2Proof.Machine.execEltwise q s
  | .pool q => Sys2Proof.Machine.execPool q s
  | .act q => Sys2Proof.Machine.execAct q s
  | .tileDeal g => Sys2Proof.Machine.execTileDeal g s
  | .tileComplete stall check => Sys2Proof.Machine.execTileComplete stall check s
  | .tileTimeout stall => Sys2Proof.Machine.execTileTimeout stall s
  | .remap g => Sys2Proof.Machine.execRemap g s
  | .remapCopyDone => Sys2Proof.Machine.execRemapCopyDone s
  | .retireReq req mask => Sys2Proof.Machine.execRetireReq req mask s
  | .suspectClr req stall => Sys2Proof.Machine.execSuspectClr req stall s
  | .pyrBuild q parity => Sys2Proof.Machine.execPyrBuild q parity s
  | .pyrLaplace q parity => Sys2Proof.Machine.execPyrLaplace q parity s
  | .wrpHomog q parity => Sys2Proof.Machine.execWrpHomog q parity s
  | .wrpMesh q parity => Sys2Proof.Machine.execWrpMesh q parity s
  | .ftrDetect q parity => Sys2Proof.Machine.execFtrDetect q parity s
  | .flwLevel q parity => Sys2Proof.Machine.execFlwLevel q parity s
  | .strLevel q parity => Sys2Proof.Machine.execStrLevel q parity s
  | .dmdPeriod q => Sys2Proof.Machine.execDmdPeriod q s
  | .dmdOffline q => Sys2Proof.Machine.execDmdOffline q s
  | .dmdSubframe port => Sys2Proof.Machine.execDmdSubframe port s
  | .lisEnable req => Sys2Proof.Machine.execLisEnable req s
  | .lisDisable req => Sys2Proof.Machine.execLisDisable req s
  | .lisFire req mask => Sys2Proof.Machine.execLisFire req mask s
  | .triggerAssert seq => Sys2Proof.Machine.execTriggerAssert seq s
  | .triggerDeassert seq => Sys2Proof.Machine.execTriggerDeassert seq s
  | .strobeRise seq => Sys2Proof.Machine.execStrobeRise seq s
  | .strobeFall seq => Sys2Proof.Machine.execStrobeFall seq s
  | .stbFault out => Sys2Proof.Machine.execStbFault out s
  | .portEnable req port => Sys2Proof.Machine.execPortEnable req port s
  | .portDisable req port => Sys2Proof.Machine.execPortDisable req port s
  | .frameStart port blankPclk => Sys2Proof.Machine.execFrameStart port blankPclk s
  | .trigWindowExpiry port => Sys2Proof.Machine.execTrigWindowExpiry port s
  | .lineEnd port line => Sys2Proof.Machine.execLineEnd port line s
  | .frameEnd port glitch => Sys2Proof.Machine.execFrameEnd port glitch s
  | .clkLost port => Sys2Proof.Machine.execClkLost port s
  | .pclkFast port edges => Sys2Proof.Machine.execPclkFast port edges s
  | .pipelineLine parity => Sys2Proof.Machine.execPipelineLine parity s
  | .memFrameStart port => Sys2Proof.Machine.execMemFrameStart port s
  | .stripeStart port => Sys2Proof.Machine.execStripeStart port s
  | .trigSw req port => Sys2Proof.Machine.execTrigSw req port s
  | .trigSwEnd port => Sys2Proof.Machine.execTrigSwEnd port s
  | .rstAssert req port level => Sys2Proof.Machine.execRstAssert req port level s
  | .graphLoad req slot => Sys2Proof.Machine.execGraphLoad req slot s
  | .graphLoadDone slot => Sys2Proof.Machine.execGraphLoadDone slot s
  | .graphStart req slot => Sys2Proof.Machine.execGraphStart req slot s
  | .graphStop req slot => Sys2Proof.Machine.execGraphStop req slot s
  | .stopComplete slot => Sys2Proof.Machine.execStopComplete slot s
  | .graphAbort req slot => Sys2Proof.Machine.execGraphAbort req slot s
  | .unload req slot => Sys2Proof.Machine.execUnload req slot s
  | .stepDecision slot => Sys2Proof.Machine.execStepDecision slot s
  | .graphFire slot => Sys2Proof.Machine.execGraphFire slot s
  | .vote slot => Sys2Proof.Machine.execVote slot s
  | .runDecision slot => Sys2Proof.Machine.execRunDecision slot s
  | .framePost slot => Sys2Proof.Machine.execFramePost slot s
  | .doneSignal slot => Sys2Proof.Machine.execDoneSignal slot s
  | .commit slot => Sys2Proof.Machine.execCommit slot s
  | .inPost req slot node => Sys2Proof.Machine.execInPost req slot node s
  | .outAck req slot count => Sys2Proof.Machine.execOutAck req slot count s
  | .switchStart slot => Sys2Proof.Machine.execSwitchStart slot s
  | .switchQuiesce slot => Sys2Proof.Machine.execSwitchQuiesce slot s
  | .switchResume slot => Sys2Proof.Machine.execSwitchResume slot s
  | .switchRepost slot => Sys2Proof.Machine.execSwitchRepost slot s
  | .dmaStart req ch => Sys2Proof.Machine.execDmaStart req ch s
  | .dmaStop req ch => Sys2Proof.Machine.execDmaStop req ch s
  | .shadowArm req ch => Sys2Proof.Machine.execShadowArm req ch s
  | .dmaBurst ch => Sys2Proof.Machine.execDmaBurst ch s
  | .passEnd ch => Sys2Proof.Machine.execPassEnd ch s
  | .dmaBusError ch va write prefetch cause => Sys2Proof.Machine.execDmaBusError ch va write prefetch cause s
  | .portEn req port => Sys2Proof.Machine.execPortEn req port s
  | .cdrLock port lane inverted => Sys2Proof.Machine.execCdrLock port lane inverted s
  | .markerLock port lane skew => Sys2Proof.Machine.execMarkerLock port lane skew s
  | .markerLoss port lane => Sys2Proof.Machine.execMarkerLoss port lane s
  | .cdrLoss port lane => Sys2Proof.Machine.execCdrLoss port lane s
  | .hello port msg => Sys2Proof.Machine.execHello port msg s
  | .trainTimeout port => Sys2Proof.Machine.execTrainTimeout port s
  | .flitCrcError port => Sys2Proof.Machine.execFlitCrcError port s
  | .nak port hdr => Sys2Proof.Machine.execNak port hdr s
  | .idleFlit port hdr => Sys2Proof.Machine.execIdleFlit port hdr s
  | .replayTimeout port => Sys2Proof.Machine.execReplayTimeout port s
  | .enum port hdr x y => Sys2Proof.Machine.execEnum port hdr x y s
  | .join port hdr pos => Sys2Proof.Machine.execJoin port hdr pos s
  | .chapterUp port hdr members => Sys2Proof.Machine.execChapterUp port hdr members s
  | .chapterUpTimeout => Sys2Proof.Machine.execChapterUpTimeout s
  | .linkMap port hdr map epoch => Sys2Proof.Machine.execLinkMap port hdr map epoch s
  | .fenceLift => Sys2Proof.Machine.execFenceLift s
  | .tsyncExchange => Sys2Proof.Machine.execTsyncExchange s
  | .tsync port msg => Sys2Proof.Machine.execTsync port msg s
  | .pieceHead port hdr msg => Sys2Proof.Machine.execPieceHead port hdr msg s
  | .piecePmap port hdr src mask => Sys2Proof.Machine.execPiecePmap port hdr src mask s
  | .pieceData port hdr src data parity => Sys2Proof.Machine.execPieceData port hdr src data parity s
  | .signalFlit port hdr msg => Sys2Proof.Machine.execSignalFlit port hdr msg s
  | .resp port hdr msg => Sys2Proof.Machine.execResp port hdr msg s
  | .linkTimeout q => Sys2Proof.Machine.execLinkTimeout q s
  | .creditTimeout port => Sys2Proof.Machine.execCreditTimeout port s
  | .memberLost pos => Sys2Proof.Machine.execMemberLost pos s
  | .headLost => Sys2Proof.Machine.execHeadLost s
  | .chapterEn req value => Sys2Proof.Machine.execChapterEn req value s
  | .carGo req chain => Sys2Proof.Machine.execCarGo req chain s
  | .boundarySend chain => Sys2Proof.Machine.execBoundarySend chain s
  | .carTxnDone chain wire => Sys2Proof.Machine.execCarTxnDone chain wire s
  | .txCancel req chain => Sys2Proof.Machine.execTxCancel req chain s
  | .longReset req chain presence => Sys2Proof.Machine.execLongReset req chain presence s
  | .shortReset req chain presence => Sys2Proof.Machine.execShortReset req chain presence s
  | .chainEn req chain on => Sys2Proof.Machine.execChainEn req chain on s
  | .pwrGoodChange input level => Sys2Proof.Machine.execPwrGoodChange input level s
  | .pgStable input => Sys2Proof.Machine.execPgStable input s
  | .ident chain dev maker => Sys2Proof.Machine.execIdent chain dev maker s
  | .setAddr chain dev => Sys2Proof.Machine.execSetAddr chain dev s
  | .pass chain dev => Sys2Proof.Machine.execPass chain dev s
  | .status chain dev => Sys2Proof.Machine.execStatus chain dev s
  | .readReg chain dev => Sys2Proof.Machine.execReadReg chain dev s
  | .writeReg chain dev => Sys2Proof.Machine.execWriteReg chain dev s
  | .lampSet chain dev rating => Sys2Proof.Machine.execLampSet chain dev rating s
  | .lampStatus chain dev sense => Sys2Proof.Machine.execLampStatus chain dev sense s
  | .podStatus chain dev sense => Sys2Proof.Machine.execPodStatus chain dev sense s
  | .ledgerInfo chain dev plate => Sys2Proof.Machine.execLedgerInfo chain dev plate s
  | .ledgerBegin chain dev plate => Sys2Proof.Machine.execLedgerBegin chain dev plate s
  | .ledgerData chain dev => Sys2Proof.Machine.execLedgerData chain dev s
  | .ledgerCommit chain dev nvmFail => Sys2Proof.Machine.execLedgerCommit chain dev nvmFail s
  | .ledgerDrawDone chain dev => Sys2Proof.Machine.execLedgerDrawDone chain dev s
  | .ledgerAbort chain dev => Sys2Proof.Machine.execLedgerAbort chain dev s
  | .ledgerAck chain dev => Sys2Proof.Machine.execLedgerAck chain dev s
  | .ledgerRecovery chain dev => Sys2Proof.Machine.execLedgerRecovery chain dev s
  | .lampOverTemperature chain dev => Sys2Proof.Machine.execLampOverTemperature chain dev s
  | .lampCooled chain dev => Sys2Proof.Machine.execLampCooled chain dev s
  | .podPowerDown chain => Sys2Proof.Machine.execPodPowerDown chain s
  | .tbSet req hi => Sys2Proof.Machine.execTbSet req hi s
  | .ppsEdge => Sys2Proof.Machine.execPpsEdge s
  | .ppsLost => Sys2Proof.Machine.execPpsLost s
  | .tbAlarm => Sys2Proof.Machine.execTbAlarm s
  | .gpioEdge pin level => Sys2Proof.Machine.execGpioEdge pin level s
  | .gpioSet req mask => Sys2Proof.Machine.execGpioSet req mask s
  | .gpioClr req mask => Sys2Proof.Machine.execGpioClr req mask s
  | .txdata req uart char => Sys2Proof.Machine.execTxdata req uart char s
  | .rxPop req uart => Sys2Proof.Machine.execRxPop req uart s
  | .uartChar uart char pe fe brk => Sys2Proof.Machine.execUartChar uart char pe fe brk s
  | .rxIdle uart => Sys2Proof.Machine.execRxIdle uart s
  | .txEmpty uart => Sys2Proof.Machine.execTxEmpty uart s
  | .speed req i2c code => Sys2Proof.Machine.execSpeed req i2c code s
  | .i2cGo req i2c => Sys2Proof.Machine.execI2cGo req i2c s
  | .i2cDone i2c bus => Sys2Proof.Machine.execI2cDone i2c bus s
  | .stretchTimeout i2c => Sys2Proof.Machine.execStretchTimeout i2c s
  | .irqEoi req vec => Sys2Proof.Machine.execIrqEoi req vec s
  | .pcieReset kind => Sys2Proof.Machine.execPcieReset kind s
  | .cplTimeout dma => Sys2Proof.Machine.execCplTimeout dma s
  | .aerError kind => Sys2Proof.Machine.execAerError kind s
  | .linkUp width speed => Sys2Proof.Machine.execLinkUp width speed s
  | .d3hot => Sys2Proof.Machine.execD3hot s
  | .porstNRise bootMode flash => Sys2Proof.Machine.execPorstNRise bootMode flash s
  | .porstNFall => Sys2Proof.Machine.execPorstNFall s
  | .bootGo req => Sys2Proof.Machine.execBootGo req s
  | .mbPost => Sys2Proof.Machine.execMbPost s
  | .getInfo => Sys2Proof.Machine.execGetInfo s
  | .setPolicy => Sys2Proof.Machine.execSetPolicy s
  | .getPolicy => Sys2Proof.Machine.execGetPolicy s
  | .ctxGrant => Sys2Proof.Machine.execCtxGrant s
  | .ctxRelease => Sys2Proof.Machine.execCtxRelease s
  | .carTxn => Sys2Proof.Machine.execCarTxn s
  | .pdNotice => Sys2Proof.Machine.execPdNotice s
  | .powerState => Sys2Proof.Machine.execPowerState s
  | .arbCommit programmed => Sys2Proof.Machine.execArbCommit programmed s
  | .keyRevoke programmed => Sys2Proof.Machine.execKeyRevoke programmed s
  | .ovr req value => Sys2Proof.Machine.execOvr req value s
  | .wakeEvent src => Sys2Proof.Machine.execWakeEvent src s
  | .controlTick => Sys2Proof.Machine.execControlTick s
  | .loopPeriod sense => Sys2Proof.Machine.execLoopPeriod sense s
  | .junctionTrip => Sys2Proof.Machine.execJunctionTrip s
  | .coreUv vsenseMv => Sys2Proof.Machine.execCoreUv vsenseMv s
  | .policyRaise req value => Sys2Proof.Machine.execPolicyRaise req value s
  | .protectionRelease case => Sys2Proof.Machine.execProtectionRelease case s
  | .sensorFail sensor => Sys2Proof.Machine.execSensorFail sensor s
  | .vrSettled => Sys2Proof.Machine.execVrSettled s
  | .vrSettleTimeout => Sys2Proof.Machine.execVrSettleTimeout s
  | .vrDrop => Sys2Proof.Machine.execVrDrop s
  | .shutdown => Sys2Proof.Machine.execShutdown s
  | .aonPorRelease => Sys2Proof.Machine.execAonPorRelease s
  | .railOk grp => Sys2Proof.Machine.execRailOk grp s
  | .railTimeout grp => Sys2Proof.Machine.execRailTimeout grp s
  | .railDrop grp => Sys2Proof.Machine.execRailDrop grp s
  | .tapReset => Sys2Proof.Machine.execTapReset s
  | .tapInstruction ir => Sys2Proof.Machine.execTapInstruction ir s
  | .debugHalt core halted => Sys2Proof.Machine.execDebugHalt core halted s
  | .revokeEntry req => Sys2Proof.Machine.execRevokeEntry req s
  | .revokeOwner req owner => Sys2Proof.Machine.execRevokeOwner req owner s
  | .vrgRelease req => Sys2Proof.Machine.execVrgRelease req s
  | .holdSet req => Sys2Proof.Machine.execHoldSet req s
  | .holdClr req => Sys2Proof.Machine.execHoldClr req s
  | .entryParity sel => Sys2Proof.Machine.execEntryParity sel s
  | .quarantineEnd sel => Sys2Proof.Machine.execQuarantineEnd sel s
  | .quarStuck sel => Sys2Proof.Machine.execQuarStuck sel s
  | .jrnPop req => Sys2Proof.Machine.execJrnPop req s
  | .unitFailSet req mask => Sys2Proof.Machine.execUnitFailSet req mask s
  | .unitFailed unit => Sys2Proof.Machine.execUnitFailed unit s
  | .resetReq req level => Sys2Proof.Machine.execResetReq req level s
  | .wdtKick req value => Sys2Proof.Machine.execWdtKick req value s
  | .wdtFire => Sys2Proof.Machine.execWdtFire s
  | .chanFail channel => Sys2Proof.Machine.execChanFail channel s
  | .pclkReturns port => Sys2Proof.Machine.execPclkReturns port s

end Sys2Proof.Machine
end

