-- ==== Sys2Proof/WellFormed.lean ====
section
/-! DEFINITION. Well-formed commands: the conditions on operands that their types do not already carry.
A command that breaks one is no command of the part; `step` answers a fault for it. -/

namespace Sys2Proof

/-- The conditions on a command's operands: the widths and rates of R406, the eight sensors of R465, and the five
origins and extents of R367. -/
def Instr.wellFormed : Instr → Bool
  | .linkUp w r => (w == 1 || w == 2 || w == 4) && decide (1 ≤ r.toNat ∧ r.toNat ≤ 4)
  | .loopPeriod sense => sense.temps.length == 8
  | .pieceHead _ _ m => m.origin.length == 5 && m.extent.length == 5
  | _ => true

end Sys2Proof
end

