-- ==== Sys2Proof/Machine/Step.lean ====
section
/-! DEFINITION. One step: the command at the front of the queue runs with the queue's rest; with nothing waiting
the block idles for one CK_AON tick. -/

namespace Sys2Proof.Machine

/-- With no command waiting one CK_AON tick of 40 ns passes (R29, R419): the clock and the timebase advance. -/
def State.idle (s : State) : State := s.onChip fun c => c.advance (c.time.now + 40)

/-- One step. -/
def step (s : State) : Host.Outcome State Fault Refusal :=
  match s.pending with
  | [] => .next s.idle
  | i :: rest => if i.wellFormed then exec i { s with pending := rest } else .fault .illFormed

/-- The state with the command that a word spells at the front of its queue. The table gives no row a word, so
no word spells a command. -/
def State.withFetchWord (s : State) (nbits w : Nat) : State :=
  match decodeTableWord nbits w with
  | some i => { s with pending := i :: s.pending }
  | none => s

end Sys2Proof.Machine
end

