-- ==== Sys2Proof/Safety.lean ====
section
/-! DEFINITION. What holds of every state a run of the model passes through, and the terms the statements use. -/

namespace Sys2Proof.Machine

/-- Fuse bits only ever change from 0 to 1 (R437). -/
def Fuses.le (a b : Fuses) : Prop :=
  a.variantE = b.variantE ∧ a.secureBoot = b.secureBoot ∧ a.keyHash = b.keyHash ∧
  a.keyRevoke &&& b.keyRevoke = a.keyRevoke ∧ a.arbSac &&& b.arbSac = a.arbSac ∧ a.arbPrc &&& b.arbPrc = a.arbPrc

/-- The word of the register at a device address. -/
def Chip.wordAt (c : Chip) (a : Nat) : Word := (aget c.regs a).getD (resetWord a)

/-- A register write of four bytes by a requester passes the checks of R64–R82. -/
abbrev State.passes (s : State) (req : Requester) (p off : Nat) : Prop := s.chip.gate req (regAddr p off) .b4 = .pass

/-- The registers that a write which passes the checks only stores in, by the kinds of their fields (R72): all those of some pages, and
on others all but the ones with an action of their own; no writable pair is among them. -/
def isPlain (p off : Nat) : Bool :=
  decide (0x040 ≤ off) && (regRow p off).isSome && pairLo p off != some true && pairHi p off != some true &&
  match pageClass p with
  | some .prcC | some .vec | some .ecc | some .lp5x | some .dmaC | some .pciC => true
  | some .stall => off != 0x05C
  | some .rlk | some .lxe => off != 0x040
  | some .gpio => off != 0x048 && off != 0x04C
  | some .prcE => off != 0x840
  | some .dmaP | some .dmaT => off != 0x100
  | some .pciA => off != 0x044
  | some .gslot => off != 0x078 && off != 0x0A8 && off != 0x0B0
  | _ => false

/-- At most the registers at the listed addresses differ, and what the interrupt messages that follow every command change
(R410): the queue, the fuses, memory and every other part of the chip are as before. -/
def State.onlyRegs (s t : State) (l : List Nat) : Prop :=
  t = { s with chip := { s.chip with regs := t.chip.regs, pcie := t.chip.pcie } } ∧
  ∀ a, a ∉ l → t.chip.wordAt a = s.chip.wordAt a

/-- The queue, the fuses and memory are as before. -/
def State.keepsMem (s t : State) : Prop := t.pending = s.pending ∧ t.fuses = s.fuses ∧ t.mem = s.mem

/-- The command is answered with a next state that has the property. -/
def Answers (i : Instr) (s : State) (P : State → Prop) : Prop := ∃ t, exec i s = .next t ∧ P t

/-- A queue has fetched a command of an opcode, and it has not begun to execute (R166, R174). -/
abbrev State.fetched (s : State) (q op : Nat) (r : Running) : Prop :=
  s.chip.running q = some r ∧ r.op = op ∧ r.executed = false ∧ r.finished = false ∧ r.status = 0 ∧ r.awaiting = []

/-- A frame of a graph posted the command of a queue at a count (R315). -/
def Chip.posted (c : Chip) (q : Nat) (n : Word) : Bool :=
  c.prc.slots.any fun g => g.2.frames.any fun f => f.cmds.any fun k => k.q == q && k.count == n

/-- What a command that touches memory starts from. -/
def State.work (s : State) : Work := { chip := s.chip, mem := s.mem, fuses := s.fuses, ops := [] }

/-- The byte at a device address, and the state of the granule that starts there; none is clean (R104). -/
def State.byte (s : State) (pa : Nat) : Byte := s.work.byteAt pa
def State.mark (s : State) (pa : Nat) : Option Mark := s.work.markOf pa

/-- Memory is as before but for the device addresses named: every other byte and granule reads as before, and host memory is
untouched. -/
def State.memBut (s t : State) (named : Nat → Prop) : Prop :=
  (∀ pa, ¬ named pa → t.byte pa = s.byte pa ∧ t.mark pa = s.mark pa) ∧ t.mem.host = s.mem.host ∧ t.mem.hostEp = s.mem.hostEp

/-- A fetched command after an execution without error (R173, R175), and after one that ended with a code (R184). -/
def Running.ended (r : Running) (c : Chip) (q : Nat) (st : Stats) : Running :=
  { r with executed := true, finished := true, sat := r.sat + st.sat, clamped := r.clamped + st.clamped,
           dropped := r.dropped + st.dropped, poison := r.poison || st.poison, flooded := r.flooded || st.flooded,
           debug := r.debug || c.debugOn (pgQ q :: c.unitPages (unitOf q)) }
def Running.failed (r : Running) (c : Chip) (q e : Nat) : Running :=
  { r with executed := true, finished := true, status := e, debug := r.debug || c.debugOn (pgQ q :: c.unitPages (unitOf q)) }

/-- The chip and memory after a computation over the work in hand: its memory changes made in their order. -/
def State.after (s t : State) (w : Work) (f : Chip → Chip) : Prop :=
  t.pending = s.pending ∧ t.fuses = s.fuses ∧ t.mem = s.mem.applyAll w.ops.reverse ∧ t.chip = (f w.chip).settle

/-- A command of a queue executes: from a fetched command of the opcode, while the clocks run and where the condition holds, it is
finished after it, and what its body computes is done and counted, a start check of the opcode that fails leaves memory as it stands with the check's code, and an error of the
execution ends the command with its code. -/
def Executes (i : Instr) (q : Fin 128) (op : Nat) (body : Nat → Running → EM Stats) (cond : State → Running → Prop) : Prop :=
  ∀ (s : State) (r : Running), s.fetched q op r → s.chip.tripped = false → cond s r →
    (Answers i s fun t => (t.chip.running q).any Running.finished = true) ∧
    (∀ st w, (runBody q (body q) r).run s.work = (.ok st, w) →
      Answers i s fun t => s.after t w fun c => c.setRunning q (some (r.ended s.chip q st))) ∧
    (∀ e w, (runBody q (body q) r).run s.work = (.error e, w) → e < 0x20 ∨ 0x80 ≤ e →
      Answers i s fun t => s.after t w fun c => c.setRunning q (some (r.failed s.chip q e))) ∧
    (∀ e w, (runBody q (body q) r).run s.work = (.error e, w) → 0x20 ≤ e → e < 0x80 →
      Answers i s fun t => t.chip.running q = some (r.failed s.chip q e))

/-- A sequenced flit arrives in order at a port that is UP (R356), and the chip once it has accepted that flit: its ACK and its
credits are taken (R356, R357), and the next number is expected. -/
abbrev Chip.inOrder (c : Chip) (p : Nat) (h : FlitHdr) : Prop :=
  c.portState p = lpUp ∧ h.vc.toNat < 5 ∧ h.seq.toNat = (c.lport p).rxNext
def Chip.flitTaken (c : Chip) (p : Nat) (h : FlitHdr) : Chip :=
  let d := c.goodFlit p h
  d.setLport p { d.lport p with rxNext := ((d.lport p).rxNext + 1) % 1024, naking := false }

/-- A request reaches a Carillon device, which has not had it before and takes it (R380, R387, R390, R397): every pass switch before
the device is closed, the request names its address, and the device is of the command's class and free to answer. -/
def Chip.carAsked (c : Chip) (n k : Nat) (t : CarTxn) : Prop :=
  let d := c.carDev n k
  (c.chain n).txn = some t ∧ t.sent ≠ [] ∧ t.reply = none ∧ c.chainOn n = true ∧ c.reached n k = true ∧ t.addr = d.addr ∧
  (∀ x, d.stored = some x → x.1 ≠ t.sent) ∧ (d.cls = 0 ∨ cmdClass t.cmd = 0 ∨ d.cls = cmdClass t.cmd) ∧
  ((d.plate.st ≠ 2 ∧ d.plate.st ≠ 3) ∨ t.cmd = 0x01 ∨ t.cmd = 0x20)

/-- The device has answered a request with a STATUS and a payload: it stores the request with the reply, which is on its way. -/
def Chip.carReplied (c : Chip) (n k : Nat) (t : CarTxn) (status : Nat) (data : List Byte) : Chip :=
  let r : List Byte := BitVec.ofNat 8 status :: BitVec.ofNat 8 data.length :: data
  let d := c.setDev n k { c.carDev n k with stored := some (t.sent, r) }
  d.setChain n { d.chain n with txn := some { t with reply := some r } }

end Sys2Proof.Machine
end

