-- ==== Sys2Proof/Certificates/Slice0/Obligations.lean ====
section
/-! DEFINITION. What is stated of the model, for the provers. -/

open Sys2Proof Sys2Proof.Machine

/-! The machine as a whole. -/

/-- A step with a well-formed command at the front of the queue is that command's meaning with the queue's rest. -/
def Obligations.StepRunsFrontCommand : Prop :=
  ∀ (c : Instr) (rest : List Instr) (s : State), c.wellFormed = true →
    step { s with pending := c :: rest } = exec c { s with pending := rest }

/-- A command whose operands no part could send stops the model by name, and with nothing waiting one CK_AON tick of 40 ns
passes: the clock and the timebase move, and no register but OFFSET_SLEW and what a waiting timebase step sets. Both are the
model's own choices (log entry 1). -/
def Obligations.StepWithoutCommand : Prop :=
  (∀ (c : Instr) (rest : List Instr) (s : State), c.wellFormed = false →
    step { s with pending := c :: rest } = .fault .illFormed) ∧
  (∀ s : State, ∃ t, step { s with pending := [] } = .next t ∧ t.chip.time.now = s.chip.time.now + 40 ∧
    t.pending = [] ∧ t.mem = s.mem ∧ t.fuses = s.fuses ∧
    ∀ a, a ∉ [regAddr 0x0D0 0x054, regAddr 0x0D0 0x0A0, regAddr 0x0D0 0x014] → t.chip.wordAt a = s.chip.wordAt a)

/-- Which operands make a command: link widths of 1, 2 and 4 lanes at generations 1 to 4, eight sensors, five origins and
extents; every other command is one whatever its operands. -/
def Obligations.WellFormedOperands : Prop :=
  (∀ w r : BitVec 3, (Instr.linkUp w r).wellFormed = true ↔ (w = 1 ∨ w = 2 ∨ w = 4) ∧ 1 ≤ r.toNat ∧ r.toNat ≤ 4) ∧
  (∀ m : LoopSense, (Instr.loopPeriod m).wellFormed = true ↔ m.temps.length = 8) ∧
  (∀ p h m, (Instr.pieceHead p h m).wellFormed = true ↔ m.origin.length = 5 ∧ m.extent.length = 5) ∧
  (∀ i : Instr, i.wellFormed = false → (∃ w r, i = .linkUp w r) ∨ (∃ m, i = .loopPeriod m) ∨ ∃ p h m, i = .pieceHead p h m)

/-- Every command is answered with a next state, and leaves the queue of waiting commands as it finds it. -/
def Obligations.EveryCommandAnswers : Prop :=
  ∀ (i : Instr) (s : State), ∃ t, exec i s = .next t ∧ t.pending = s.pending

/-- The waiting commands run first in, first out: a step that goes on takes exactly the front one. -/
def Obligations.QueueIsFirstInFirstOut : Prop :=
  ∀ s t : State, step s = .next t → t.pending = s.pending.tail

/-- Every step keeps memory in its canonical form: addresses strictly rising, and no Cloister cell listed with the 0 that an
unlisted one reads as. -/
def Obligations.MemoryStaysCanonical : Prop :=
  ∀ s t : State, s.mem.wf = true → step s = .next t → t.mem.wf = true

/-- Fuse bits only ever change from 0 to 1, whatever step is taken. -/
def Obligations.FusesOnlyRise : Prop :=
  ∀ s t : State, step s = .next t → s.fuses.le t.fuses

/-- Only the mailbox requests ARB_COMMIT and KEY_REVOKE program a fuse. -/
def Obligations.OnlyMailboxProgramsFuses : Prop :=
  ∀ (i : Instr) (s t : State), (∀ b, i ≠ .arbCommit b) → (∀ b, i ≠ .keyRevoke b) → exec i s = .next t → t.fuses = s.fuses

/-- After reset the queue is empty, memory lists nothing, every register reads its reset value, no entry of the Verger is held, and
no queue runs a command: the machine meets the invariants that every step keeps.
Where it rests on choices of the model, they are those of log entries 7, 9 and 19. -/
def Obligations.ResetState : Prop :=
  State.reset.pending = [] ∧ State.reset.mem.wf = true ∧ State.reset.mem.cells = [] ∧
  (∀ p off, State.reset.chip.rd p off = resetWord (regAddr p off)) ∧
  (∀ p : Fin 4096, State.reset.chip.leaseState p = 0 ∧ State.reset.chip.leaseOwner p = 0) ∧
  (∀ sel, State.reset.chip.selState sel = 0) ∧
  State.reset.chip.running = fun _ => none

/-- Reset values that the register tables give: ALLOWED, IN_SERVICE and CHO_MHZ of the Choir, REDIRECT of a stall, the
chapter of one, and the armed vectors. -/
def Obligations.ResetRegisterValues : Prop :=
  let c := State.reset.chip
  c.rd 0x060 0x040 = 0xFFFFFFFF#32 ∧ c.rd 0x060 0x044 = 0x3FFFFFFF#32 ∧ c.fld 0x060 0x04C 0 11 = 600 ∧
  (∀ k : Fin 32, c.fld (pgStall k) 0x058 0 5 = k) ∧
  c.fld 0x0B4 0x044 24 8 = 1 ∧ c.fld 0x0B4 0x044 16 8 = 1 ∧ c.fld 0x0B4 0x044 12 4 = 1 ∧ c.bit 0x0B4 0x044 8 = true ∧
  c.fld 0x0B4 0x044 4 3 = 0 ∧ c.fld 0x0B4 0x044 0 3 = 0 ∧ c.pcie.armed = BitVec.allOnes 64

/-! The register bus (chapter 3). -/

/-- What the checks before a register write make of it, in their order (R64, R66, R68, R70, R77, R82, R83, R443, R486): an unallocated page
logs UNMAPPED and a wrong size SIZE_ERR on the SYS page, a stopped home clock or a write that gets no answer logs BUS_TIMEOUT, a Verger
page takes SAC alone, a quarantined page and another holder's page set WR_DENIED, a page that LIMITED mode holds ignores the write, and
a page in soft reset logs WR_IN_RESET. LEASE and SCRATCH are taken whoever holds the page. An override sequence in progress on page
0x008 has a rule of its own (R444).
Where it rests on choices of the model, they are those of log entries 15 and 21. -/
def Obligations.RegisterWriteChecks : Prop :=
  ∀ (req : Requester) (addr : BitVec 24) (size : RegSize) (v : Word) (s : State),
    let p := addr.toNat / 0x1000
    let off := addr.toNat % 0x1000
    let c := s.chip
    (p = 0x008 → c.pwr.ovrCount = 0) →
    (pageClass p = none → size = .b1 ∨ size = .b2 ∨ size = .b4 →
      exec (.registerWrite req addr size v) s = .next (s.onChip fun c => c.logUse 0x000 0x02 req addr.toNat)) ∧
    (pageClass p ≠ none → size = .b1 ∨ size = .b2 →
      exec (.registerWrite req addr size v) s = .next (s.onChip fun c => c.logUse 0x000 0x01 req addr.toNat)) ∧
    (pageClass p ≠ none → exec (.busTimeout req addr false) s = .next (s.onChip fun c =>
      (c.advance (c.time.now + 10240)).logErr 0x000 clsAccess 0x20 (ownerCode req) (word addr.toNat))) ∧
    (pageClass p ≠ none → c.clockStopped p = true →
      exec (.registerWrite req addr .b4 v) s =
        .next (s.onChip fun c => c.logErr 0x000 clsAccess 0x20 (ownerCode req) (word addr.toNat))) ∧
    (pageClass p ≠ none → c.clockStopped p = false → isVrgPage p = true → req ≠ .sac → ¬(req = .host ∧ p = 0x005 ∧ off = 0x068) →
      exec (.registerWrite req addr .b4 v) s = .next (s.onChip fun c => c.raise p 29)) ∧
    (pageClass p ≠ none → c.clockStopped p = false → isVrgPage p = false → off ≠ 0x028 → off ≠ 0x030 →
      (c.leaseState p = 2 → exec (.registerWrite req addr .b4 v) s = .next (s.onChip fun c => c.raise p 29)) ∧
      (c.leaseState p = 1 → c.leaseOwner p ≠ ownerCode req →
        exec (.registerWrite req addr .b4 v) s = .next (s.onChip fun c => c.raise p 29)) ∧
      (c.leaseState p ≠ 2 → (c.leaseState p = 1 → c.leaseOwner p = ownerCode req) →
        (c.pwr.held = true → heldBlock p = true → exec (.registerWrite req addr .b4 v) s = .next (s.onChip id)) ∧
        (c.pwr.held = false ∨ heldBlock p = false → 0x040 ≤ off → c.resetBusy p = true →
          exec (.registerWrite req addr .b4 v) s = .next (s.onChip fun c => c.logUse p 0x03 req addr.toNat))))

/-- A write that passes the checks: SCRATCH takes the word, IRQ_EN the bits the page has, IRQ_RAW clears the bits written 1, and an
offset without a register ignores the write. A register that has no action of its own takes the word by the kinds of its fields: the
RW and CNT bits take it, the W1C bits written 1 fall, and every other bit stays; one that is locked logs its code. LO of a writable
pair is held for its requester, and HI (as REGISTER_WRITE or HI_WRITE) makes both halves take effect together, or alone where the
requester holds no LO; an 8-byte write of the host is the two in order; HI_WRITE elsewhere does nothing
(R64, R65, R67, R72, R76).
Where it rests on choices of the model, they are those of log entries 16 and 18. -/
def Obligations.RegisterWriteTakes : Prop :=
  ∀ (req : Requester) (v : Word) (s : State) (p : Fin 4096) (k : Fin 1024), p.val ≠ 0x008 →
    let off := 4 * k.val
    let at_ := fun (o : Nat) => BitVec.ofNat 24 (regAddr p o)
    (s.passes req p 0x030 → exec (.registerWrite req (at_ 0x030) .b4 v) s = .next (s.onChip fun c => c.wr p 0x030 v)) ∧
    (s.passes req p 0x018 → exec (.registerWrite req (at_ 0x018) .b4 v) s = .next (s.onChip fun c => c.wr p 0x018 (v &&& irqMask p))) ∧
    (s.passes req p 0x014 → exec (.registerWrite req (at_ 0x014) .b4 v) s = .next (s.onChip fun c => c.irqClear p v 0)) ∧
    (s.passes req p 0x034 → exec (.registerWrite req (at_ 0x034) .b4 v) s = .next (s.onChip id)) ∧
    (s.passes req p off → isPlain p off = true →
      (∀ r, regRow p off = some r → r.w1s = 0 → s.chip.locked p off = none →
        exec (.registerWrite req (at_ off) .b4 v) s = .next (s.onChip fun c =>
          let takes := r.rw ||| r.cnt
          c.wr p off (((c.rd p off &&& ~~~takes) ||| (v &&& takes)) &&& ~~~(v &&& r.w1c)))) ∧
      (∀ e, s.chip.locked p off = some e →
        exec (.registerWrite req (at_ off) .b4 v) s = .next (s.onChip fun c => c.logUse p e req (regAddr p off)))) ∧
    (pairLo p off = some true → pairLo p (off + 4) = none → regAddr p off ≠ regAddr 0x0D0 0x048 →
      let key := reqKey (regAddr p off) req
      let hold := fun (c : Chip) (lo : Word) => { c with bus := { c.bus with held := aput c.bus.held key lo } }
      let drop := fun (c : Chip) => { c with bus := { c.bus with held := adel c.bus.held key } }
      (s.passes req p off → exec (.registerWrite req (at_ off) .b4 v) s = .next (s.onChip fun c => hold c v)) ∧
      (s.passes req p (off + 4) →
        exec (.hiWrite req (at_ (off + 4)) v) s = exec (.registerWrite req (at_ (off + 4)) .b4 v) s ∧
        (s.chip.lockedPair p (off + 4) = none →
          (∀ lo, aget s.chip.bus.held key = some lo → exec (.hiWrite req (at_ (off + 4)) v) s = .next (s.onChip fun c =>
            ((drop c).plain p off lo).plain p (off + 4) v)) ∧
          (aget s.chip.bus.held key = none →
            exec (.hiWrite req (at_ (off + 4)) v) s = .next (s.onChip fun c => c.plain p (off + 4) v)) ∧
          (s.passes req p off → ∀ lo, exec (.registerWrite req (at_ off) (.b8 v) lo) s = .next (s.onChip fun c =>
            ((drop (hold c lo)).plain p off lo).plain p (off + 4) v))) ∧
        (∀ e, s.chip.lockedPair p (off + 4) = some e →
          exec (.hiWrite req (at_ (off + 4)) v) s = .next (s.onChip fun c => (drop c).logUse p e req (regAddr p (off + 4)))))) ∧
    (pairHi p off ≠ some true → exec (.hiWrite req (at_ off) v) s = .next (s.onChip id))

/-- A register read answers its requester and changes nothing else but the pair's shadow (R64, R66, R76, R77): the LO word of a pair
answers LO and puts HI in this requester's shadow, HI answers that shadow, every other register answers its word; an unallocated page
answers 0 and logs UNMAPPED. A read of 1 or 2 bytes answers the bytes addressed, and one of 8 bytes of a pair both halves. A read that
gets no answer within 4096 CK_MGT cycles (10.24 us) answers all ones and logs BUS_TIMEOUT with its address and requester, and a write
that gets none is discarded and logged so. The clock of a page's register logic stops in SLEEP, and in IDLE for CK_CHO and CK_VEC,
alone. -/
def Obligations.RegisterReads : Prop :=
  (∀ (req : Requester) (addr : BitVec 24) (size : AccSize) (s : State),
    let p := addr.toNat / 0x1000
    let off := addr.toNat % 0x1000 / 4 * 4
    let c := s.chip
    let answers := fun (size : AccSize) (v : Nat) (f : Chip → Chip) =>
      exec (.loRead req ⟨addr, size⟩) s = .next (s.onChip fun c =>
        (f c).reply (ownerCode req - 1) (.data (BitVec.ofNat 64 (v / 256 ^ (addr.toNat % 4) % 256 ^ size.bytes))))
    let shadow := fun (c : Chip) =>
      { c with bus := { c.bus with shadows := aput c.bus.shadows (reqKey (regAddr p off) req) (c.answer p (off + 4)) } }
    (pageClass p = none → size ≠ .b8 → answers size 0 fun c => c.logUse 0x000 0x02 req addr.toNat) ∧
    (pageClass p ≠ none → c.clockStopped p = false →
      (pairLo p off ≠ none → size ≠ .b8 → answers size (c.answer p off).toNat shadow) ∧
      (pairLo p off ≠ none → pairLo p (off + 4) = none → addr.toNat % 8 = 0 →
        answers .b8 ((c.answer p off).toNat + 2 ^ 32 * (c.answer p (off + 4)).toNat) shadow) ∧
      (pairLo p off = none → pairHi p off ≠ none → size ≠ .b8 →
        answers size ((aget c.bus.shadows (reqKey (regAddr p (off - 4)) req)).getD 0).toNat id) ∧
      (pairLo p off = none → pairHi p off = none → size ≠ .b8 → answers size (c.answer p off).toNat id) ∧
      (pairLo p off = none → pairHi p off = none → pairLo p (off + 4) = none → pairHi p (off + 4) = none → addr.toNat % 8 = 0 →
        answers .b8 ((c.answer p off).toNat + 2 ^ 32 * (c.answer p (off + 4)).toNat) id))) ∧
  (∀ (req : Requester) (addr : BitVec 24) (s : State),
    (pageClass (addr.toNat / 0x1000) ≠ none → exec (.busTimeout req addr true) s = .next (s.onChip fun c =>
      ((c.advance (c.time.now + 10240)).logErr 0x000 clsAccess 0x20 (ownerCode req) (word addr.toNat)).reply
        (ownerCode req - 1) (.data 0xFFFFFFFF))) ∧
    (pageClass (addr.toNat / 0x1000) ≠ none → exec (.busTimeout req addr false) s = .next (s.onChip fun c =>
      (c.advance (c.time.now + 10240)).logErr 0x000 clsAccess 0x20 (ownerCode req) (word addr.toNat))) ∧
    (pageClass (addr.toNat / 0x1000) = none → ∀ read, exec (.busTimeout req addr read) s = .next (s.onChip id))) ∧
  ∀ (c : Chip) (p : Nat), c.clockStopped p = true → c.pstate = 2 ∨ c.pstate = 1 ∧ (0x020 ≤ p ∧ p ≤ 0x034 ∨ 0x040 ≤ p ∧ p ≤ 0x060)

/-- Snapshots (R74, R78), on every page and for every mask of groups: SNAP_TAKE copies the registers of the page's groups that are
asked for, shows them frozen with the requester's code as SNAP owner, and from then on a read of such a register answers the copy
whatever the counter does; SNAP_RELEASE drops the copies, and a read answers the register again. Groups that are not asked for keep
theirs. Both need the checks of a write alone, and change no other register. -/
def Obligations.Snapshots : Prop :=
  ∀ (req : Requester) (page : Fin 4096) (groups : BitVec 8) (s : State), s.passes req page 0x02C →
    (page.val = 0x008 → s.chip.pwr.ovrCount = 0) →
    let asked := groups.toNat &&& snapMask page
    let others := fun (t : State) => s.keepsMem t ∧ ∀ a, a ≠ regAddr page 0x02C → t.chip.wordAt a = s.chip.wordAt a
    let same := fun (t : State) (off : Nat) =>
      t.chip.frozenGroup page off = s.chip.frozenGroup page off ∧
      aget t.chip.bus.frozen (regAddr page off) = aget s.chip.bus.frozen (regAddr page off)
    Answers (.snapTake req page groups) s (fun t =>
      others t ∧ t.chip.fld page 0x02C 8 8 = s.chip.fld page 0x02C 8 8 ||| asked ∧
      t.chip.fld page 0x02C 20 4 = (if asked = 0 then s.chip.fld page 0x02C 20 4 else ownerCode req) ∧
      ∀ (k : Fin 1024) (g : Nat), snapGroupOf page (4 * k) = some g →
        (bits asked g 1 = 1 → ∀ d : Chip, d.bus = t.chip.bus → d.rd page 0x02C = t.chip.rd page 0x02C → d.pwr.held = false →
          d.answer page (4 * k) = s.chip.live page (4 * k)) ∧
        (bits asked g 1 = 0 → same t (4 * k))) ∧
    Answers (.snapRelease req page groups) s (fun t =>
      others t ∧ t.chip.fld page 0x02C 8 8 = s.chip.fld page 0x02C 8 8 &&& (255 - asked) ∧
      t.chip.fld page 0x02C 20 4 = s.chip.fld page 0x02C 20 4 ∧
      ∀ (k : Fin 1024) (g : Nat), snapGroupOf page (4 * k) = some g →
        (bits asked g 1 = 1 → t.chip.frozenGroup page (4 * k) = false ∧ aget t.chip.bus.frozen (regAddr page (4 * k)) = none ∧
          (t.chip.pwr.held = false → t.chip.answer page (4 * k) = t.chip.live page (4 * k))) ∧
        (bits asked g 1 = 0 → same t (4 * k)))

/-- Soft reset and interrupt causes (R68, R69, R70, R72, R74, R526): SOFT_RESET shows RESET_BUSY and then has the effect of the page's
chapter; on a page whose chapter names no transient state that is all, on a stall's page the running tile is abandoned, on the memory
page the scrubber begins again, and a reset in progress goes on. SOFT_RESET_DONE clears both bits and deals abandoned tiles again, but
for a DMA channel that still runs. IRQ_FORCE sets the bits that the page has; IRQ_RAW_CLEAR clears those written, and an event of the
same cycle stands.
Where it rests on choices of the model, they are those of log entries 18 and 22. -/
def Obligations.SoftResetAndCauses : Prop :=
  (∀ (req : Requester) (page : Fin 4096) (s : State), s.passes req page 0x00C → (page.val = 0x008 → s.chip.pwr.ovrCount = 0) →
    let busy := fun (c : Chip) => (c.setBit page 0x00C 1 true).setBit page 0x010 0 true
    (s.chip.resetBusy page = true → exec (.softReset req page) s = .next (s.onChip id)) ∧
    (s.chip.resetBusy page = false →
      (Answers (.softReset req page) s fun t => s.after t ((softResetEffect page) { s.work with chip := busy s.chip }).2 id) ∧
      ([some .sys, some .clk, some .pwr, some .therm, some .prcE, some .cls, some .lp5x, some .gslot, some .gpio, some .stat].contains
          (pageClass page) = true → exec (.softReset req page) s = .next (s.onChip busy)) ∧
      (pageClass page = some .ecc → exec (.softReset req page) s = .next (s.onChip fun c =>
        let d := busy c
        { d with memc := { c.memc with scrubRow := 0 } })) ∧
      (pageClass page = some .stall → exec (.softReset req page) s = .next (s.onChip fun c => (busy c).abandonTile (page - 0x040))))) ∧
  (∀ (page : Fin 4096) (s : State), s.chip.resetBusy page = true → s.chip.resetWaits page = false → page.val ≠ 0x0B4 →
    exec (.softResetDone page) s = .next (s.onChip fun c =>
      let d := if page.val = 0x010 then { c with fw := { c.fw with prcLost := false, prcTold := false } } else c
      (List.range 32).foldl Chip.redealTile ((d.setBit page 0x00C 1 false).setBit page 0x010 0 false))) ∧
  (∀ (s : State), s.chip.resetBusy 0x0B4 = true → Answers (.softResetDone 0x0B4) s fun t =>
    let d := (List.range 32).foldl Chip.redealTile ((s.chip.setBit 0x0B4 0x00C 1 false).setBit 0x0B4 0x010 0 false)
    s.after t (unpark { s.work with chip := d }).2 id) ∧
  (∀ (page : Fin 4096) (s : State), s.chip.resetWaits page = true ∨ s.chip.resetBusy page = false →
    exec (.softResetDone page) s = .next (s.onChip id)) ∧
  (∀ (req : Requester) (page : Fin 4096) (mask hw : Word) (s : State), (page.val = 0x008 → s.chip.pwr.ovrCount = 0) →
    (s.passes req page 0x01C → Answers (.irqForce req page mask) s fun t =>
      t.chip.rd page 0x014 = s.chip.rd page 0x014 ||| (mask &&& irqMask page) ∧ s.keepsMem t ∧
      ∀ a, a ≠ regAddr page 0x014 → t.chip.wordAt a = s.chip.wordAt a) ∧
    (s.passes req page 0x014 → Answers (.irqRawClear req page mask hw) s fun t =>
      t.chip.rd page 0x014 = (s.chip.rd page 0x014 &&& ~~~mask) ||| (hw &&& irqMask page) ∧ s.keepsMem t ∧
      ∀ a, a ≠ regAddr page 0x014 → t.chip.wordAt a = s.chip.wordAt a))

/-- Page leases (R79, R80, R81): ACQUIRE of a FREE page makes it HELD by the requester with the next EPOCH, by its holder renews it,
and while another holds it or with a timeout of 0 does nothing; RENEW and RELEASE (STATE FREE, EPOCH as it was) are the holder's, and
another's sets WR_DENIED; a register write with more than one of the three bits set is ignored and logged as CFG_INVALID on the page. -/
def Obligations.PageLeases : Prop :=
  ∀ (req : Requester) (page : Fin 4096) (ms : BitVec 8) (s : State), s.passes req page 0x028 → isVrgPage page = false →
    (page.val = 0x008 → s.chip.pwr.ovrCount = 0) →
    let c := s.chip
    (c.leaseState page = 0 → ms ≠ 0 → exec (.acquire req page ms) s = .next (s.onChip fun c =>
      (c.wr page 0x028 (word ((c.fld page 0x028 24 8 + 1) % 256 * 2 ^ 24 + ms.toNat * 2 ^ 16 + ownerCode req * 2 ^ 8 + 2 ^ 4))).setLeaseAux
        page { c.leaseAux page with state := 1, since := c.time.now })) ∧
    (c.leaseState page = 1 → c.leaseOwner page = ownerCode req → ms ≠ 0 →
      (∀ i, i = Instr.acquire req page ms ∨ i = .renew req page ms → exec i s = .next (s.onChip fun c =>
        (c.setFld page 0x028 16 8 ms.toNat).setLeaseAux page { c.leaseAux page with state := 1, since := c.time.now }))) ∧
    (c.leaseState page = 1 → c.leaseOwner page = ownerCode req → Answers (.leaseRelease req page) s fun t =>
        s.keepsMem t ∧ t.chip.leaseState page = 0 ∧ t.chip.leaseOwner page = 0 ∧ t.chip.fld page 0x028 24 8 = c.fld page 0x028 24 8 ∧
        ∀ a, a ≠ regAddr page 0x028 → t.chip.wordAt a = c.wordAt a) ∧
    (c.leaseState page ≠ 0 → c.holds req page = false → exec (.acquire req page ms) s = .next (s.onChip id)) ∧
    (c.holds req page = false → ∀ i, i = Instr.renew req page ms ∨ i = .leaseRelease req page →
      exec i s = .next (s.onChip fun c => c.raise page 29)) ∧
    exec (.acquire req page 0) s = .next (s.onChip id) ∧
    (c.leaseState page = 1 → c.leaseOwner page = ownerCode req → exec (.renew req page 0) s = .next (s.onChip id)) ∧
    (∀ v : Word, 1 < (v.getLsbD 0).toNat + (v.getLsbD 1).toNat + (v.getLsbD 2).toNat →
      exec (.registerWrite req (BitVec.ofNat 24 (regAddr page 0x028)) .b4 v) s =
        .next (s.onChip fun c => c.logUse page 0x05 req (regAddr page 0x028)))

/-! Memory and the Rood (chapter 4). -/

/-- Cloister's control (R89, R91, R108, R114, R527): enabling zeroes every Cloister byte and its state, takes 512 KiB per retired bank
off the capacity and shows INIT until CLS_INIT_DONE, 65 536 CK_FAB cycles later; disabling keeps the content; either does nothing
where Cloister is so already. A write to CLS_SKEW_n takes every bit but those of row-blocks that a registered region pins, and logs
SKEW_PINNED where it would change one.
Where it rests on choices of the model, they are those of log entries 2 and 11. -/
def Obligations.CloisterControl : Prop :=
  (∀ (req : Requester) (s : State), s.passes req 0x070 0x00C →
    (s.chip.enabled 0x070 = false → Answers (.clsEnable req) s fun t =>
      (∀ pa, target pa = .cls → t.byte pa = 0 ∧ t.mark pa = none) ∧ s.memBut t (fun pa => target pa = .cls) ∧
      t.pending = s.pending ∧ t.fuses = s.fuses ∧ t.chip.enabled 0x070 = true ∧ t.chip.bit 0x070 0x010 8 = true ∧
      t.chip.fld 0x070 0x044 0 12 = 2048 - 32 * (retiredBanks (s.chip.rd 0x070 0x040).toNat).length ∧
      t.chip.memc.clsRetired = retiredBanks (s.chip.rd 0x070 0x040).toNat ∧ t.chip.memc.clsInitAt = s.chip.time.now ∧
      ∀ a, a ∉ [regAddr 0x070 0x00C, regAddr 0x070 0x010, regAddr 0x070 0x044] → t.chip.wordAt a = s.chip.wordAt a) ∧
    (s.chip.enabled 0x070 = true → exec (.clsEnable req) s = .next (s.onChip id)) ∧
    (s.chip.enabled 0x070 = true → exec (.clsDisable req) s = .next (s.onChip fun c =>
      let d := (c.setBit 0x070 0x00C 0 false).setBit 0x070 0x010 8 false
      { d with memc := { d.memc with pendingWb := c.memc.pendingWb.filter fun g => target g != .cls } })) ∧
    (s.chip.enabled 0x070 = false → exec (.clsDisable req) s = .next (s.onChip id))) ∧
  (∀ s : State,
    (s.chip.bit 0x070 0x010 8 = true → exec .clsInitDone s = .next (s.onChip fun c =>
      let d := (c.advance (c.memc.clsInitAt + 65536)).setBit 0x070 0x010 8 false
      { d with memc := { d.memc with scrubRow := 0 } })) ∧
    (s.chip.bit 0x070 0x010 8 = false → exec .clsInitDone s = .next (s.onChip id))) ∧
  (∀ (req : Requester) (n : Fin 64) (v : Word) (s : State), s.passes req 0x070 (0x080 + 4 * n) →
    Answers (.clsSkewWrite req n v) s fun t =>
      s.keepsMem t ∧
      (∀ b : Fin 32, t.chip.bit 0x070 (0x080 + 4 * n) b =
        if s.chip.pinned (32 * n + b) then s.chip.bit 0x070 (0x080 + 4 * n) b else v.getLsbD b) ∧
      (t.chip.vrg.journal = s.chip.vrg.journal ↔
        (∀ b : Fin 32, s.chip.pinned (32 * n + b) = true → s.chip.bit 0x070 (0x080 + 4 * n) b = v.getLsbD b) ∨
          256 ≤ s.chip.vrg.journal.length) ∧
      (t.chip.rd 0x070 0x014 = s.chip.rd 0x070 0x014 ∨ t.chip.fld 0x070 0x020 20 8 = 0x08) ∧
      ∀ a, a ∉ [regAddr 0x070 (0x080 + 4 * n), regAddr 0x070 0x014, regAddr 0x070 0x020, regAddr 0x070 0x024, regAddr 0x005 0x05C] →
        t.chip.wordAt a = s.chip.wordAt a)

/-- LP5X's control (R93, R94, R96, R117, R528): an enable under the configuration that the content was enabled under before only sets
ENABLE, and LP5X_INIT_DONE then leaves the content; another enable leaves no usable capacity, and LP5X_INIT_DONE then gives the
capacity of the configuration with every byte undefined, or CFG_INVALID where the organisation is not supported. A disable keeps both.
Where it rests on choices of the model, they are those of log entries 9, 63 and 79. -/
def Obligations.Lp5xControl : Prop :=
  (∀ (req : Requester) (s : State), s.passes req 0x088 0x00C →
    (s.chip.enabled 0x088 = false →
      (s.chip.memc.lpCfg = some (s.chip.rd 0x088 0x040) →
        exec (.lp5xEnable req) s = .next (s.onChip fun c => c.setBit 0x088 0x00C 0 true)) ∧
      (s.chip.memc.lpCfg ≠ some (s.chip.rd 0x088 0x040) → exec (.lp5xEnable req) s = .next (s.onChip fun c =>
        let d := (c.setBit 0x088 0x00C 0 true).wr 0x088 0x044 0
        { d with memc := { d.memc with lpCfg := some (c.rd 0x088 0x040), lpInit := true } }))) ∧
    (s.chip.enabled 0x088 = true → exec (.lp5xEnable req) s = .next (s.onChip id)) ∧
    exec (.lp5xDisable req) s = .next (s.onChip fun c => c.setBit 0x088 0x00C 0 false)) ∧
  (∀ s : State,
    let cfg := s.chip.rd 0x088 0x040
    (s.chip.enabled 0x088 = false ∨ s.chip.memc.lpInit = false → exec .lp5xInitDone s = .next (s.onChip id)) ∧
    (s.chip.enabled 0x088 = true → s.chip.memc.lpInit = true →
      (lpCfgOk cfg = true → Answers .lp5xInitDone s fun t =>
        t.pending = s.pending ∧ t.fuses = s.fuses ∧ t.chip.lpCap = lpMiB cfg * 2 ^ 20 ∧ t.chip.memc.lpInit = false ∧
        t.chip.memc.lpCfg = s.chip.memc.lpCfg ∧ t.chip.memc.lpEpoch = s.chip.memc.lpEpoch + 1 ∧
        (∀ pa, target pa = .lp5x → t.byte pa = Config.lp5xByte (s.chip.memc.lpEpoch + 1) pa) ∧
        (∀ r ∈ t.mem.cells, target r.1 ≠ .lp5x) ∧ s.memBut t (fun pa => target pa = .lp5x) ∧
        ∀ a, a ≠ regAddr 0x088 0x044 → t.chip.wordAt a = s.chip.wordAt a) ∧
      (lpCfgOk cfg = false → exec .lp5xInitDone s = .next (s.onChip fun c => c.logErr 0x088 clsUse 0x05 0 0))))

/-- The errors that memory keeps (R95, R104, R107, R108, R111, R140): an upset of a Cloister granule marks it, and of a poisoned one does
nothing; one that the link of LP5X corrects is counted while link ECC is on; the scrubber, where its row holds no error, moves a row
on, over 65 536 rows; a pending write-back leaves the granule clean with the bytes it held; and FLT_POP discards the oldest fault
record.
Where it rests on choices of the model, they are those of log entries 10, 78 and 80. -/
def Obligations.MemoryErrors : Prop :=
  (∀ (pa : Nat) (unc : Bool) (s : State), target pa = .cls → s.chip.scrubbing = false →
    (s.mark (pa / 8 * 8) ≠ some .poison → exec (.scrubAccess [.granule pa unc]) s =
      .next { s.onChip id with mem := s.mem.apply (.mark (s.chip.clsCell (pa / 8 * 8)) (some (if unc then .ue else .ce))) }) ∧
    (s.mark (pa / 8 * 8) = some .poison → exec (.scrubAccess [.granule pa unc]) s = .next (s.onChip id))) ∧
  (∀ s : State, s.chip.scrubbing = false → exec (.scrubAccess [.link]) s = .next (s.onChip fun c =>
    if c.enabled 0x088 = true ∧ c.bit 0x088 0x040 30 = true then c.count 0x088 0x048 else c)) ∧
  (∀ s : State, s.chip.scrubbing = true →
    (∀ m ∈ s.mem.marks, target m.1 = .cls → s.chip.scrubRowOf m.1 ≠ s.chip.memc.scrubRow) →
    exec (.scrubAccess []) s = .next (s.onChip fun c =>
      let d := if c.memc.scrubRow = 65535 then c.count 0x071 0x050 else c
      { d with memc := { d.memc with scrubRow := (c.memc.scrubRow + 1) % 65536 } })) ∧
  (∀ (pa : BitVec 48) (s : State), target pa.toNat = .cls →
    (s.chip.memc.pendingWb.contains (s.chip.clsCell (pa.toNat / 8 * 8)) = true → Answers (.ceWriteBack pa) s fun t =>
      t.mark (pa.toNat / 8 * 8) = none ∧ (∀ x, t.byte x = s.byte x) ∧
      (∀ x, target x = .cls → x / 8 ≠ pa.toNat / 8 → t.mark (x / 8 * 8) = s.mark (x / 8 * 8)) ∧
      t.chip = (s.chip.dropWb (s.chip.clsCell (pa.toNat / 8 * 8))).settle ∧ t.pending = s.pending ∧ t.fuses = s.fuses) ∧
    (s.chip.memc.pendingWb.contains (s.chip.clsCell (pa.toNat / 8 * 8)) = false → exec (.ceWriteBack pa) s = .next (s.onChip id))) ∧
  (∀ (req : Requester) (s : State), s.passes req 0x073 0x114 → exec (.fltPop req) s = .next (s.onChip fun c =>
    { c with rood := { c.rood with fifo := c.rood.fifo.drop 1 } }))

/-- Accesses of the Sacristan and Precentor cores that the PMP allows (R85, R87, R91, R105, R109): an aligned store of 8 bytes to
Cloister within its capacity waits for the initialisation and for locks of others on its word, and is then there, clean, with every
other byte as before; a load answers a clean granule's bytes, and a poisoned one with an access fault; the private memory of the
Sacristan takes and answers its bytes; the boot ROM, a stall window, host memory and a hole answer a store
with an access fault, logged UNMAPPED; a load of a register answers its word. An access that the PMP denies is an access fault alone.
Where it rests on choices of the model, they are those of log entries 14, 27 and 94. -/
def Obligations.CoreAccesses : Prop :=
  ∀ (core : CoreId) (pa : BitVec 48) (v : DWord) (s : State),
    let a := pa.toNat
    let waited := fun (c : Chip) => c.clsWait.dropLocks (c.clsWait.lockedBy 0xFF a 8)
    (∀ kind size, s.chip.pmpAllows core (kind == AccKind.store) a size.bytes = false →
      exec (.coreAccess core kind pa size v) s = .next (s.onChip fun c => c.reply (coreKey core) .accessFault)) ∧
    (target a = .cls → a % 8 = 0 → s.chip.enabled 0x070 = true → (a - clsBase) / 16384 < s.chip.clsCap →
      (s.chip.pmpAllows core true a 8 = true → Answers (.coreAccess core .store pa .b8 v) s fun t =>
        t.pending = s.pending ∧ t.fuses = s.fuses ∧
        (∀ i : Fin 8, t.byte (a + i) = BitVec.ofNat 8 (v.toNat / 256 ^ i.val)) ∧ t.mark a = none ∧
        s.memBut t (fun x => a ≤ x ∧ x < a + 8) ∧
        t.chip =
          let d := ((waited s.chip).dropWb (s.chip.clsCell a)).reply (coreKey core) .none
          { d with queues := { d.queues with torn := t.chip.queues.torn } }.settle) ∧
      (s.chip.pmpAllows core false a 8 = true → s.mark a = none → exec (.coreAccess core .load pa .b8 v) s = .next (s.onChip fun c =>
        (waited c).reply (coreKey core) (.data (BitVec.ofNat 64 (((List.range 8).map fun i => (s.byte (a + i)).toNat * 256 ^ i).sum))))) ∧
      (s.chip.pmpAllows core false a 8 = true → s.mark a = some .poison →
        exec (.coreAccess core .load pa .b8 v) s = .next (s.onChip fun c =>
          (((waited c).count 0x071 0x04C).raise 0x071 2).reply (coreKey core) .accessFault))) ∧
    (0x41000000 ≤ a → a + 4 ≤ mbWindow →
      (s.chip.pmpAllows core true a 4 = true → Answers (.coreAccess core .store pa .b4 v) s fun t =>
        t.pending = s.pending ∧ t.fuses = s.fuses ∧
        (∀ i : Fin 4, t.byte (a + i) = BitVec.ofNat 8 (v.toNat / 256 ^ i.val)) ∧ s.memBut t (fun x => a ≤ x ∧ x < a + 4) ∧
        t.chip = (s.chip.reply (coreKey core) .none).settle) ∧
      (s.chip.pmpAllows core false a 4 = true → exec (.coreAccess core .load pa .b4 v) s = .next (s.onChip fun c =>
        c.reply (coreKey core) (.data (BitVec.ofNat 64 (((List.range 4).map fun i => (s.byte (a + i)).toNat * 256 ^ i).sum)))))) ∧
    (target a = .rom ∨ target a = .stall ∨ target a = .host ∨ target a = .hole → s.chip.pmpAllows core true a 8 = true →
      exec (.coreAccess core .store pa .b8 v) s = .next (s.onChip fun c =>
        (c.logUse 0x000 0x02 (coreReq core) a).reply (coreKey core) .accessFault)) ∧
    (a < 0x1000000 → a % 4 = 0 → pageClass (a / 0x1000) ≠ none → s.chip.clockStopped (a / 0x1000) = false →
      pairLo (a / 0x1000) (a % 0x1000) = none → pairHi (a / 0x1000) (a % 0x1000) = none → s.chip.pmpAllows core false a 4 = true →
      exec (.coreAccess core .load pa .b4 v) s = .next (s.onChip fun c =>
        c.reply (coreKey core) (.data ((c.answer (a / 0x1000) (a % 0x1000)).setWidth 64))))

/-- Host accesses through BAR2 (R86, R91, R97, R100, R109, R111) run in the context of BAR2_CTX: an aligned access of 8 bytes that the
Rood translates into Cloister waits for the initialisation and for locks of others on its word, and reads the granule's bytes or
writes them there; a read of poison completes with the EP bit; a translation that faults answers a read with the EP bit and all ones,
and records the fault with the source 0x50, and of a write nothing else happens.
Where it rests on choices of the model, they are those of log entries 27 and 65. -/
def Obligations.Bar2Accesses : Prop :=
  ∀ (offset : BitVec 25) (v : DWord) (s : State), offset.toNat % 8 = 0 →
    let ctx := s.chip.fld 0x072 0x300 0 4
    let va := clsBase + offset.toNat
    let waited := fun (w : Work) (pa : Nat) => w.chip.clsWait.dropLocks (w.chip.clsWait.lockedBy 0x50 pa 8)
    let ends := fun (t : State) (w : Work) (c : Chip) =>
      t.pending = s.pending ∧ t.fuses = s.fuses ∧ t.mem = s.mem.applyAll w.ops.reverse ∧ t.chip = c.settle
    (∀ pa w, translate ctx 0 va s.work = (.ok pa, w) → target pa = .cls → pa % 8 = 0 →
      (w.markOf pa = none → Answers (.bar2Access false offset .b8 v) s fun t => ends t w
        ((waited w pa).reply 8 (.data (BitVec.ofNat 64 (((List.range 8).map fun i => (w.byteAt (pa + i)).toNat * 256 ^ i).sum))))) ∧
      (w.markOf pa = some .poison → Answers (.bar2Access false offset .b8 v) s fun t => ends t w
        (((waited w pa).notePoison pa).reply 8 .poison))) ∧
    (∀ e w, translate ctx 0 va s.work = (.error e, w) → Answers (.bar2Access false offset .b8 v) s fun t =>
      ends t w ((w.chip.roodFault ctx 0 va e 0x50).reply 8 (.faulted (BitVec.allOnes 64)))) ∧
    (∀ e w, translate ctx 1 va s.work = (.error e, w) → Answers (.bar2Access true offset .b8 v) s fun t =>
      ends t w (w.chip.roodFault ctx 1 va e 0x50)) ∧
    (∀ pa w, translate ctx 1 va s.work = (.ok pa, w) → w.ops = [] → w.wrote = [] → target pa = .cls → pa % 8 = 0 →
      w.chip.memc = s.chip.memc → w.chip.regs = s.chip.regs → w.chip.cho = s.chip.cho →
      Answers (.bar2Access true offset .b8 v) s fun t => t.pending = s.pending ∧ t.fuses = s.fuses ∧
        (∀ i : Fin 8, t.byte (pa + i) = BitVec.ofNat 8 (v.toNat / 256 ^ i.val)) ∧ t.mark pa = none ∧
        s.memBut t (fun x => pa ≤ x ∧ x < pa + 8) ∧
        t.chip =
          let d := (waited w pa).dropWb (w.chip.clsCell pa)
          { d with queues := { d.queues with torn := t.chip.queues.torn } }.settle)

/-- Contexts and regions (R101, R102, R103): INVAL reads 1 until every access under an old entry has completed and then drops the
context's entries and no other's, and without an INVAL nothing happens; clearing ENABLE drops them at once. REGISTER and FREE start
with the registers' values while none is in progress, and log RGN_BUSY otherwise; at its end a region that passed every check is
stored at the lowest free handle, and one that failed a check, or found no handle free, changes no region and ends with its code; a
FREE of an unused handle ends NO_REGION, of one that a descriptor names IN_USE, and otherwise drops the region. Without a command in
progress there is no end.
Where it rests on choices of the model, they are those of log entries 13 and 64. -/
def Obligations.ContextsAndRegions : Prop :=
  (∀ (req : Requester) (ctx : Fin 16) (s : State), s.passes req 0x072 (ctxOff ctx) →
    exec (.inval req ctx) s = .next (s.onChip fun c => c.setBit 0x072 (ctxOff ctx) 1 true) ∧
    exec (.ctxDisable req ctx) s = .next (s.onChip fun c =>
      let d := c.setBit 0x072 (ctxOff ctx) 0 false
      { d with rood := { d.rood with tlb := c.rood.tlb.filter fun r => r.1 / 2 ^ 23 != ctx.val } })) ∧
  (∀ (ctx : Fin 16) (s : State),
    (s.chip.bit 0x072 (ctxOff ctx) 1 = true → exec (.invalDone ctx) s = .next (s.onChip fun c =>
      { c with rood := { c.rood with tlb := c.rood.tlb.filter fun r => r.1 / 2 ^ 23 != ctx.val } }.setBit 0x072 (ctxOff ctx) 1 false)) ∧
    (s.chip.bit 0x072 (ctxOff ctx) 1 = false → exec (.invalDone ctx) s = .next (s.onChip id))) ∧
  (∀ (req : Requester) (s : State), s.passes req 0x073 0x054 →
    (s.chip.bit 0x073 0x058 31 = false →
      exec (.rgnRegister req) s = .next (s.onChip fun c =>
        { c.setBit 0x073 0x058 31 true with rood := { c.rood with
          cmd := some (.register (c.rd64 0x073 0x040) (c.rd64 0x073 0x048) (c.rd 0x073 0x050)) } }) ∧
      exec (.rgnFree req) s = .next (s.onChip fun c =>
        { c.setBit 0x073 0x058 31 true with rood := { c.rood with cmd := some (.free (c.fld 0x073 0x05C 0 10)) } })) ∧
    (s.chip.bit 0x073 0x058 31 = true → ∀ i, i = Instr.rgnRegister req ∨ i = .rgnFree req →
      exec i s = .next (s.onChip fun c => c.logUse 0x073 0x09 req (regAddr 0x073 0x054)))) ∧
  (∀ s : State,
    let done := fun (c : Chip) (code : Nat) =>
      let d := (((c.setBit 0x073 0x058 31 false).setFld 0x073 0x058 0 8 code).raise 0x073 1).wr 0x073 0x060 (word c.rood.regions.length)
      { d with rood := { d.rood with cmd := none } }
    (s.chip.rood.cmd = none → exec .rgnDone s = .next (s.onChip id)) ∧
    (∀ base size attr, s.chip.rood.cmd = some (.register base size attr) →
      (∀ r w, rgnCheck base size attr s.work = ((0, some r), w) → ∀ h, freeHandle s.chip.rood.regions = some h →
        Answers .rgnDone s fun t => t.chip =
          (done ({ w.chip with rood := { w.chip.rood with regions := aput w.chip.rood.regions h r } }.setFld 0x073 0x058 16 10 h)
            0x00).settle ∧ t.mem = s.mem.applyAll w.ops.reverse) ∧
      (∀ code w, rgnCheck base size attr s.work = ((code, none), w) → Answers .rgnDone s fun t =>
        t.chip = (done (w.chip.setFld 0x073 0x058 16 10 0) code).settle ∧ t.mem = s.mem.applyAll w.ops.reverse)) ∧
    (∀ h, s.chip.rood.cmd = some (.free h) →
      (aget s.chip.rood.regions h = none → exec .rgnDone s = .next (s.onChip fun c => done c 0x0B)) ∧
      (aget s.chip.rood.regions h ≠ none → (s.chip.desc.slots.any fun d => d.2.names h) = true →
        exec .rgnDone s = .next (s.onChip fun c => done c 0x0C)) ∧
      (aget s.chip.rood.regions h ≠ none → (s.chip.desc.slots.any fun d => d.2.names h) = false →
        exec .rgnDone s = .next (s.onChip fun c =>
          done { c with rood := { c.rood with regions := adel c.rood.regions h } } 0x00))))

/-! Descriptors (chapter 5). -/

/-- The descriptor commands of page 0x073 (R131, R132, R139, R140, R141): each starts with the values of DESC_HANDLE and DESC_STAGE
while none is in progress and logs DESC_BUSY otherwise. At its end a CREATE that passes every check stores the eight staged words
under its creator and any other changes no slot and ends with the first failing check's code; DESTROY empties a slot for its creator
and for SAC alone; READ puts the stored words into DESC_STAGE; both end NO_DESC where the slot is empty, and without a command in progress
there is no end.
Where it rests on choices of the model, they are those of log entry 64. -/
def Obligations.DescriptorCommands : Prop :=
  (∀ (req : Requester) (s : State), s.passes req 0x073 0x244 →
    (s.chip.bit 0x073 0x248 31 = false → ∀ i n, (i, n) ∈ [(Instr.create req, 0), (.destroy req, 1), (.descRead req, 2)] →
      exec i s = .next (s.onChip fun c =>
        let k := DescCmd.mk n (c.fld 0x073 0x240 0 16) ((List.range 16).map fun k => c.rd 0x073 (0x200 + 4 * k)) (ownerCode req)
        { c.setBit 0x073 0x248 31 true with desc := { c.desc with cmd := some k } })) ∧
    (s.chip.bit 0x073 0x248 31 = true → ∀ i ∈ [Instr.create req, .destroy req, .descRead req],
      exec i s = .next (s.onChip fun c => c.logUse 0x073 0x0A req (regAddr 0x073 0x244)))) ∧
  (∀ s : State, s.chip.desc.cmd = none → exec .descDone s = .next (s.onChip id)) ∧
  (∀ (s : State) (k : DescCmd), s.chip.desc.cmd = some k →
    let ends := fun (c : Chip) (code : Nat) =>
      let d := (c.wr 0x073 0x248 (word code)).raise 0x073 2
      { d with desc := { d.desc with cmd := none } }
    (k.op = 0 → s.chip.createCheck k.handle (stageWords k.stage) = 0 → exec .descDone s = .next (s.onChip fun c =>
      let d := { c with desc := { c.desc with slots := aput c.desc.slots k.handle { qw := stageWords k.stage, owner := k.owner } } }
      let d := { d with vrg := { d.vrg with leases := aput d.vrg.leases (descSel k.handle) { state := 1, since := c.time.now } } }
      ends (d.wr 0x073 0x24C (word d.desc.slots.length)) 0x00)) ∧
    (k.op = 0 → s.chip.createCheck k.handle (stageWords k.stage) ≠ 0 →
      exec .descDone s = .next (s.onChip fun c => ends c (c.createCheck k.handle (stageWords k.stage)))) ∧
    (k.op = 1 ∨ k.op = 2 → k.handle % 4096 = 0 ∨ aget s.chip.desc.slots k.handle = none →
      exec .descDone s = .next (s.onChip fun c => ends c 0x18)) ∧
    (∀ d, k.handle % 4096 ≠ 0 → aget s.chip.desc.slots k.handle = some d →
      (k.op = 1 → s.chip.descQuarantined k.handle = true ∨ (k.owner ≠ d.owner ∧ k.owner ≠ 2) →
        exec .descDone s = .next (s.onChip fun c => ends c 0x19)) ∧
      (k.op = 1 → s.chip.descQuarantined k.handle = false → k.owner = d.owner ∨ k.owner = 2 → Answers .descDone s fun t =>
        s.keepsMem t ∧ aget t.chip.desc.slots k.handle = none ∧ (∀ h, h ≠ k.handle → aget t.chip.desc.slots h = aget s.chip.desc.slots h) ∧
        t.chip.desc.cmd = none ∧ t.chip.rd 0x073 0x248 = 0 ∧
        ∀ a, a ∉ [regAddr 0x073 0x24C, regAddr 0x073 0x248, regAddr 0x073 0x014] → t.chip.wordAt a = s.chip.wordAt a) ∧
      (k.op = 2 → d.poison = true → exec .descDone s = .next (s.onChip fun c => ends c 0x1A)) ∧
      (k.op = 2 → d.poison = false → Answers .descDone s fun t =>
        s.keepsMem t ∧ t.chip.rd 0x073 0x248 = 0 ∧
        (∀ i : Fin 16, t.chip.rd 0x073 (0x200 + 4 * i) = word (bits (d.qw.getD (i / 2) 0).toNat (32 * (i % 2)) 32)) ∧
        t.chip.rd 0x073 0x250 = s.chip.rd 0x073 0x250 + word d.ce.toNat)))

/-- Every vector of a tensor that fits its type is read back lane by lane as it was stored (R120, R122). -/
def Obligations.LanesReadBackAsStored : Prop :=
  ∀ (t : Nat) (xs : List Int), t < 7 → xs.length = 32 →
    (∀ x ∈ xs, if t = 5 then 0 ≤ x ∧ x < 65536 else typeMin t ≤ x ∧ x ≤ typeMax t) →
    decodeLanes t (encodeLanes t (xs.map some)) = xs.map some

/-- The lossless code loses nothing (R57, R293): from the bytes of a compressed vector, the header names a field width, and the 32
fields of that width decode to the 32 values. -/
def Obligations.LosslessCodeIsLossless : Prop :=
  ∀ (d : Desc) (xs : List Int), d.type < 7 → d.type ≠ 0 → d.comp = 1 → xs.length = 32 →
    (∀ x ∈ xs, if d.type = 5 then 0 ≤ x ∧ x < 65536 else typeMin d.type ≤ x ∧ x ≤ typeMax d.type) →
    ∃ h rest n, compressVec d xs = h :: rest ∧ (h :: rest).length = d.slotBytes ∧ headerBits d h.toNat = some n ∧
      ∀ i : Fin 32, some (decodeField d h.toNat n (bits (((leNat (rest.map some)).getD 0)) (n * i) n)) = xs[i.val]?

/-- The scale of a block is the least one under which every value fits the type (R127), and a value that fits the type under an
exponent is within half a step of what the stored mantissa means. -/
def Obligations.BlockScaleIsLeast : Prop :=
  ∀ (t : Nat) (xs : List Int), t < 7 →
    (∀ e, e < deriveScale t xs → ∃ x ∈ xs, (satType t (rshift x e)).2 = true) ∧
    (deriveScale t xs < 31 → ∀ x ∈ xs, (satType t (rshift x (deriveScale t xs))).2 = false) ∧
    deriveScale t xs ≤ 31 ∧
    ∀ (x : Int) (e : Nat), 2 * |rshift x e * 2 ^ e - x| ≤ 2 ^ e

/-! Queues (chapter 7). -/

/-- The pages of the queues (R166, R182, R184, R186, R187, R188, R525): TAIL takes a value that passes neither HEAD + 2^QSIZE nor
falls behind TAIL and logs TAIL_RANGE otherwise, from its page or by a write at the queue's offset of BAR4; every other offset of
BAR4 reads 0 and ignores writes. SKIP and DRAIN act in ERROR alone; ENABLE runs a stopped queue; clearing it stops the queue at
once where no command is in progress, abandons a WAIT, leaves any other command to its boundary, and changes nothing else of a queue
that is not RUNNING.
Where it rests on choices of the model, they are those of log entries 26 and 85. -/
def Obligations.QueuePages : Prop :=
  (∀ (req : Requester) (q : Fin 128) (v : Word) (s : State),
    let c := s.chip
    let fits := (c.qtail q - c.qhead q).toNat ≤ (v - c.qhead q).toNat ∧ (v - c.qhead q).toNat ≤ c.qslots q
    (s.passes req (pgQ q) 0x05C →
      (fits → exec (.qtailWrite req q v) s = .next (s.onChip fun c => c.wr (pgQ q) 0x05C v)) ∧
      (¬ fits → exec (.qtailWrite req q v) s = .next (s.onChip fun c => c.logUse (pgQ q) 0x06 req (regAddr (pgQ q) 0x05C)))) ∧
    exec (.doorbell (BitVec.ofNat 16 (8 * q)) (some v)) s = exec (.qtailWrite .host q v) s ∧
    (s.passes .host (pgQ q) 0x05C → fits →
      exec (.doorbell (BitVec.ofNat 16 (8 * q)) (some v)) s = .next (s.onChip fun c => c.wr (pgQ q) 0x05C v))) ∧
  (∀ (offset : BitVec 16) (v : Word) (s : State),
    (offset.toNat % 8 ≠ 0 ∨ 1024 ≤ offset.toNat → exec (.doorbell offset (some v)) s = .next (s.onChip id) ∧
      exec (.doorbell offset none) s = .next (s.onChip fun c => c.reply 9 (.data 0))) ∧
    (offset.toNat % 8 = 0 → offset.toNat < 1024 → ∃ x : BitVec 32,
      exec (.doorbell offset none) s = .next (s.onChip fun c => c.draw.2.reply 9 (.data (x.setWidth 64))))) ∧
  (∀ (req : Requester) (q : Fin 128) (s : State),
    let c := s.chip
    (s.passes req (pgQ q) 0x064 →
      (c.qstate q = qError →
        exec (.skip req q) s = .next (s.onChip fun c =>
          (c.wr (pgQ q) 0x058 (c.qhead q + 1)).setQstate q (if c.enabled (pgQ q) then qRunning else qStopped)) ∧
        exec (.drain req q) s = .next (s.onChip fun c =>
          (c.wr (pgQ q) 0x058 (c.qtail q)).setQstate q (if c.enabled (pgQ q) then qRunning else qStopped))) ∧
      (c.qstate q ≠ qError → ∀ i ∈ [Instr.skip req q, .drain req q],
        exec i s = .next (s.onChip fun c => c.logUse (pgQ q) 0x07 req (regAddr (pgQ q) 0x064)))) ∧
    (s.passes req (pgQ q) 0x00C →
      (c.qstate q = qStopped → exec (.queueEnable req q) s =
        .next (s.onChip fun c => (c.setBit (pgQ q) 0x00C 0 true).setQstate q qRunning)) ∧
      (c.qstate q ≠ qStopped → exec (.queueEnable req q) s = .next (s.onChip fun c => c.setBit (pgQ q) 0x00C 0 true)) ∧
      (c.enabled (pgQ q) = false ∨ (c.running q = none ∧ c.qstate q ≠ qRunning) →
        exec (.queueDisable req q) s = .next (s.onChip fun c => c.setBit (pgQ q) 0x00C 0 false)) ∧
      (c.enabled (pgQ q) = true → c.running q = none → c.qstate q = qRunning → exec (.queueDisable req q) s =
        .next (s.onChip fun c => ((c.setBit (pgQ q) 0x00C 0 false).setQstate q qStopped).raise (pgQ q) 2)) ∧
      (∀ r, c.running q = some r →
        (c.enabled (pgQ q) = true → r.op = 0x01 → r.finished = false → exec (.queueDisable req q) s =
          .next (s.onChip fun c => (((c.setBit (pgQ q) 0x00C 0 false).setRunning q none).setQstate q qStopped).raise (pgQ q) 2)) ∧
        (r.op ≠ 0x01 ∨ r.finished = true → exec (.queueDisable req q) s =
          .next (s.onChip fun c => c.setBit (pgQ q) 0x00C 0 false)))))

/-- A unit fetches (R165, R166, R174, R175, R183): with a queue ready, the one of the highest QPRIO, the 32 bytes at the queue's base plus
HEAD mod 2^QSIZE slots are read for execution in the queue's context; the command of a slot that passes its start checks is in progress
with its words and the descriptors copied, and one that fails a check is finished with the check's code, before anything is executed.
One whose read faults ends with the fault's code, one whose words are poisoned ends CMD_POISON, and one of a unit that has failed ends
UNIT_FAILED; a slot that was rewritten between HEAD and TAIL is fetched with free words. A unit that does not run, or has no queue
ready, does nothing.
Where it rests on choices of the model, they are those of log entries 24, 25, 83 and 84. -/
def Obligations.CommandFetch : Prop :=
  ∀ (u : EngUnit) (s : State),
    let c := s.chip
    (c.unitRuns u = false → c.unitFailed u = false → exec (.commandFetch u) s = .next (s.onChip id)) ∧
    (c.pickQueue u = none → exec (.commandFetch u) s = .next (s.onChip id)) ∧
    (∀ q, c.pickQueue u = some q → q ∈ unitQueues u ∧ c.qready q = true ∧
      ∀ p, p ∈ unitQueues u → c.qready p = true → c.fld (pgQ p) 0x04C 4 2 ≤ c.fld (pgQ q) 0x04C 4 2) ∧
    (c.unitRuns u = true ∨ c.unitFailed u = true → ∀ q, c.pickQueue u = some q →
      let first := { s.work with chip := { c with queues := { c.queues with last := aput c.queues.last (unitNum u) q } } }
      let va := c.rd64 (pgQ q) 0x040 + 32 * ((c.qhead q).toNat % c.qslots q)
      let fetched : List DWord → Running := fun ws =>
        { count := c.qhead q, cw := ws, started := c.time.tb.toNat, debug := c.debugOn (pgQ q :: c.unitPages u) }
      let ends := fun (ws : List DWord) (e : Nat) => some { fetched ws with status := e, finished := true, executed := true }
      (∀ e w, (readVaAs 0x2E (c.qctx q) (c.unitSrc u) 2 va 32).run first = (.error e, w) →
        Answers (.commandFetch u) s fun t => s.after t w fun c => c.setRunning q (ends [] e)) ∧
      (∀ bs w, (readVaAs 0x2E (c.qctx q) (c.unitSrc u) 2 va 32).run first = (.ok bs, w) →
        (((List.range 4).mapM fun i => leNat ((bs.drop (8 * i)).take 8)) = none → Answers (.commandFetch u) s fun t =>
          s.after t w fun c => c.setRunning q (ends ((leNat (bs.take 8)).toList.map (BitVec.ofNat 64)) 0x2F)) ∧
        (∀ ws, ((List.range 4).mapM fun i => leNat ((bs.drop (8 * i)).take 8)) = some ws →
          w.chip.queues.torn.contains (q, c.qhead q) = true → Answers (.commandFetch u) s fun t =>
            t.mem = s.mem.applyAll w.ops.reverse ∧ (t.chip.running q).any (fun r => r.count == c.qhead q) = true) ∧
        (∀ ws, ((List.range 4).mapM fun i => leNat ((bs.drop (8 * i)).take 8)) = some ws →
          w.chip.queues.torn.contains (q, c.qhead q) = false →
          let fresh := fetched (ws.map (BitVec.ofNat 64))
          (w.chip.unitFailed u = true → Answers (.commandFetch u) s fun t =>
            t.chip.running q = ends fresh.cw 0x2C ∧ t.mem = s.mem.applyAll w.ops.reverse) ∧
          (w.chip.unitFailed u = false → ∀ e, w.chip.startCheck q fresh = .error e → Answers (.commandFetch u) s fun t =>
            t.chip.running q = ends fresh.cw e ∧ t.mem = s.mem.applyAll w.ops.reverse) ∧
          (w.chip.unitFailed u = false → ∀ ds, w.chip.startCheck q fresh = .ok ds →
            (¬(fresh.op < 4 ∧ w.chip.noStall q = true) → Answers (.commandFetch u) s fun t =>
              t.chip.running q = some { fresh with descs := ds } ∧ t.mem = s.mem.applyAll w.ops.reverse) ∧
            (fresh.op < 4 → w.chip.noStall q = true → Answers (.commandFetch u) s fun t =>
              t.chip.running q = ends fresh.cw 0x80 ∧ t.mem = s.mem.applyAll w.ops.reverse)))))

/-- NOP, STOP and WAIT (R172, R173, R178, R187): NOP and STOP are ready to retire at once and change nothing else. A WAIT below its
threshold leaves the queue WAITING on its counter; when the counter has reached the threshold it retires, with a completion record
where it asks for one; with a timeout and the counter still below, it ends WAIT_TIMEOUT at its moment on the timebase. While the
clocks are stopped none of them executes or retires.
Where it rests on choices of the model, they are those of log entries 3 and 24. -/
def Obligations.WaitingCommands : Prop :=
  ∀ (q : Fin 128) (s : State) (r : Running),
    (s.chip.tripped = false →
      (s.fetched q 0x00 r → exec (.nop q) s = .next (s.onChip fun c => c.setRunning q (some (r.ended c q {})))) ∧
      (s.fetched q 0x03 r → exec (.stop q) s = .next (s.onChip fun c => c.setRunning q (some (r.ended c q {})))) ∧
      (s.fetched q 0x01 r →
        (r.w 1 ≤ s.chip.evt (bits r.param 0 8) → exec (.wait q) s = .next (s.onChip fun c =>
          c.setRunning q (some { r with executed := true, started := c.time.tb.toNat }))) ∧
        (s.chip.evt (bits r.param 0 8) < r.w 1 → exec (.wait q) s = .next (s.onChip fun c =>
          ((c.setRunning q (some { r with executed := true, started := c.time.tb.toNat })).setQstate q qWaiting).setFld
            (pgQ q) 0x070 0 8 (bits r.param 0 8)))) ∧
      (s.chip.waiting q = some r → r.w 1 ≤ s.chip.evt (bits r.param 0 8) → s.chip.posted q r.count = false →
        let w := if bits (r.w 0) 9 1 = 1 then (writeRecord q { r with finished := true } s.work).2 else s.work
        Answers (.waitRetire q) s fun t => s.after t w fun c =>
          let d := (c.wr (pgQ q) 0x058 (r.count + 1)).count (pgQ q) 0x068
          let d := if bits (r.w 0) 8 1 = 1 then d.raise (pgQ q) 0 else d
          ((d.freeLocks q).setRunning q none).boundary q false)) ∧
    (s.chip.tripped = true → ∀ i ∈ [Instr.nop q, .stop q, .wait q, .waitRetire q], exec i s = .next (s.onChip id)) ∧
    (s.chip.waiting q = some r → s.chip.evt (bits r.param 0 8) < r.w 1 →
      exec (.waitRetire q) s = .next (s.onChip id) ∧
      (bits (r.w 2) 0 32 ≠ 0 → exec (.waitTimeout q) s = .next (s.onChip fun c =>
        let d := c.advanceTb (r.started + 1000 * bits (r.w 2) 0 32)
        (d.setRunning q (some { r with status := 0x28, finished := true, executed := true, awaiting := [] })).setQstate q qRunning))) ∧
    (s.chip.waiting q = some r → bits (r.w 2) 0 32 = 0 ∨ r.w 1 ≤ s.chip.evt (bits r.param 0 8) →
      exec (.waitTimeout q) s = .next (s.onChip id))

/-- SIGNAL on this chip's own counter, and EVT_SIG (R176, R177, R179, R187): the command executes without touching a counter; as it
retires the counter takes the increase, saturating at 2^64 - 1, and no other counter changes; a SIGNAL that would pass it ends
EVT_OVERFLOW, and any other retires as every command does. EVT_SIG acts at once, one of increase 0 changes nothing, and one of another
than the page's lease holder sets WR_DENIED. -/
def Obligations.SignalCounters : Prop :=
  (∀ (e n : Nat) (s : State), e < 256 → (s.chip.signal e n).2.evt e = min (s.chip.evt e + n) (2 ^ 64 - 1) ∧
    ∀ x, x < 256 → x ≠ e → (s.chip.signal e n).2.evt x = s.chip.evt x) ∧
  (∀ (q : Fin 128) (s : State) (r : Running), s.chip.tripped = false →
    (s.fetched q 0x02 r → ((List.range 8).all fun p => bits (bits r.param 8 8) p 1 != 1 || p == s.chip.chPos) = true → s.chip.link.xfers = [] →
      Answers (.signal q) s fun t => t.mem = s.mem ∧ (∀ x, x < 256 → t.chip.evt x = s.chip.evt x) ∧
        t.chip.running q = some { r.ended s.chip q {} with awaiting := [] }) ∧
    (s.chip.running q = some r → r.op = 0x02 → r.finished = true → r.awaiting = [] → r.status = 0 → s.chip.posted q r.count = false →
      bits r.param 8 8 = 0 ∨ bits (bits r.param 8 8) s.chip.chPos 1 = 1 →
      let first := { s.work with chip := (s.chip.signal (bits r.param 0 8) (bits r.param 16 16)).2 }
      let past := decide (2 ^ 64 ≤ s.chip.evt (bits r.param 0 8) + bits r.param 16 16)
      let w := if bits (r.w 0) 9 1 = 1 ∨ past then (writeRecord q { r with status := if past then 0x27 else 0 } first).2 else first
      Answers (.commandRetire q) s fun t => s.after t w fun c =>
        if past then
          let d := (c.setFld (pgQ q) 0x060 8 8 0x27).count (pgQ q) 0x06C
          let d := (d.raise (pgQ q) 1).logErr (pgQ q) clsCmd 0x27 (if c.leaseState (pgQ q) = 1 then c.leaseOwner (pgQ q) else 0) r.count
          ((d.freeLocks q).setRunning q none).setQstate q qError
        else
          let d := (c.wr (pgQ q) 0x058 (r.count + 1)).count (pgQ q) 0x068
          let d := if bits (r.w 0) 8 1 = 1 then d.raise (pgQ q) 0 else d
          ((d.freeLocks q).setRunning q none).boundary q false)) ∧
  (∀ (req : Requester) (inc : BitVec 16) (evt : BitVec 8) (s : State),
    (s.passes req 0x011 0x840 → Answers (.evtSig req inc evt) s fun t =>
      t.mem = s.mem ∧ t.chip.evt evt.toNat = min (s.chip.evt evt.toNat + inc.toNat) (2 ^ 64 - 1) ∧
      ∀ x, x < 256 → x ≠ evt.toNat → t.chip.evt x = s.chip.evt x) ∧
    (s.passes req 0x011 0x840 → inc = 0 → exec (.evtSig req inc evt) s = .next (s.onChip id)) ∧
    (s.chip.clockStopped 0x011 = false → s.chip.leaseState 0x011 = 1 → s.chip.leaseOwner 0x011 ≠ ownerCode req →
      exec (.evtSig req inc evt) s = .next (s.onChip fun c => c.raise 0x011 29)))

/-- Retirement (R167, R173, R184, R186, R188): a command that is ready retires with HEAD past it, its count advanced, DONE where it
asks for an interrupt, and its completion record where it asks for one; STOP, or an ENABLE that is clear, leaves the queue STOPPED.
One that ended in error writes its record always, sets QERR with its code and leaves the queue in ERROR with HEAD on it. A command
that is not ready, and any while the clocks are stopped, does not retire. A command that a graph's frame posted is left out here, and a
SIGNAL on this chip's counter is stated with the counters.
Where it rests on choices of the model, they are those of log entries 25 and 26. -/
def Obligations.CommandRetirement : Prop :=
  ∀ (q : Fin 128) (s : State),
    (s.chip.tripped = true ∨ s.chip.running q = none → exec (.commandRetire q) s = .next (s.onChip id)) ∧
    (∀ r, s.chip.running q = some r →
      (r.finished = false ∨ r.awaiting ≠ [] → exec (.commandRetire q) s = .next (s.onChip id)) ∧
      (s.chip.tripped = false → r.finished = true → r.awaiting = [] → s.chip.posted q r.count = false →
        let w := if bits (r.w 0) 9 1 = 1 ∨ r.status ≠ 0 then (writeRecord q r s.work).2 else s.work
        (r.status = 0 → s.chip.signalsHere r = false → Answers (.commandRetire q) s fun t => s.after t w fun c =>
          let d := (c.wr (pgQ q) 0x058 (r.count + 1)).count (pgQ q) 0x068
          let d := if bits (r.w 0) 8 1 = 1 then d.raise (pgQ q) 0 else d
          let d := (d.freeLocks q).setRunning q none
          if r.op = 0x03 ∨ d.enabled (pgQ q) = false then (d.setQstate q qStopped).raise (pgQ q) 2 else d.setQstate q qRunning) ∧
        (r.status ≠ 0 → Answers (.commandRetire q) s fun t => s.after t w fun c =>
          let d := (c.setFld (pgQ q) 0x060 8 8 r.status).count (pgQ q) 0x06C
          let d := (d.raise (pgQ q) 1).logErr (pgQ q) clsCmd r.status (if c.leaseState (pgQ q) = 1 then c.leaseOwner (pgQ q) else 0)
            r.count
          ((d.freeLocks q).setRunning q none).setQstate q qError)))

/-- The moving commands execute (R152-R158, R162-R164, R172): COPY, GATHER, SCATTER, BGATHER and BSCATTER do what their definitions over the
source and destination views compute, and every such command that a queue has fetched is finished by it. A scatter that combines into
Cloister waits for a free bank lock.
Where it rests on choices of the model, they are those of log entries 23, 24, 27 and 28. -/
def Obligations.MovingCommandsExecute : Prop :=
  ∀ q : Fin 128,
    Executes (.copy q) q 0x10 copyBody (fun _ _ => True) ∧ Executes (.gather q) q 0x11 gatherBody (fun _ _ => True) ∧
    Executes (.bgather q) q 0x13 bgatherBody (fun _ _ => True) ∧
    Executes (.scatter q) q 0x12 scatterBody
      (fun s r => s.chip.freeLock.isSome = true ∨ (takesLocks q scatterBody r s.work).1 = false) ∧
    Executes (.bscatter q) q 0x14 bscatterBody
      (fun s r => s.chip.freeLock.isSome = true ∨ (takesLocks q bscatterBody r s.work).1 = false) ∧
    ∀ (s : State) (r : Running), s.chip.running q = some r → s.chip.freeLock = none →
      ((takesLocks q scatterBody r s.work).1 = true → exec (.scatter q) s = .next (s.onChip id)) ∧
      ((takesLocks q bscatterBody r s.work).1 = true → exec (.bscatter q) s = .next (s.onChip id))

/-! The Lantern Illumination Sequencer (chapter 8). -/

/-- The LIS and its code states (R190, R191, R194, R200): with a valid configuration ENABLE puts every sequencer at entry 0 of its
rotation and chip 0 with nothing latched; with an invalid one it logs CFG_INVALID and the LIS does not run; to one that is enabled it
changes nothing. Clearing ENABLE drives every strobe and trigger inactive and ends the steps in progress.
Where it rests on choices of the model, they are those of log entry 31. -/
def Obligations.LisControl : Prop :=
  ∀ (req : Requester) (s : State), s.passes req 0x027 0x00C →
    (s.chip.enabled 0x027 = false → s.chip.lisCfgBad = false → Answers (.lisEnable req) s fun t =>
      s.keepsMem t ∧ t.chip.enabled 0x027 = true ∧ t.chip.lis = { s.chip.lis with on := true, seqs := [] } ∧
      (∀ n : Fin 4, t.chip.seqCode n = s.chip.rotCode n 0 ∧ t.chip.seqChip n = 0 ∧ t.chip.seqRot n = 0) ∧
      ∀ a, a ∉ [regAddr 0x027 0x00C, regAddr 0x027 0x0A4, regAddr 0x027 0x0E4, regAddr 0x027 0x124, regAddr 0x027 0x164] →
        t.chip.wordAt a = s.chip.wordAt a) ∧
    (s.chip.enabled 0x027 = false → s.chip.lisCfgBad = true → exec (.lisEnable req) s = .next (s.onChip fun c =>
      (c.setBit 0x027 0x00C 0 true).logUse 0x027 0x05 req (regAddr 0x027 0x00C))) ∧
    (s.chip.enabled 0x027 = true → Answers (.lisEnable req) s fun t => s.onlyRegs t []) ∧
    exec (.lisDisable req) s = .next (s.onChip fun c =>
      let d := c.setBit 0x027 0x00C 0 false
      { d with lis := { on := false, strobes := 0, trigs := 0, seqs := c.lis.seqs.map fun x => (x.1, { x.2 with step := none }) } })

/-- A fire of one sequencer (R18, R193, R201, R205, R210): it is refused and counted while the step before is not done or its fire lies
less than 4 ms back, and otherwise starts, 20 to 60 ns ahead, a step whose edges follow from the delays and widths in force, lit where
the code is; FIRES counts it, the chip moves on, and an event counter takes one. A fire that restarts the code after a flood is at chip
0 of the rotation's next code. At chip 0, the code boundary, the delays, the widths and the demodulator's settings are latched from
the registers. A write that names several sequencers fires them in their order, each as one that names it alone. A LIS that does not
run ignores it.
Where it rests on choices of the model, they are those of log entries 31 and 86. -/
def Obligations.LisFire : Prop :=
  (∀ (req : Requester) (m : BitVec 4) (s : State), s.passes req 0x027 0x040 →
    exec (.lisFire req m) s = .next (s.onChip fun c => (maskBits 4 m.toNat).foldl Chip.fireSeq c)) ∧
  (∀ (req : Requester) (n : Fin 4) (s : State), s.passes req 0x027 0x040 →
    let c := s.chip
    let q := c.seq n
    let m := BitVec.ofNat 4 (2 ^ n.val)
    let fire := (c.fires n + 1) % 2 ^ 32
    let restart := q.restartNext || q.restart.any (firePast fire)
    let code := if restart then c.rotCode n ((c.seqRot n + 1) % c.rotLen n) else c.seqCode n
    let chip := if restart then 0 else c.seqChip n
    let ae := c.bit 0x027 (seqOff n 0x10) 31
    let e := Config.lisEvent n % 256
    exec (.lisFire req m) s = .next (s.onChip fun c => c.fireSeq n) ∧
    (c.lisRuns = false → exec (.lisFire req m) s = .next (s.onChip id)) ∧
    (c.lisRuns = true → q.step ≠ none ∨ q.lastFire.any (fun t => decide (c.time.now + 60 < t + 4000000)) = true →
      exec (.lisFire req m) s = .next (s.onChip fun c => c.draw.2.count 0x027 (seqOff n 0x2C))) ∧
    (c.lisRuns = true → q.step = none → q.lastFire.all (fun t => decide (t + 4000000 ≤ c.time.now + 20)) = true →
      Answers (.lisFire req m) s fun t =>
        let z := t.chip.seq n
        let t0 := z.lastFire.getD 0
        let lit := codeLit code chip && z.stbWidth != 0
        c.time.now + 20 ≤ t0 ∧ t0 ≤ c.time.now + 60 ∧ s.keepsMem t ∧ t.chip.fires n = fire ∧
        t.chip.seqCode n = code ∧ t.chip.seqChip n = (chip + 1) % codeLen code % 16 ∧
        z.step = some {
          tag := { code := code, chip := chip, fire := fire, bound := z.boundAt,
                   period := if !restart && q.gapFire == some fire then none else some z.cur }
          trigOn := t0 + 10 * z.trigDelay, trigOff := t0 + 10 * z.trigDelay + 10 * z.trigWidth, trig := 0
          stbOn := t0 + 10 * z.stbDelay, stbOff := t0 + 10 * z.stbDelay + 10 * z.stbWidth, stb := if lit then 0 else 2 } ∧
        (chip ≠ 0 → z = { q with lastFire := z.lastFire, step := z.step }) ∧
        (chip = 0 → z.trigDelay = c.fld 0x027 (seqOff n 0x04) 16 16 ∧ z.trigWidth = c.fld 0x027 (seqOff n 0x04) 0 16 ∧
          z.stbDelay = c.fld 0x027 (seqOff n 0x08) 0 16 ∧ (ae = false → z.stbWidth = c.fld 0x027 (seqOff n 0x0C) 0 20) ∧
          ∀ p : Fin 4, bits (c.seqPorts n) p 1 = 1 → (t.chip.dmdPort p).latches.head? = some (t0, {
            thresh := c.fld 0x026 (dmdOff p 0x08) 0 24, inShift := c.fld 0x026 (dmdOff p 0x0C) 16 3,
            satLevel := c.fld 0x026 (dmdOff p 0x0C) 0 16 })) ∧
        t.chip.evt e = min (c.evt e + 1) (2 ^ 64 - 1) ∧ (∀ x, x < 256 → x ≠ e → t.chip.evt x = c.evt x) ∧
        (chip ≠ 0 ∨ ae = false → ∀ a, a < 0x010000 ∨ 0x020000 ≤ a →
          a ∉ [regAddr 0x027 (seqOff n 0x28), regAddr 0x027 (seqOff n 0x24)] → t.chip.wordAt a = c.wordAt a)))

/-- The edges of a step (R193, R206, R218, R392, R499): time comes to the edge, the sequencer's own triggers or strobes turn and no
other's, and a step whose edges are all done is over; an edge that is not the step's next one does not come. A camera port that takes
triggers gets the step's tag at the trigger's edge, the oldest of three displaced. No strobe is driven while VDDIO_GEN is off, and a
lamp head applies its latest CUR_MA as its own strobe rises. A strobe pad that disagrees with its drive sets its bit in the block of
the sequencer that drives it, SEQ_0's where none does, and logs STB_FAULT.
Where it rests on choices of the model, they are those of log entries 2 and 3. -/
def Obligations.LisEdges : Prop :=
  (∀ (n : Fin 4) (s : State),
    ((s.chip.seq n).step = none → ∀ i ∈ [Instr.triggerAssert n, .triggerDeassert n, .strobeRise n, .strobeFall n],
      exec i s = .next (s.onChip id)) ∧
    (∀ st, (s.chip.seq n).step = some st →
      (st.trig ≠ 0 → exec (.triggerAssert n) s = .next (s.onChip id)) ∧
      (st.trig ≠ 1 → exec (.triggerDeassert n) s = .next (s.onChip id)) ∧
      (st.stb ≠ 0 → exec (.strobeRise n) s = .next (s.onChip id)) ∧
      (st.stb ≠ 1 → exec (.strobeFall n) s = .next (s.onChip id)) ∧
      (st.trig = 0 → Answers (.triggerAssert n) s fun t =>
        s.keepsMem t ∧ t.chip.time.now = max s.chip.time.now st.trigOn ∧ t.chip.lis.trigs = s.chip.lis.trigs ||| s.chip.seqPorts n ∧
        t.chip.lis.strobes = s.chip.lis.strobes ∧ (t.chip.seq n).step = some { st with trig := 1 } ∧
        ∀ p : Fin 4, bits (s.chip.seqPorts n) p 1 = 1 → s.chip.enabled (pgCam p) = true → s.chip.bit (pgCam p) 0x040 24 = true →
          s.chip.bit (pgCam p) 0x010 8 = false →
          (t.chip.ntxPort p).tags = ((s.chip.ntxPort p).tags ++ [(st.tag, t.chip.time.now)]).drop
            (if (s.chip.ntxPort p).tags.length < 2 then 0 else 1)) ∧
      (st.trig = 1 → exec (.triggerDeassert n) s = .next (s.onChip fun c =>
        let d := c.advance st.trigOff
        { d with lis := { d.lis with trigs := d.lis.trigs &&& (15 - d.seqPorts n) } }.setStep n { st with trig := 2 })) ∧
      (st.stb = 0 → exec (.strobeRise n) s = .next (s.onChip fun c =>
        let d := c.advance st.stbOn
        (d.drive (if d.ioOn then d.lis.strobes ||| d.seqStrobes n else 0)).setStep n { st with stb := 1 })) ∧
      (st.stb = 1 → exec (.strobeFall n) s = .next (s.onChip fun c =>
        let d := c.advance st.stbOff
        { d with lis := { d.lis with strobes := d.lis.strobes &&& (255 - d.seqStrobes n) } }.setStep n { st with stb := 2 }))) ∧
    (∀ out : Fin 8, (bits (s.chip.seqStrobes n) out 1 = 1 ∧ ∀ m : Fin 4, m < n → bits (s.chip.seqStrobes m) out 1 = 0) ∨
      (n = 0 ∧ ∀ m : Fin 4, bits (s.chip.seqStrobes m) out 1 = 0) →
      exec (.stbFault out) s = .next (s.onChip fun c =>
        (c.setBit 0x027 (seqOff n 0x30) out true).logErr 0x027 clsUnit 0x61 0 (word out)))) ∧
  (∀ (s : State) (outs n : Nat), (s.chip.drive outs).lis.strobes = outs ∧ ∀ k,
    let d := s.chip.carDev n k
    let o := Config.lampOutput n (k + 1) % 8
    (s.chip.drive outs).carDev n k = if bits outs o 1 = 1 ∧ bits s.chip.lis.strobes o 1 = 0 then { d with driveMa := d.curMa } else d)

/-! The Narthex (chapter 9). -/

/-- Camera ports (R214, R217, R218, R230, R232): an enable that passes the checks starts with frame 0, no tags and the descriptors of
its handles copied, one that fails them shows CFG_BAD and logs the check's number; a port that is disabled drops its tags and the frame
it captures. The sensor reset follows its bit. A software trigger is active for 1.00 us with tag NONE, and refused while a sequencer
drives the port; at the end of the oldest tag's window every tag whose window has ended is dropped and counted.
Where it rests on choices of the model, they are those of log entries 31 and 33. -/
def Obligations.CameraPorts : Prop :=
  ∀ (req : Requester) (p : Fin 4) (s : State),
    (s.passes req (pgCam p) 0x00C →
      (s.chip.enabled (pgCam p) = true → exec (.portEnable req p) s = .next (s.onChip id)) ∧
      (s.chip.enabled (pgCam p) = false → s.chip.camCheck p = 0 → Answers (.portEnable req p) s fun t =>
        s.keepsMem t ∧ t.chip.enabled (pgCam p) = true ∧ (t.chip.ntxPort p).next = 0 ∧ (t.chip.ntxPort p).cap = none ∧
        (t.chip.ntxPort p).tags = [] ∧ (t.chip.ntxPort p).descs = s.chip.camDescs p ∧
        t.chip.bit (pgCam p) 0x010 8 = s.chip.bit (pgCam p) 0x010 8) ∧
      (s.chip.enabled (pgCam p) = false → s.chip.camCheck p ≠ 0 → exec (.portEnable req p) s = .next (s.onChip fun c =>
        ((c.setBit (pgCam p) 0x00C 0 true).setBit (pgCam p) 0x010 8 true).logErr (pgCam p) clsUse 0x05 (ownerCode req)
          (word (c.camCheck p)))) ∧
      (s.chip.enabled (pgCam p) = false → exec (.portDisable req p) s = .next (s.onChip id)) ∧
      (s.chip.enabled (pgCam p) = true → Answers (.portDisable req p) s fun t =>
        t.chip.enabled (pgCam p) = false ∧ t.chip.bit (pgCam p) 0x010 8 = false ∧ (t.chip.ntxPort p).cap = none ∧
        (t.chip.ntxPort p).tags = [])) ∧
    (s.passes req (pgCam p) 0x058 →
      (∀ level, exec (.rstAssert req p level) s = .next (s.onChip fun c => c.setBit (pgCam p) 0x058 0 level)) ∧
      (s.chip.seqOfPort p = none → exec (.trigSw req p) s = .next (s.onChip fun c =>
        let d := { c with lis := { c.lis with trigs := c.lis.trigs ||| 2 ^ p.val } }
        (d.setNtxPort p { d.ntxPort p with swTrig := some (c.time.now + 1000) }).trigTag p {})) ∧
      (s.chip.seqOfPort p ≠ none → exec (.trigSw req p) s = .next (s.onChip fun c =>
        c.logUse (pgCam p) 0x10 req (regAddr (pgCam p) 0x058)))) ∧
    ((s.chip.ntxPort p).swTrig = none → exec (.trigSwEnd p) s = .next (s.onChip id)) ∧
    (∀ t, (s.chip.ntxPort p).swTrig = some t → exec (.trigSwEnd p) s = .next (s.onChip fun c =>
      let d := c.advance t
      { d with lis := { d.lis with trigs := d.lis.trigs &&& (15 - 2 ^ p.val) } }.setNtxPort p { d.ntxPort p with swTrig := none })) ∧
    ((s.chip.ntxPort p).tags = [] → exec (.trigWindowExpiry p) s = .next (s.onChip id)) ∧
    (∀ tag rest, (s.chip.ntxPort p).tags = tag :: rest → Answers (.trigWindowExpiry p) s fun t =>
      let kept := (tag :: rest).filter fun x => decide (t.chip.time.now ≤ s.chip.windowEnd p x.2)
      s.keepsMem t ∧ t.chip.time.now = max s.chip.time.now (s.chip.windowEnd p tag.2 + 1) ∧ (t.chip.ntxPort p).tags = kept ∧
      t.chip.rd (pgCam p) 0x074 = s.chip.rd (pgCam p) 0x074 + word ((tag :: rest).length - kept.length) ∧
      t.chip.rd (pgCam p) 0x014 = s.chip.rd (pgCam p) 0x014 ||| 8)

/-- A frame being captured (R211, R215-R220, R222, R223, R229): its start takes the next number, latches the frame's values and, with
triggers, takes the oldest tag; a line without error counts, and an in-line one waits for the pipeline while a memory-fed one is
stored in the raw tensor; at the end of all its lines the frame counts OK, and a whole memory-fed frame is ready for the pipeline. A
frame that ends with an error shows the error's code, counts it, and is lost to the demodulator: a blank too short (5), no tag (10),
the error of a line, every line while the clocks are stopped (7), a glitch (6), too few lines (3), a lost clock (8) or one too fast
(9). The error cases are stated of frames without taps, statistics or a frame before them in the pipeline.
Where it rests on choices of the model, they are those of log entry 33. -/
def Obligations.Captures : Prop :=
  ∀ (p : Fin 4) (s : State),
    let c := s.chip
    let x := c.ntxPort p
    let trig := c.bit (pgCam p) 0x040 24
    let tag := if trig then (x.tags.head?.map Prod.fst).getD {} else {}
    let f := c.newFrame p x.next c.time.tb.toNat tag
    let plain := fun (g : Frame) => decide (g.taps = []) && !c.bit 0x025 (0x088 + 0x20 * p) 31 && decide (x.errs = []) &&
      !((c.inPipe p).any fun h => !h.is g && h.before g)
    let lost := fun (code : Nat) (cap : Option Capture) (g : Frame) (t : State) =>
      s.keepsMem t ∧ t.chip.fld (pgCam p) 0x064 0 8 = code ∧ t.chip.rd (pgCam p) 0x06C = c.rd (pgCam p) 0x06C + 1 ∧
      (t.chip.ntxPort p).cap = cap ∧ t.chip.dmd.inbox = c.dmd.inbox ++ [{ port := p, tag := g.tag, num := g.num, lost := true }]
    (∀ blank, c.camRuns p = false ∨ x.cap ≠ none → exec (.frameStart p blank) s = .next (s.onChip id)) ∧
    (∀ blank, c.camRuns p = true → x.cap = none → x.tags.all (fun t => decide (c.time.now ≤ c.windowEnd p t.2)) = true →
      (64 ≤ blank → trig = false ∨ x.tags ≠ [] → f.mode = 0 ∨ x.busy.all (fun b => b.2 != f.rawSlot) = true →
        Answers (.frameStart p blank) s fun t =>
          s.keepsMem t ∧ (t.chip.ntxPort p).cap = some { frame := f } ∧ (t.chip.ntxPort p).next = (x.next + 1) % 2 ^ 32 ∧
          (t.chip.ntxPort p).tags = (if trig then x.tags.drop 1 else x.tags) ∧
          t.chip.rd (pgCam p) 0x060 = word x.next ∧ t.chip.bit (pgCam p) 0x010 9 = true ∧
          t.chip.ntx.inl = (if f.mode = 0 then c.ntx.inl ++ [wholeFrame f] else c.ntx.inl) ∧
          ∀ a, a ∉ [regAddr (pgCam p) 0x060, regAddr (pgCam p) 0x010] → t.chip.wordAt a = c.wordAt a) ∧
      (f.mode = 0 → plain f = true → (blank < 64 → Answers (.frameStart p blank) s (lost 5 (some { frame := f, ended := true }) f)) ∧
        (64 ≤ blank → trig = true → x.tags = [] → Answers (.frameStart p blank) s (lost 10 (some { frame := f, ended := true }) f)))) ∧
    (∀ line, x.cap = none ∨ (x.cap.any fun k => k.ended) = true → exec (.lineEnd p line) s = .next (s.onChip id)) ∧
    (∀ k, x.cap = some k → k.ended = false →
      (∀ line, c.tripped = false → firstError (c.lineErrors k line) = 0 →
        let px := (c.activePx k line).map Prod.snd
        let taken := fun (n : Nat) (c : Chip) =>
          c.setNtxPort p { c.ntxPort p with cap := some { k with lines := k.lines + 1, counted := k.counted + n } }
        (k.lines < k.frame.vstart → exec (.lineEnd p line) s = .next (s.onChip (taken 0))) ∧
        (k.frame.vstart ≤ k.lines → k.frame.mode = 0 → exec (.lineEnd p line) s = .next (s.onChip fun c =>
          let takes := fun (it : PipeItem) => if it.frame.is k.frame then { it with waiting := it.waiting ++ [px] } else it
          { taken 1 c with ntx := { (taken 1 c).ntx with inl := c.ntx.inl.map takes } })) ∧
        (k.frame.vstart ≤ k.lines → k.frame.mode ≠ 0 → ∀ o, k.frame.opd 4 (0x2C + p) = some o → ∀ w,
          (storeLine o (slotOf o k.frame.num) 0 k.counted (px.map some)).run { s.work with chip := taken 1 c } = (.ok (), w) →
          Answers (.lineEnd p line) s fun t => s.after t w fun c =>
            if k.frame.mode = 2 then { c with ntx := { c.ntx with ready := c.ntx.ready ++ readyStripes k.frame k.counted } } else c)) ∧
      (k.frame.h ≤ k.counted → (k.frame.mode = 0 → c.ntx.inl.all (fun it => !it.frame.is k.frame || it.waiting != []) = true) →
        (k.frame.mode = 2 → (x.doneOf k.frame).length ≠ k.frame.h) → Answers (.frameEnd p false) s fun t =>
          let closes := fun (it : PipeItem) => if it.frame.is k.frame then { it with closed := true } else it
          s.keepsMem t ∧ (t.chip.ntxPort p).cap = none ∧ t.chip.fld (pgCam p) 0x064 0 8 = 0 ∧
          t.chip.rd (pgCam p) 0x068 = c.rd (pgCam p) 0x068 + 1 ∧ t.chip.bit (pgCam p) 0x010 9 = false ∧
          t.chip.ntx.inl = (if k.frame.mode = 0 then c.ntx.inl.map closes else c.ntx.inl) ∧
          t.chip.ntx.ready = (if k.frame.mode = 1 then c.ntx.ready ++ [wholeFrame k.frame] else c.ntx.ready)) ∧
      (k.frame.port = p.val → plain k.frame = true →
        (∀ line, let code := if c.tripped then 7 else firstError (c.lineErrors k line)
          code ≠ 0 → code < 10 → Answers (.lineEnd p line) s (lost code (some { k with ended := true }) k.frame)) ∧
        (∀ edges : BitVec 16, 2000 < edges.toNat → Answers (.pclkFast p edges) s (lost 9 none k.frame)) ∧
        Answers (.clkLost p) s (lost 8 none k.frame) ∧ Answers (.frameEnd p true) s (lost 6 none k.frame) ∧
        (k.counted < k.frame.h → Answers (.frameEnd p false) s (lost 3 none k.frame)))) ∧
    (x.cap = none → ∀ glitch, exec (.frameEnd p glitch) s = .next (s.onChip id)) ∧
    Answers (.clkLost p) s (fun t => (t.chip.ntxPort p).clkBad = true ∧ t.chip.bit (pgCam p) 0x010 2 = true) ∧
    (∀ edges : BitVec 16, edges.toNat ≤ 2000 →
      exec (.pclkFast p edges) s = .next (s.onChip fun c => c.setFld (pgCam p) 0x064 8 16 edges.toNat)) ∧
    exec (.pclkReturns p) s = .next (s.onChip fun c =>
      (c.setBit (pgCam p) 0x010 2 false).setNtxPort p { c.ntxPort p with clkBad := false, cap := none })

/-- The pipeline's work (R221, R222, R223, R224): it takes the next line of in-line input before memory work, poisoning the pixels of
line-buffer words that fail their check and logging them, and otherwise the next raw line of the memory context's work; the memory
context takes the work that became ready first, for a whole frame or a stripe, once it is free. A pipeline held in reset or whose
clocks are stopped, and one without work, takes nothing. The last line of a piece of work, which completes its stages, is stated by
the definition of that completion.
Where it rests on choices of the model, they are those of log entry 33. -/
def Obligations.PipelineWork : Prop :=
  ∀ (s : State),
    let c := s.chip
    let lineOf := fun (parity : List Nat) (px : Nat) (l : List (Option Nat)) =>
      l.zipIdx.map fun v => if parity.contains (v.2 / px) then none else v.1
    let pxOf := fun (f : Frame) => if f.depth = 8 then 8 else 4
    let bad := fun (parity : List Nat) (f : Frame) => (parity.eraseDups.filter fun i => decide (i * pxOf f < f.w)).length
    (∀ parity, c.pipeHeld = true ∨ c.tripped = true ∨ (c.ntx.inl.all (fun it => it.waiting == []) = true ∧ c.ntx.mem = none) →
      exec (.pipelineLine parity) s = .next (s.onChip id)) ∧
    (c.pipeHeld = false → c.tripped = false → ∀ it, c.ntx.inl.find? (fun it => it.waiting != []) = some it →
      ∀ l rest, it.waiting = l :: rest → ∀ parity,
      let next := { it with waiting := rest, pos := it.pos + 1, taken := it.taken ++ [lineOf parity (pxOf it.frame) (l.map some)] }
      let put := fun (x : PipeItem) => if x.frame.is it.frame then next else x
      let took := fun (c : Chip) =>
        ({ c with ntx := { c.ntx with inl := c.ntx.inl.map put } }.pipeCount it.frame).pipeParity (bad parity it.frame)
      (it.closed = false ∨ rest ≠ [] ∨ it.pos + 1 ≠ it.frame.h → exec (.pipelineLine parity) s = .next (s.onChip took)) ∧
      (it.closed = true → rest = [] → it.pos + 1 = it.frame.h → Answers (.pipelineLine parity) s fun t =>
        s.after t (itemDone next { s.work with chip :=
          { took c with ntx := { (took c).ntx with inl := (took c).ntx.inl.filter fun x => !x.frame.is it.frame } } }).2 id)) ∧
    (c.pipeHeld = false → c.tripped = false → c.ntx.inl.all (fun it => it.waiting == []) = true → ∀ it, c.ntx.mem = some it →
      ∀ l w, (loadRaw it.frame it.pos).run s.work = (.ok l, w) → it.pos + 1 ≤ it.inHi → ∀ parity,
      let next := { it with pos := it.pos + 1, taken := it.taken ++ [lineOf parity (pxOf it.frame) l] }
      Answers (.pipelineLine parity) s fun t => s.after t w fun c =>
        ({ c with ntx := { c.ntx with mem := some next } }.pipeCount it.frame).pipeParity (bad parity it.frame)) ∧
    (∀ port : Fin 4,
      (c.pipeHeld = true ∨ c.ntx.mem ≠ none ∨ c.ntx.ready = [] → ∀ i ∈ [Instr.memFrameStart port, .stripeStart port],
        exec i s = .next (s.onChip id)) ∧
      (c.pipeHeld = false → c.ntx.mem = none → ∀ it rest, c.ntx.ready = it :: rest →
        ∀ i m, (i, m) ∈ [(Instr.memFrameStart port, 1), (.stripeStart port, 2)] →
          (it.frame.port = port.val → it.frame.mode = m →
            exec i s = .next (s.onChip fun c => { c with ntx := { c.ntx with mem := some it, ready := rest } })) ∧
          (it.frame.port ≠ port.val ∨ it.frame.mode ≠ m → exec i s = .next (s.onChip id))))

/-! The vision engines, the demodulator and the Choir (chapters 8, 10, 11). -/

/-- The vision commands and the demodulation of a stored stack execute (R198, R207, R237-R244, R247-R256, R260-R272): each does what
its definition over its operands computes, whatever line-buffer words fail their check on the way, and every such command that a
queue has fetched is finished by it.
Where it rests on choices of the model, they are those of log entries 23, 24 and 35. -/
def Obligations.VisionCommandsExecute : Prop :=
  ∀ (q : Fin 128) (parity : List (Nat × Nat)),
    Executes (.pyrBuild q parity) q 0x80 (pyrBuild parity) (fun _ _ => True) ∧
    Executes (.pyrLaplace q parity) q 0x81 (pyrLaplace parity) (fun _ _ => True) ∧
    Executes (.wrpHomog q parity) q 0x90 (wrpHomog parity) (fun _ _ => True) ∧
    Executes (.wrpMesh q parity) q 0x91 (wrpMesh parity) (fun _ _ => True) ∧
    Executes (.ftrDetect q parity) q 0xA0 (ftrDetect parity) (fun _ _ => True) ∧
    Executes (.flwLevel q parity) q 0xB0 (flwLevel parity) (fun _ _ => True) ∧
    Executes (.strLevel q parity) q 0xC0 (strLevel parity) (fun _ _ => True) ∧
    Executes (.dmdOffline q) q 0xD1 dmdOffline (fun _ _ => True)

/-- The demodulator (R197-R199, R201, R202, R207): a DMD_PERIOD that passes its checks executes and waits for sub-frames, or writes the
invalid output that is due at once, and one that fails ends with its check's code. In block form a sub-frame at chip 0 begins a period
and is accumulated, and a lost one between periods is only counted. A sub-frame with more saturated pixels than FLOOD_THRESH abandons
its period: the next output of the port is an invalid one, FLOODS counts it, and the sequencer restarts at the second fire after it, or
at the next one where that has passed. A port without a sub-frame, one whose flood decision waits for another port's, and all while the
clocks are stopped do nothing.
Where it rests on choices of the model, they are those of log entries 30 and 31. -/
def Obligations.DemodulatorCommands : Prop :=
  ∀ (p : Fin 4) (s : State),
    let c := s.chip
    let d := c.dmdPort p
    (∀ q : Fin 128, q.val = 104 + p.val → c.tripped = false → ∀ r, c.running q = some r → s.fetched q 0xD0 r →
      let r' := { r with executed := true }
      (∀ w, (dmdCheck p r).run s.work = (.ok (), w) →
        (d.outs = [] → d.held = none → Answers (.dmdPeriod q) s fun t => s.after t w fun c => c.setRunning q (some r')) ∧
        (∀ o rest, d.outs = o :: rest →
          let w1 := { w with chip := (w.chip.setRunning q (some r')).setDmdPort p { d with outs := rest } }
          ∀ v w2, (do let v ← dmdWrite p r' o allInvalid; liftM (meetWrites q 0x28); return v : EM (Stats × AeRec)).run w1 =
              (.ok v, w2) → Answers (.dmdPeriod q) s fun t =>
            t.mem = s.mem.applyAll w2.ops.reverse ∧ (t.chip.dmdPort p).outs = rest ∧ (t.chip.dmdPort p).nOut = d.nOut + 1 ∧
            t.chip.running q = some { r' with
              finished := true, sat := r.sat + v.1.sat, poison := r.poison || v.1.poison, flooded := r.flooded || v.1.flooded })) ∧
      (∀ e w, (dmdCheck p r).run s.work = (.error e, w) → Answers (.dmdPeriod q) s fun t =>
        s.after t w fun c => c.setRunning q (some { r' with finished := true, status := e }))) ∧
    (c.tripped = true ∨ c.dmd.inbox.any (fun f => f.port == p.val) = false → exec (.dmdSubframe p) s = .next (s.onChip id)) ∧
    (c.tripped = false → ∀ f, c.dmd.inbox.find? (fun f => f.port == p.val) = some f → ∀ n, c.seqOfPort p = some n →
      (c.floodView n f = .waits → exec (.dmdSubframe p) s = .next (s.onChip id)) ∧
      (d.mode = 0 → d.held = none → d.floodAt = none → (c.seq n).gapFire ≠ some f.tag.fire → codeLen f.tag.code ≠ 0 →
        let took := { c with dmd := { c.dmd with inbox := c.dmd.inbox.erase f } }
        let shift := (d.latch f.tag).inShift
        (c.floodView n f = .clear → f.lost = true → f.tag.chip ≠ 0 → exec (.dmdSubframe p) s = .next (s.onChip fun _ =>
          took.count 0x026 (dmdOff p 0x1C))) ∧
        (c.floodView n f = .clear → f.lost = false → f.tag.chip = 0 → c.seqSliding n = false → ∀ r, c.dmdCmd p = some r →
          let x := { d with mode := 1, code := f.tag.code, chip := 0, fire := f.tag.fire, period := f.tag.period, cmd := r.count,
                            frame := f.num, window := [], held := none }
          ∀ w, (dmdBlock p r f shift).run { s.work with chip := took.setDmdPort p x } = (.ok none, w) →
            Answers (.dmdSubframe p) s fun t => s.after t w id) ∧
        (c.floodView n f = .flood → (d.latch f.tag).thresh < f.satCount → f.lost = false → f.tag.chip = 0 → c.dmdCmd p = none →
          (List.range 4).all (fun k => (c.dmdPort k).mode != 1) = true → Answers (.dmdSubframe p) s fun t =>
            s.keepsMem t ∧ t.chip.rd 0x026 (dmdOff p 0x14) = c.rd 0x026 (dmdOff p 0x14) + 1 ∧
            t.chip.dmdPort p = { d with mode := 2, gap := fireAdd f.tag.fire 1, window := [],
                                        outs := d.outs ++ [{ dstatus := 1, code := f.tag.code, frame := f.num, period := f.tag.period }] } ∧
            (firePast (c.fires n) (fireAdd f.tag.fire 2) = false →
              t.chip.seq n = { c.seq n with floodFire := some f.tag.fire, gapFire := some (fireAdd f.tag.fire 1),
                                            restart := some (fireAdd f.tag.fire 2) } ∧
              ∀ a, a ≠ regAddr 0x026 (dmdOff p 0x14) → t.chip.wordAt a = c.wordAt a) ∧
            (firePast (c.fires n) (fireAdd f.tag.fire 2) = true →
              t.chip.seq n = { c.seq n with floodFire := some f.tag.fire, gapFire := some (fireAdd f.tag.fire 1),
                                            restartNext := true }))))

/-- The Choir's commands (R283, R289-R292): one that passes its checks is divided into its tiles, none dealt, and one that fails a check
ends with the check's code before anything is executed; while the clocks are stopped none starts.
Where it rests on choices of the model, they are those of log entries 29 and 36. -/
def Obligations.ChoirCommands : Prop :=
  ∀ (q : Fin 128) (s : State) (r : Running), ∀ i op,
    (i, op) ∈ [(Instr.conv q, 0x40), (.matmul q, 0x41), (.eltwise q, 0x42), (.pool q, 0x43), (.act q, 0x44)] → s.fetched q op r →
    (s.chip.tripped = true → exec i s = .next (s.onChip id)) ∧
    (s.chip.tripped = false →
      (∀ v w, (do return (← choCheck q op r, ← choOpds q r) : EM (List Int × ChoOpds)).run s.work = (.ok v, w) →
        Answers i s fun x => s.after x w fun c =>
          let d := c.setRunning q (some { r with executed := true, debug := r.debug || c.debugOn (pgQ q :: c.unitPages (unitOf q)) })
          let k : ChoCmd := { q := q, n := choTiles op v.2, left := choTiles op v.2, table := v.1 }
          { d with cho := { d.cho with cmds := d.cho.cmds ++ [k] } }) ∧
      (∀ e w, (do return (← choCheck q op r, ← choOpds q r) : EM (List Int × ChoOpds)).run s.work = (.error e, w) →
        Answers i s fun x => s.after x w fun c =>
          c.setRunning q (some { r with executed := true, finished := true, status := e })))

/-- Tiles (R284, R294, R297): the group deals its next tile to the first free stall; a good tile's outputs are stored, its cycles and
its completion counted, and the command is ready to retire with its last tile; a fault of its stores ends the command. A tile that
fails its check or runs longer than four times its cycles plus 65 536 leaves its stall SUSPECT with the cause counted and raised, and
is run again where another stall of the group is healthy and it was not run again before; otherwise the command ends UNIT_FAILED.
Without a free stall, a tile to deal or a tile that runs nothing happens.
Where it rests on choices of the model, they are those of log entry 36. -/
def Obligations.ChoirTiles : Prop :=
  (∀ (g : Fin 8) (s : State),
    let dealer := s.chip.cho.cmds.find? fun k => k.q / 8 == g.val && k.deal.isSome
    (s.chip.resetBusy 0x060 = true ∨ s.chip.tripped = true ∨ s.chip.freeStall g = none ∨ dealer.isNone = true →
      exec (.tileDeal g) s = .next (s.onChip id)) ∧
    (s.chip.resetBusy 0x060 = false → s.chip.tripped = false → ∀ st, s.chip.freeStall g = some st → ∀ k, dealer = some k →
      ∀ x, k.deal = some x → exec (.tileDeal g) s = .next (s.onChip fun c =>
        { c with cho := { c.cho with
            cmds := c.cho.cmds.map fun y => if y.q = k.q then x.2 else y
            tiles := aput c.cho.tiles st (ChoTile.mk k.q x.1 c.time.now false) } }))) ∧
  ∀ (st : Fin 32) (s : State),
    (s.chip.tileOn st = none → (∀ check ∈ [TileCheck.good, .residue, .accParity], exec (.tileComplete st check) s = .next (s.onChip id)) ∧
      exec (.tileTimeout st) s = .next (s.onChip id)) ∧
    ∀ z, s.chip.tileOn st = some z →
    let x := z.1
    let k := z.2.1
    let r := z.2.2
    let n := tileTime x.q r k x.t s.work
    let taken := ((s.chip.takeTile st).count (pgStall st) 0x040).count (pgStall st) 0x044 n
    let stores := (do let v ← choTileOut x.q r k x.t st; liftM (meetWrites x.q st); return v : EM Stats).run { s.work with chip := taken }
    let bad := fun (c : Chip) (busy : Nat) =>
      (((c.takeTile st).setBit (pgStall st) 0x010 11 true).count (pgStall st) 0x044 busy).refreshStalls
    let again := fun (c : Chip) =>
      !k.reran.contains x.t && ((c.servedSlots (x.q / 8)).map c.slotPhys).any fun y => y != st.val && !c.suspect y
    let rerun := fun (c : Chip) =>
      let d := (c.count 0x060 0x054).redeal x.q x.t
      { d with cho := { d.cho with cmds := d.cho.cmds.map fun y => if y.q = x.q then { y with reran := y.reran ++ [x.t] } else y } }
    let failed := fun (t : State) =>
      t.chip.rd 0x060 0x058 = s.chip.rd 0x060 0x058 + 1 ∧ t.chip.cho.cmds.any (fun y => y.q == x.q) = false ∧
      t.chip.running x.q = some { r with status := 0x2C, finished := true, executed := true, awaiting := [] }
    let due := x.since + (4 * n + 65536) * 1000 / max 1 (s.chip.fld 0x060 0x04C 0 11)
    (∀ v w, stores = (.ok v, w) → Answers (.tileComplete st .good) s fun t => s.after t w fun c =>
        let one := c.cho.cmds.map fun y => if y.q = x.q then { y with left := y.left - 1 } else y
        let c := { c with cho := { c.cho with cmds := if k.left ≤ 1 then one.filter (fun y => y.q != x.q) else one } }
        c.setRunning x.q (some { r with
          finished := decide (k.left ≤ 1), sat := r.sat + v.sat, poison := r.poison || v.poison,
          debug := r.debug || c.debugOn (pgStall st :: pgQ x.q :: c.unitPages (unitOf x.q)) })) ∧
    (∀ e w, stores = (.error e, w) → Answers (.tileComplete st .good) s fun t =>
      t.chip.running x.q = some { r with status := e, finished := true, executed := true, awaiting := [] } ∧
      t.chip.cho.cmds.any (fun y => y.q == x.q) = false) ∧
    (let d := bad ((s.chip.count (pgStall st) 0x048).raise (pgStall st) 0) n
     (again d = true → exec (.tileComplete st .residue) s = .next (s.onChip fun _ => rerun d)) ∧
     (again d = false → Answers (.tileComplete st .residue) s failed)) ∧
    (let d := bad ((s.chip.count (pgStall st) 0x04C).raise (pgStall st) 1) n
     (again d = true → exec (.tileComplete st .accParity) s = .next (s.onChip fun _ => rerun d)) ∧
     (again d = false → Answers (.tileComplete st .accParity) s failed)) ∧
    (let d := bad ((s.chip.advance due).raise (pgStall st) 2) (4 * n + 65536)
     (again d = true → exec (.tileTimeout st) s = .next (s.onChip fun _ => rerun d)) ∧
     (again d = false → Answers (.tileTimeout st) s failed))

/-- Stalls (R278, R282, R298-R300): at a command boundary of a group a slot whose stall is SUSPECT gets the lowest spare and its
window's copy starts, or becomes VACANT with CHO_LOST_SLOT where no spare is left; off a boundary nothing is remapped. When the copy
is done REDIRECT names the spare. Of the stalls that a request names, one that serves no slot retires as it is asked and one that
serves a slot keeps its request until the remap. SUSPECT_CLR makes a stall healthy.
Where it rests on choices of the model, they are those of log entry 34. -/
def Obligations.StallRemaps : Prop :=
  (∀ (g : Fin 8) (s : State), s.chip.groupBoundary g = false → exec (.remap g) s = .next (s.onChip id)) ∧
  (∀ (g : Fin 8) (s : State), s.chip.groupBoundary g = true → ∀ i, i ∈ s.chip.boundarySlots g →
    let st := s.chip.slotPhys i
    s.chip.slotVacant i = false → s.chip.copying i = false → s.chip.suspect st = true → s.chip.bit 0x060 0x048 st = false →
    (s.chip.boundarySlots g).all (fun j => j == i || s.chip.slotVacant j || s.chip.copying j ||
      (!s.chip.suspect (s.chip.slotPhys j) && !s.chip.bit 0x060 0x048 (s.chip.slotPhys j) &&
        !s.chip.stallRetired (s.chip.slotPhys j) && s.chip.stallAllowed (s.chip.slotPhys j))) = true →
    (∀ n, (List.range 32).find? s.chip.isSpare = some n → exec (.remap g) s = .next (s.onChip fun c =>
      let d := c.setFld 0x060 (0x080 + 4 * i) 0 6 n
      { d with cho := { d.cho with copies := d.cho.copies ++ [ChoCopy.mk i st n] } }.refreshStalls)) ∧
    ((List.range 32).find? s.chip.isSpare = none → exec (.remap g) s = .next (s.onChip fun c =>
      ((((c.setBit 0x060 (0x080 + 4 * i) 8 true).raise 0x060 1).logErr 0x060 clsUnit 0x63 0 0).retireDone st).refreshStalls))) ∧
  (∀ s : State, s.chip.cho.copies = [] → exec .remapCopyDone s = .next (s.onChip id)) ∧
  (∀ s : State, ∀ k rest, s.chip.cho.copies = k :: rest → Answers .remapCopyDone s fun t =>
    s.after t ((copyWindow k) s.work).2 fun c =>
      let d := (((c.setFld (pgStall k.slot) 0x058 0 5 k.spare).count 0x060 0x050).raise 0x060 0).retireDone k.old
      { d with cho := { d.cho with copies := rest } }.refreshStalls) ∧
  ∀ (req : Requester) (s : State),
    let kept := fun (t : State) => ∀ a, a ∉ (List.range 32).map (fun k => regAddr (pgStall k) 0x010) → a ≠ regAddr 0x060 0x044 →
      a ≠ regAddr 0x060 0x048 → t.chip.wordAt a = s.chip.wordAt a
    (s.passes req 0x060 0x048 → ∀ m : Word, Answers (.retireReq req m) s fun t =>
      s.keepsMem t ∧ kept t ∧ ∀ k : Fin 32,
        t.chip.bit 0x060 0x048 k = (if m.getLsbD k then (s.chip.stallSlot k).isSome else s.chip.bit 0x060 0x048 k) ∧
        t.chip.stallRetired k = (s.chip.stallRetired k || (m.getLsbD k && (s.chip.stallSlot k).isNone))) ∧
    ∀ st : Fin 32, s.passes req (pgStall st) 0x05C → Answers (.suspectClr req st) s fun t =>
      s.keepsMem t ∧ kept t ∧ t.chip.suspect st = false ∧ t.chip.rd 0x060 0x048 = s.chip.rd 0x060 0x048 ∧
      ∀ k : Fin 32, k ≠ st → t.chip.suspect k = s.chip.suspect k

/-! The DMA engine (chapter 14). -/

/-- DMA channels (R333, R335, R336, R338-R341, R346, R349): a START that passes every check begins a pass with DONE_BYTES 0, one that
fails a check leaves the channel IDLE with the check's code, on a halted engine it is refused, and a channel that has started ignores
it. STOP makes a running channel STOPPING and SHADOW_ARM arms a patterned one. At a pass's end STOP leaves the channel IDLE, an armed
shadow set that passes the checks is loaded and one that fails them leaves the channel in ERROR, a circular descriptor begins again, and
a soft reset that waits takes effect; without a pass at its end nothing happens. The first bus error halts the engine with its address
kept; later ones are counted.
Where it rests on choices of the model, they are those of log entry 37. -/
def Obligations.DmaChannels : Prop :=
  ∀ (req : Requester) (ch : Fin 16) (s : State),
    let c := s.chip
    let p := pgDma ch
    let only := fun (t : State) => s.keepsMem t ∧ ∀ a, a ∉ [regAddr p 0x100, regAddr p 0x104, regAddr p 0x110, regAddr 0x090 0x054] →
      t.chip.wordAt a = c.wordAt a
    let code := c.dmaCheck (c.dmaDesc ch 0)
    let next := c.dmaCheck (c.dmaDesc ch 0x080)
    (s.passes req p 0x100 →
      (c.dmaHalt = false → c.bit p 0x100 0 = true → exec (.dmaStart req ch) s = .next (s.onChip id)) ∧
      (c.dmaHalt = false → c.bit p 0x100 0 = false → code = 0 → Answers (.dmaStart req ch) s fun t =>
        only t ∧ t.chip.dmaState ch = dmaRunning ∧ t.chip.rd p 0x104 = 0 ∧ t.chip.bit p 0x100 0 = true ∧
        t.chip.fld p 0x110 8 8 = 0 ∧ t.chip.bit 0x090 0x054 ch = true) ∧
      (c.dmaHalt = false → c.bit p 0x100 0 = false → code ≠ 0 → Answers (.dmaStart req ch) s fun t =>
        s.keepsMem t ∧ t.chip.dmaState ch = dmaIdle ∧ t.chip.bit p 0x100 0 = false ∧ t.chip.fld p 0x110 8 8 = code ∧
        t.chip.bit p 0x014 3 = true) ∧
      (c.dmaHalt = true → Answers (.dmaStart req ch) s fun t =>
        s.keepsMem t ∧ t.chip.dmaState ch = dmaIdle ∧ t.chip.bit p 0x100 0 = false ∧ t.chip.fld p 0x110 8 8 = 0x01) ∧
      (c.dmaActive ch = true → Answers (.dmaStop req ch) s fun t =>
        only t ∧ t.chip.dmaState ch = dmaStopping ∧ t.chip.bit p 0x100 1 = true ∧ t.chip.rd p 0x104 = c.rd p 0x104) ∧
      (c.dmaActive ch = false → exec (.dmaStop req ch) s = .next (s.onChip id)) ∧
      (exec (.shadowArm req ch) s = .next (s.onChip fun c => if 8 ≤ ch.val then c.setBit p 0x100 2 true else c))) ∧
    (c.dmaActive ch = false ∨ (c.rd p 0x104).toNat ≠ (c.dmaDesc ch 0).total → exec (.passEnd ch) s = .next (s.onChip id)) ∧
    (c.dmaActive ch = true → (c.rd p 0x104).toNat = (c.dmaDesc ch 0).total →
      (c.resetBusy p = true → Answers (.passEnd ch) s fun t =>
        s.keepsMem t ∧ t.chip.dmaState ch = dmaIdle ∧ t.chip.rd p 0x104 = 0 ∧ t.chip.fld p 0x100 0 3 = 0 ∧
        t.chip.fld p 0x110 8 8 = 0 ∧ t.chip.resetBusy p = false) ∧
      (c.resetBusy p = false → c.bit p 0x100 1 = true → exec (.passEnd ch) s = .next (s.onChip fun c =>
        ((c.setFld p 0x100 0 2 0).setDmaState ch dmaIdle).raise p 2)) ∧
      (c.resetBusy p = false → c.bit p 0x100 1 = false →
        (c.bit p 0x100 2 = true → next = 0 → Answers (.passEnd ch) s fun t =>
          s.keepsMem t ∧ t.chip.dmaState ch = dmaRunning ∧ t.chip.rd p 0x104 = 0 ∧ t.chip.bit p 0x100 2 = false ∧
          ∀ k : Fin 13, t.chip.rd p (0x040 + 4 * k) = c.rd p (0x0C0 + 4 * k)) ∧
        (c.bit p 0x100 2 = true → next ≠ 0 → Answers (.passEnd ch) s fun t =>
          s.keepsMem t ∧ t.chip.dmaState ch = dmaError ∧ t.chip.bit p 0x100 0 = false ∧ t.chip.fld p 0x110 8 8 = next ∧
          t.chip.rd p 0x104 = c.rd p 0x104) ∧
        (c.bit p 0x100 2 = false → (c.dmaDesc ch 0).circular = true → Answers (.passEnd ch) s fun t =>
          only t ∧ t.chip.dmaState ch = dmaRunning ∧ t.chip.rd p 0x104 = 0) ∧
        (c.bit p 0x100 2 = false → (c.dmaDesc ch 0).circular = false → Answers (.passEnd ch) s fun t =>
          only t ∧ t.chip.dmaState ch = dmaIdle ∧ t.chip.bit p 0x100 0 = false ∧ t.chip.rd p 0x104 = c.rd p 0x104))) ∧
    (∀ (va : BitVec 39) (write prefetch : Bool),
      let ahead := prefetch && !write
      let ctx := c.dmaErrCtx ch va.toNat ahead
      (c.dmaHalt = true → ∀ why ∈ [BusErr.hostCpl, .poisonRefused],
        exec (.dmaBusError ch va write prefetch why) s = .next (s.onChip fun c => c.count 0x090 0x04C)) ∧
      (c.dmaHalt = false → ∀ why n, (why, n) ∈ [(BusErr.hostCpl, 2), (.poisonRefused, 3)] →
        Answers (.dmaBusError ch va write prefetch why) s fun t =>
          s.keepsMem t ∧ t.chip.dmaHalt = true ∧ t.chip.rd64 0x090 0x040 = va.toNat ∧ t.chip.fld 0x090 0x048 0 8 = n ∧
          t.chip.fld 0x090 0x048 16 4 = ctx % 16 ∧ t.chip.fld 0x090 0x048 20 4 = ch ∧ t.chip.bit 0x090 0x048 30 = write ∧
          t.chip.bit 0x090 0x048 31 = ahead ∧ t.chip.rd 0x090 0x050 = c.rd 0x090 0x050 + 1 ∧
          ∀ k : Fin 16, t.chip.dmaState k =
            if c.dmaActive k then (if c.resetBusy (pgDma k) then dmaIdle else dmaHalted) else c.dmaState k) ∧
      ∀ code, exec (.dmaBusError ch va write prefetch (.rood code)) s = .next (s.onChip fun c =>
        (c.roodFault ctx (if write then 1 else 0) va.toNat code.toNat (0x40 + ch)).dmaBusErr ch va.toNat ctx write ahead 1 code.toNat))

/-- A burst (R330, R332, R335, R337, R338, R340): a running channel translates the addresses of its next element on both sides, the
source under the ID of the channel that asked for its block first, and moves the elements of one burst, at most 256 bytes within a
4 KiB page of each side; an address without a translation halts the engine. A channel that does not run, or has come to the end of its
pass, moves nothing.
Where it rests on choices of the model, they are those of log entry 37. -/
def Obligations.DmaBursts : Prop :=
  (∀ (ch : Fin 16) (s : State),
    let c := s.chip
    let d := c.dmaDesc ch 0
    let done := (c.rd (pgDma ch) 0x104).toNat
    let k := done / d.esize
    let sva := d.addr d.src d.ss k
    let dva := d.addr d.dst d.ds k
    let first := { s.work with chip := c.dmaPrefetch ch }
    let reader := (c.dmaPrefetch ch).dmaReader ch d.ctx sva
    (c.dmaActive ch = false ∨ d.total ≤ done ∨ c.tripped = true ∨ c.pstate = 2 → exec (.dmaBurst ch) s = .next (s.onChip id)) ∧
    (c.dmaActive ch = true → done < d.total → c.tripped = false → c.pstate ≠ 2 →
      (∀ e w, translate d.ctx 0 sva first = (.error e, w) → Answers (.dmaBurst ch) s fun t => s.after t w fun c =>
        (c.roodFault d.ctx 0 sva e (0x40 + reader)).dmaBusErr reader sva d.ctx false true 1 e) ∧
      (∀ spa w1, translate d.ctx 0 sva first = (.ok spa, w1) →
        (∀ e w, translate d.ctx 1 dva w1 = (.error e, w) → Answers (.dmaBurst ch) s fun t => s.after t w fun c =>
          (c.roodFault d.ctx 1 dva e (0x40 + ch)).dmaBusErr ch dva d.ctx true false 1 e) ∧
        (∀ dpa w, translate d.ctx 1 dva w1 = (.ok dpa, w) → Answers (.dmaBurst ch) s fun t =>
          s.after t (dmaMove ch d (d.burst k) spa dpa sva dva w).2 id)))) ∧
  ∀ (d : DmaDesc) (k : Nat), 0 < d.esize → d.esize ≤ 8 → k < d.elems →
    (d.burst k).length * d.esize ≤ 256 ∧ k ∈ d.burst k ∧ (∀ i, i ∈ d.burst k → k ≤ i ∧ i < d.elems) ∧
    ∀ i, i ∈ d.burst k → d.addr d.src d.ss i / 4096 = d.addr d.src d.ss k / 4096 ∧
      d.addr d.dst d.ds i / 4096 = d.addr d.dst d.ds k / 4096

/-! The Ronsan Link and the chapter (chapter 15). -/

/-- Port training (R31, R353, R362, R363): PORT_EN starts at LOCKING; both lanes' clocks locked is ALIGNING; both marked within a skew
of 40 bytes is EXCHANGE; the third matching HELLO is UP with sequence numbers from 0 and the credits of each channel, less what is sent
again. A lane that loses its marker or its clock makes a trained port retrain, and a port not UP 20 ms after its start begins again. In
any other state of the port none of these does anything.
Where it rests on choices of the model, they are those of log entry 38. -/
def Obligations.LinkTraining : Prop :=
  ∀ (req : Requester) (p : Fin 4) (s : State),
    let c := s.chip
    let r := pgRlk p
    let st := c.portState p
    (s.passes req r 0x040 →
      (c.bit r 0x040 0 = false → st ≠ lpQuarantined → Answers (.portEn req p) s fun t =>
        s.keepsMem t ∧ t.chip.bit r 0x040 0 = true ∧ t.chip.portState p = lpLocking ∧ t.chip.rd r 0x048 = 0 ∧
        (t.chip.lport p).hellos = 0 ∧ (t.chip.lport p).since = c.time.now ∧
        ∀ a, a ∉ [regAddr r 0x040, regAddr r 0x044, regAddr r 0x048, regAddr r 0x07C] → t.chip.wordAt a = c.wordAt a) ∧
      (c.bit r 0x040 0 = true ∨ st = lpQuarantined →
        exec (.portEn req p) s = .next (s.onChip fun c => c.setBit r 0x040 0 true))) ∧
    (∀ lane inv, (st = lpLocking ∨ st = lpRetraining → Answers (.cdrLock p lane inv) s fun t =>
        s.keepsMem t ∧ t.chip.laneBit p lane 0 = true ∧ t.chip.laneBit p lane 2 = inv ∧
        t.chip.portState p = (if c.laneBit p (!lane) 0 then lpAligning else st) ∧
        (c.laneBit p (!lane) 0 = true → t.chip.bit r 0x010 2 = false) ∧
        ∀ a, a ∉ [regAddr r 0x010, regAddr r 0x044, regAddr r 0x048] → t.chip.wordAt a = c.wordAt a) ∧
      (st ≠ lpLocking → st ≠ lpRetraining → exec (.cdrLock p lane inv) s = .next (s.onChip id))) ∧
    (∀ lane (skew : BitVec 6),
      let ready := (st = lpAligning ∨ st = lpRetraining) ∧ c.laneBit p false 0 = true ∧ c.laneBit p true 0 = true
      (ready → Answers (.markerLock p lane skew) s fun t =>
        s.keepsMem t ∧ t.chip.laneBit p lane 1 = true ∧ t.chip.fld r 0x048 16 6 = skew.toNat ∧
        t.chip.portState p = (if c.laneBit p (!lane) 1 && decide (skew.toNat ≤ 40) then lpExchange else st) ∧
        ∀ a, a ∉ [regAddr r 0x044, regAddr r 0x048, regAddr r 0x07C] → t.chip.wordAt a = c.wordAt a) ∧
      (¬ ready → exec (.markerLock p lane skew) s = .next (s.onChip id))) ∧
    (∀ m : Hello,
      let fits := m.port.val = partner p ∧ m.topo = c.chTorus ∧ m.expectM1.val + 1 = c.chExpect
      (st ≠ lpExchange → exec (.hello p m) s = .next (s.onChip fun c => c.renewCredit p)) ∧
      (st = lpExchange → fits → (c.lport p).hellos < 2 → Answers (.hello p m) s fun t =>
        s.keepsMem t ∧ t.chip.portState p = lpExchange ∧ (t.chip.lport p).hellos = (c.lport p).hellos + 1 ∧
        t.chip.bit r 0x044 15 = true ∧ t.chip.fld r 0x044 12 2 = m.port.val) ∧
      (st = lpExchange → fits → 2 ≤ (c.lport p).hellos → Answers (.hello p m) s fun t => t.chip.portState p = lpUp) ∧
      (st = lpExchange → fits → 2 ≤ (c.lport p).hellos → c.chEn = false → Answers (.hello p m) s fun t =>
        s.keepsMem t ∧ t.chip.portState p = lpUp ∧ t.chip.bit r 0x014 0 = true ∧ (t.chip.lport p).rxNext = 0 ∧
        (t.chip.lport p).txNext = (t.chip.lport p).replay.length ∧ (t.chip.lport p).replay.map TxFlit.seq = List.range (t.chip.lport p).replay.length ∧
        (∀ v : Fin 5, t.chip.credits p v + (t.chip.lport p).replay.countP (fun f => f.vc == v.val) = [64, 64, 16, 16, 8].getD v 0) ∧
        (t.chip.lport p).replay.length + (t.chip.lport p).txq.length = (c.lport p).replay.length + (c.lport p).txq.length ∧
        (m.pos.toNat < 8 → t.chip.fld r 0x044 8 3 = m.pos.toNat) ∧ t.chip.selState (creditSel p) = 1) ∧
      (st = lpExchange → ¬ fits → Answers (.hello p m) s fun t =>
        s.keepsMem t ∧ t.chip.portState p = lpExchange ∧ t.chip.bit r 0x014 3 = true ∧ (t.chip.lport p).hellos = 0)) ∧
    (∀ lane, ∀ i b, (i, b) ∈ [(Instr.markerLoss p lane, 1), (.cdrLoss p lane, 0)] →
      (c.laneBit p lane b = false → exec i s = .next (s.onChip id)) ∧
      (c.laneBit p lane b = true → lpAligning ≤ st → st ≠ lpQuarantined → Answers i s fun t =>
        s.keepsMem t ∧ t.chip.portState p = lpRetraining ∧ t.chip.laneBit p lane b = false ∧ t.chip.laneBit p lane 1 = false ∧
        t.chip.rd r 0x058 = c.rd r 0x058 + 1 ∧ t.chip.bit r 0x014 2 = true ∧ (t.chip.lport p).since = c.time.now ∧
        (t.chip.lport p).replay = (c.lport p).replay) ∧
      (c.laneBit p lane b = true → st < lpAligning ∨ st = lpQuarantined → Answers i s fun t =>
        s.keepsMem t ∧ t.chip.portState p = st ∧ t.chip.laneBit p lane b = false ∧ t.chip.laneBit p lane 1 = false)) ∧
    (st ∉ [lpDown, lpUp, lpQuarantined] → Answers (.trainTimeout p) s fun t =>
      s.keepsMem t ∧ t.chip.time.now = max c.time.now ((c.lport p).since + 20000000) ∧ t.chip.portState p = lpLocking ∧
      t.chip.rd r 0x048 = 0 ∧ t.chip.rd r 0x05C = c.rd r 0x05C + 1) ∧
    (st ∈ [lpDown, lpUp, lpQuarantined] → exec (.trainTimeout p) s = .next (s.onChip id))

/-- Flits and the replay (R354-R357): a flit with a bad CRC is counted and opens one NAK episode, and so is one on a reserved VC; an
idle flit's ACK releases what it covers, its credits are added up to the channel's buffer, and flits that wait are sent while credits
last. A sequenced flit out of order is discarded, with a NAK where it comes too early; a MGMT flit of a reserved subtype is accepted and
discarded. A NAK, or 4 us without progress, sends the rest of the replay buffer again, and the eighth time in a row without progress
retrains the port. On a port that is not UP nothing of this happens.
Where it rests on choices of the model, they are those of log entry 38. -/
def Obligations.LinkFlits : Prop :=
  ∀ (p : Fin 4) (h : FlitHdr) (s : State),
    let c := s.chip
    let r := pgRlk p
    let x := c.lport p
    let acked := ((x.replay.findIdx? fun f => f.seq == h.ack.toNat).map (· + 1)).getD 0
    let kept := x.replay.drop acked
    let resends := if acked = 0 then x.resends else 0
    (c.portState p = lpUp →
      (Answers (.flitCrcError ⟨p, none⟩) s fun t =>
        s.keepsMem t ∧ t.chip.rd r 0x04C = c.rd r 0x04C + 1 ∧ (t.chip.lport p).naking = true ∧
        t.chip.rd r 0x050 = c.rd r 0x050 + (if x.naking then 0 else 1) ∧ (t.chip.lport p).replay = x.replay ∧
        t.chip.portState p = lpUp) ∧
      (Answers (.idleFlit p h) s fun t =>
        s.keepsMem t ∧ (t.chip.lport p).replay.take kept.length = kept ∧ (t.chip.lport p).lastGood = c.time.now ∧
        (t.chip.lport p).replay.length + (t.chip.lport p).txq.length = kept.length + x.txq.length ∧
        (∀ v : Fin 5, t.chip.credits p v + (t.chip.lport p).replay.countP (fun f => f.vc == v.val) =
          (if h.cvc.toNat = v then min (vcBuffer v) (c.credits p v + h.ccnt.toNat) else c.credits p v) +
            kept.countP fun f => f.vc == v.val) ∧
        (t.chip.lport p).rxNext = x.rxNext ∧
        ∀ a, (∀ q : Fin 4, a ≠ regAddr (pgRlk q) 0x07C) → (∀ v : Fin 5, a ≠ regAddr r (0x068 + 4 * v)) → t.chip.wordAt a = c.wordAt a) ∧
      (kept ≠ [] → resends + 1 < 8 → Answers (.nak p h) s fun t =>
        s.keepsMem t ∧ (t.chip.lport p).replay.take kept.length = kept ∧ t.chip.rd r 0x054 = c.rd r 0x054 + 1 ∧
        (t.chip.lport p).resends = resends + 1 ∧ t.chip.portState p = lpUp) ∧
      (kept ≠ [] → 7 ≤ resends → Answers (.nak p h) s fun t =>
        s.keepsMem t ∧ t.chip.portState p = lpRetraining ∧ (t.chip.lport p).resends = 0) ∧
      (kept = [] → x.txq = [] → exec (.nak p h) s = exec (.idleFlit p h) s) ∧
      (x.replay = [] → exec (.replayTimeout p) s = .next (s.onChip fun c => c.advance (c.time.now + 4000))) ∧
      (x.replay ≠ [] → x.resends + 1 < 8 → Answers (.replayTimeout p) s fun t =>
        s.keepsMem t ∧ t.chip.time.now = c.time.now + 4000 ∧ (t.chip.lport p).replay = x.replay ∧
        t.chip.rd r 0x054 = c.rd r 0x054 + 1 ∧ (t.chip.lport p).resends = x.resends + 1 ∧ t.chip.portState p = lpUp) ∧
      (x.replay ≠ [] → 7 ≤ x.resends → Answers (.replayTimeout p) s fun t =>
        s.keepsMem t ∧ t.chip.portState p = lpRetraining ∧ (t.chip.lport p).resends = 0)) ∧
    (c.inOrder p h → exec (.flitCrcError ⟨p, some h⟩) s = .next (s.onChip fun c => (c.flitTaken p h).freeEntry p h.vc.toNat)) ∧
    (∀ (ex ey : BitVec 8) (pos : Fin 8) mem map epoch m src mask data parity sm rm,
      ∀ i ∈ [Instr.flitCrcError ⟨p, some h⟩, .enum p h ex ey, .join p h pos, .chapterUp p h mem, .linkMap p h map epoch, .pieceHead p h m,
          .piecePmap p h src mask, .pieceData p h src data parity, .signalFlit p h sm, .resp p h rm],
        (c.portState p = lpUp → 5 ≤ h.vc.toNat → exec i s = exec (.flitCrcError ⟨p, none⟩) s) ∧
        (c.portState p = lpUp → h.vc.toNat < 5 → h.seq.toNat ≠ x.rxNext → exec i s = .next (s.onChip fun c =>
          let d := c.goodFlit p h
          if (x.rxNext + 1024 - h.seq.toNat) % 1024 ≤ 512 then d else d.sendNak p)) ∧
        (c.portState p ≠ lpUp → exec i s = .next (s.onChip id))) ∧
    (c.portState p ≠ lpUp → ∀ i ∈ [Instr.flitCrcError ⟨p, none⟩, .nak p h, .replayTimeout p], exec i s = .next (s.onChip id)) ∧
    (c.portState p ≠ lpUp → exec (.idleFlit p h) s = .next (s.onChip fun c => c.renewCredit p))

/-- Forming the chapter (R359-R361, R364, R365, R373-R375): CHAPTER_EN makes a head of position 0, UP at once where it expects itself
alone, and a member without a position; cleared, it takes every port DOWN and the chip is its own chapter. An ENUM in range gives a
member its position and sends its JOIN, and one that contradicts it is a topology error; the head records JOINs, a member relays them;
CHAPTER_UP brings a member UP; a member takes a LINK_MAP it has not seen. Each frees its buffer entry, and elsewhere does no more. A
position unreachable for 2 ms is lost, a member without its head is HEADLESS, and fences lift when every LXE queue is STOPPED.
Where it rests on choices of the model, they are those of log entry 39. -/
def Obligations.ChapterForms : Prop :=
  ∀ (req : Requester) (p : Fin 4) (h : FlitHdr) (s : State),
    let c := s.chip
    let forms := c.chEn = true ∧ c.chHead = true ∧ c.chState = chForming
    let follows := c.chEn = true ∧ c.chHead = false ∧ c.chState = chUp
    (s.passes req 0x0B4 0x040 →
      (∀ v : Word, c.chEn = false → v &&& 0x77 = 0x03 → Answers (.chapterEn req v) s fun t =>
        s.keepsMem t ∧ t.chip.chState = chUp ∧ t.chip.chLive = 1 ∧ t.chip.members = 1 ∧ t.chip.fld 0x0B4 0x044 12 4 = 1 ∧
        t.chip.chPos = 0 ∧ t.chip.chPosValid = true ∧ t.chip.bit 0x0B4 0x014 0 = true) ∧
      (∀ v : Word, c.chEn = false → v &&& 0x03 = 0x03 → v &&& 0x70 ≠ 0 → Answers (.chapterEn req v) s fun t =>
        s.keepsMem t ∧ t.chip.chEn = true ∧ t.chip.chState = chForming ∧ t.chip.chPos = 0 ∧ t.chip.chPosValid = true ∧
        t.chip.link.joined = 1 ∧ t.chip.linkMap = 0) ∧
      (∀ v : Word, c.chEn = false → v &&& 0x03 = 0x01 → Answers (.chapterEn req v) s fun t =>
        s.keepsMem t ∧ t.chip.chEn = true ∧ t.chip.chState = chForming ∧ t.chip.chPosValid = false ∧ t.chip.linkMap = 0) ∧
      (∀ v : Word, c.chEn = false → v.getLsbD 0 = false →
        exec (.chapterEn req v) s = .next (s.onChip fun c => c.wr 0x0B4 0x040 (v &&& 0x77))) ∧
      (∀ v : Word, c.chEn = true → v.getLsbD 0 = true → exec (.chapterEn req v) s = .next (s.onChip fun c =>
        c.logUse 0x0B4 0x04 req (regAddr 0x0B4 0x040))) ∧
      (∀ v : Word, c.chEn = true → v.getLsbD 0 = false → Answers (.chapterEn req v) s fun t =>
        s.keepsMem t ∧ t.chip.chEn = false ∧ t.chip.chState = chIdle ∧ t.chip.members = 1 ∧ t.chip.chPos = 0 ∧ t.chip.linkMap = 0 ∧
        t.chip.fenced = 0 ∧ t.chip.link.xfers = [] ∧
        (∀ q : Fin 4, t.chip.portState q = if c.portState q = lpQuarantined then lpQuarantined else lpDown) ∧
        ∀ g : Fin 8, (3 ≤ c.fld (pgSlot g) 0x080 0 3 ∧ c.fld (pgSlot g) 0x080 0 3 ≤ 5 → t.chip.fld (pgSlot g) 0x080 0 3 = 6))) ∧
    (c.inOrder p h →
      let got := fun (f : Chip → Chip) (d : Chip) => (f (d.flitTaken p h)).freeEntry p h.vc.toNat
      (∀ x y : BitVec 8,
        let pos := if c.chTorus then 4 * y.toNat + x.toNat else x.toNat
        let fits := x.toNat < (if c.chTorus then 4 else c.chExpect) ∧ y.toNat < (if c.chTorus then 2 else 1)
        (c.chEn = true → c.chPosValid = false → fits → exec (.enum p h x y) s = .next (s.onChip (got fun c =>
          let d := c.setChapter 0 0 0 true pos c.chState
          let d := { d with link := { d.link with headPort := some p.val } }
          (d.sendEnums [0, 1, 2, 3]).sendOn p 4 (.join pos)))) ∧
        (c.chEn = true → ¬ fits ∨ c.chPosValid = true ∧ pos ≠ c.chPos →
          exec (.enum p h x y) s = .next (s.onChip (got fun c => c.topoErr))) ∧
        (c.chEn = false ∨ fits ∧ c.chPosValid = true ∧ pos = c.chPos → exec (.enum p h x y) s = .next (s.onChip (got id)))) ∧
      (∀ pos : Fin 8,
        (c.chEn = true → c.chHead = true → exec (.join p h pos) s = .next (s.onChip (got fun c =>
          let d := { c with link := { c.link with joined := c.link.joined ||| 2 ^ pos.val } }
          if d.allJoined then d.headUp else d))) ∧
        (∀ q, c.link.headPort = some q → c.chEn = true → c.chHead = false →
          exec (.join p h pos) s = .next (s.onChip (got fun c => c.sendOn q 4 (.join pos.val)))) ∧
        (c.chEn = false ∨ c.chHead = false ∧ c.link.headPort = none → exec (.join p h pos) s = .next (s.onChip (got id)))) ∧
      (∀ m,
        let waits := c.chEn = true ∧ c.chHead = false ∧ c.chPosValid = true ∧ c.chState = chForming
        (waits → exec (.chapterUp p h m) s = .next (s.onChip (got fun c =>
          (c.chapterUp m.toNat).sendMgmt (some p.val) fun _ => .chapterUp m.toNat))) ∧
        (¬ waits → exec (.chapterUp p h m) s = .next (s.onChip (got id)))) ∧
      (∀ (m : BitVec 32) (e : BitVec 8),
        let news := c.chEn = true ∧ c.chHead = false ∧ (c.chState = chUp ∨ c.chState = chHeadless) ∧
          (e.toNat ≠ c.linkEpoch ∨ m.toNat ≠ c.linkMap)
        (news → exec (.linkMap p h m e) s = .next (s.onChip (got fun c =>
          (c.applyMap m.toNat e.toNat).sendMgmt (some p.val) fun _ => .linkMap m.toNat e.toNat))) ∧
        (¬ news → exec (.linkMap p h m e) s = .next (s.onChip (got id))))) ∧
    (∀ t, c.link.firstUp = some t → forms → exec .chapterUpTimeout s = .next (s.onChip fun c => (c.advance (t + 10000000)).headUp)) ∧
    (c.link.firstUp = none ∨ ¬ forms → exec .chapterUpTimeout s = .next (s.onChip id)) ∧
    (∀ pos : Fin 8,
      let leads := c.chEn = true ∧ c.chHead = true ∧ c.chState = chUp ∧ bits c.chLive pos 1 = 1
      (∀ t, aget c.link.unreach pos.val = some t → leads → exec (.memberLost pos) s = .next (s.onChip fun c =>
        let d := ((c.advance (t + 2000000)).setBit 0x0B4 0x044 (24 + pos) false).setBit 0x0B4 0x048 pos true
        (d.raise 0x0B4 1).logErr 0x0B4 clsLink 0x44 0 0)) ∧
      (aget c.link.unreach pos.val = none ∨ ¬ leads → exec (.memberLost pos) s = .next (s.onChip id))) ∧
    (∀ t, aget c.link.unreach 0 = some t → follows → Answers .headLost s fun u =>
      s.keepsMem u ∧ u.chip.chState = chHeadless ∧ u.chip.bit 0x0B4 0x014 2 = true ∧
      u.chip.time.now = max c.time.now (t + 2000000) ∧
      ∀ g : Fin 8, (3 ≤ c.fld (pgSlot g) 0x080 0 3 ∧ c.fld (pgSlot g) 0x080 0 3 ≤ 5 → u.chip.fld (pgSlot g) 0x080 0 3 = 6)) ∧
    (aget c.link.unreach 0 = none ∨ ¬ follows → exec .headLost s = .next (s.onChip id)) ∧
    ((∀ q ∈ unitQueues .lxe, c.qstate q = qStopped) → exec .fenceLift s = .next (s.onChip fun c => c.setFld 0x0B4 0x04C 0 8 0)) ∧
    ((∃ q ∈ unitQueues .lxe, c.qstate q ≠ qStopped) → exec .fenceLift s = .next (s.onChip id))

/-- Transfers and SIGNALs between chips (R160, R177, R359, R366-R369, R526): a flit in order that is not for this chip goes on along its
route, and one for the LXE waits while that is in reset or without its clock, or behind another that waits. A head is held for its data
with what its checks found, or answered at once where it has none; a mask marks the poisoned bytes of the next data flit of its source;
data is written through the bound descriptor; a SIGNAL of this epoch is applied and answered OK, another is answered STALE. A RESP that
is OK takes its identifier off the command that awaits it, any other ends the command, and one that nothing awaits is counted. No RESP in
2 ms ends it LINK_TIMEOUT. PIECE_SEND executes its body, here or as a transfer, or ends with its code.
Where it rests on choices of the model, they are those of log entry 41. -/
def Obligations.LinkTransfers : Prop :=
  (∀ (p : Fin 4) (h : FlitHdr) (s : State), s.chip.inOrder p h →
    let got := fun (f : Chip → Chip) (d : Chip) => (f (d.flitTaken p h)).freeEntry p h.vc.toNat
    let acts := h.route = [] ∧ s.chip.resetBusy 0x0B4 = false ∧ s.chip.tripped = false ∧ s.chip.link.parked = []
    (∀ (m : PieceHeadMsg) (from_ : Fin 8) mask data parity (sm : SignalMsg) (rm : RespMsg),
      ∀ i b src ok, (i, b, src, ok) ∈ [(Instr.pieceHead p h m, FlitBody.head m, m.srcPos, (0 : BitVec 64)),
          (.piecePmap p h from_ mask, .pmap mask, from_, 0), (.pieceData p h from_ data parity, .data data, from_, parity),
          (.signalFlit p h sm, .signal sm, sm.srcPos, 0), (.resp p h rm, .resp rm, rm.pos, 0)] →
        (∀ q rest, h.route = q :: rest → exec i s = .next (s.onChip fun c => (c.flitTaken p h).forward p h.vc.toNat q rest b)) ∧
        (h.route = [] → i ≠ .resp p h rm → ¬ acts → exec i s = .next (s.onChip fun c =>
          let d := c.flitTaken p h
          { d with link := { d.link with parked := d.link.parked ++ [Parked.mk p h.vc.toNat b src ok] } }))) ∧
    (acts →
      (∀ m : PieceHeadMsg, m.nData ≠ 0 → exec (.pieceHead p h m) s = .next (s.onChip (got fun c =>
        { c with link := { c.link with recvs := aput c.link.recvs m.srcPos (Recv.mk m (c.headCheck m true) m.nData.toNat [] 0 none) } }))) ∧
      (∀ m : PieceHeadMsg, m.nData = 0 → exec (.pieceHead p h m) s = .next (s.onChip (got fun c =>
        c.recvEnd m.srcPos (Recv.mk m (c.headCheck m true) 0 [] 0 none)))) ∧
      (∀ (src : Fin 8) mask, exec (.piecePmap p h src mask) s = .next (s.onChip (got fun c =>
        match aget c.link.recvs src.val with
        | none => c
        | some r => { c with link := { c.link with recvs := aput c.link.recvs src.val { r with mask := some mask } } }))) ∧
      (∀ (src : Fin 8) data parity, Answers (.pieceData p h src data parity) s fun t =>
        s.after t ((dataRx src data parity) { s.work with chip := s.chip.flitTaken p h }).2 fun c => c.freeEntry p h.vc.toNat) ∧
      (∀ m : SignalMsg, exec (.signalFlit p h m) s = .next (s.onChip (got fun c =>
        if m.epoch.toNat = c.linkEpoch then (c.signal' m.evt.toNat m.inc.toNat).sendResp m.srcPos m.sigId.toNat 0
        else c.sendResp m.srcPos m.sigId.toNat 0xF0)))) ∧
    (h.route = [] → ∀ m : RespMsg,
      (aget s.chip.link.xfers m.ident.toNat = none → exec (.resp p h m) s = .next (s.onChip (got fun c => c.count 0x0B4 0x068))) ∧
      (∀ x, aget s.chip.link.xfers m.ident.toNat = some x → m.status = 0 → exec (.resp p h m) s = .next (s.onChip (got fun c =>
        let d := { c with link := { c.link with xfers := adel c.link.xfers m.ident.toNat } }
        match c.running x.q with
        | none => d
        | some r =>
          let d := d.setRunning x.q (some { r with awaiting := r.awaiting.filter fun i => i != m.ident.toNat })
          if r.op = 0x18 then d.count 0x0B4 0x060 else d))) ∧
      (∀ x, aget s.chip.link.xfers m.ident.toNat = some x → m.status ≠ 0 → Answers (.resp p h m) s fun t =>
        s.keepsMem t ∧ (∀ y ∈ t.chip.link.xfers, y.2.q ≠ x.q) ∧
        t.chip.running x.q = (s.chip.running x.q).map fun r =>
          { r with status := if m.status = 0xF0 then 0x29 else m.status.toNat, finished := true, executed := true, awaiting := [] }))) ∧
  (∀ (q : Fin 128) (s : State),
    (∀ t, s.chip.lastSent q = some t → Answers (.linkTimeout q) s fun u =>
      s.keepsMem u ∧ u.chip.time.now = max s.chip.time.now (t + 2000000) ∧ (∀ y ∈ u.chip.link.xfers, y.2.q ≠ q.val) ∧
      u.chip.running q = (s.chip.running q).map (fun r =>
        { r with status := 0x29, finished := true, executed := true, awaiting := [] }) ∧
      u.chip.rd 0x0B4 0x064 = s.chip.rd 0x0B4 0x064 + 1) ∧
    (s.chip.lastSent q = none → exec (.linkTimeout q) s = .next (s.onChip id))) ∧
  (∀ (q : Fin 128) (s : State) (r : Running), s.fetched q 0x18 r → s.chip.tripped = false →
    (∀ st w, (runBody q (pieceSendBody q) r).run s.work = (.ok st, w) →
      Answers (.pieceSend q) s fun t => s.after t w fun c => (c.setRunning q (some (r.ended s.chip q st))).awaitXfers q) ∧
    (∀ e w, (runBody q (pieceSendBody q) r).run s.work = (.error e, w) →
      Answers (.pieceSend q) s fun t => t.chip.running q = some (r.failed s.chip q e)))

/-- Chapter time (R370): a child that is 2^20 ns of its timebase past its last exchange stamps its request within 7 ns of its timebase; a
parent answers with two such stamps; and an answer to the child's own request steps the timebase at the first exchange, and again where
the offset is 1 ms or more, and slews it by the offset otherwise, TS_LOCK following three exchanges in a row. A TSYNC that answers no
request is taken for its ACK and credits alone, and on a port that is not UP for nothing.
Where it rests on choices of the model, they are those of log entry 40. -/
def Obligations.ChapterTime : Prop :=
  ∀ (s : State),
    let c := s.chip
    let child := c.chEn = true ∧ c.chHead = false ∧ c.chState = chUp ∧ (c.route 0).isSome = true
    (child → Answers .tsyncExchange s fun t =>
      s.keepsMem t ∧ t.chip.link.tsLast = some t.chip.time.tb.toNat ∧
      (c.link.tsLast = none → t.chip.time.now = c.time.now) ∧
      (∀ e, c.link.tsLast = some e → t.chip.time.tb = (c.advanceTb (e + 2 ^ 20)).time.tb) ∧
      ∃ d : Nat, d ≤ 14 ∧ t.chip.link.tsT1 = some ((t.chip.time.tb.toNat + d + 2 ^ 64 - 7) % 2 ^ 64)) ∧
    (¬ child → exec .tsyncExchange s = .next (s.onChip id)) ∧
    (∀ (p : Fin 4) (h : FlitHdr),
      (c.portState p ≠ lpUp → ∀ m, exec (.tsync p ⟨h, m⟩) s = .next (s.onChip id)) ∧
      (c.portState p = lpUp →
        (∀ t1 : DWord, Answers (.tsync p ⟨h, .request t1⟩) s fun t => s.keepsMem t ∧
          ∃ d : Nat, ∃ e : Nat, d ≤ 14 ∧ e ≤ 14 ∧ t.chip.link.tsReply =
            [t1.toNat, (c.time.tb.toNat + d + 2 ^ 64 - 7) % 2 ^ 64, (c.time.tb.toNat + e + 2 ^ 64 - 7) % 2 ^ 64]) ∧
        (∀ t1 t2 t3 : DWord, c.link.tsT1 ≠ some t1.toNat →
          exec (.tsync p ⟨h, .answer t1 t2 t3⟩) s = .next (s.onChip fun c => c.goodFlit p h)) ∧
        (∀ t1 t2 t3 : DWord, c.link.tsT1 = some t1.toNat → Answers (.tsync p ⟨h, .answer t1 t2 t3⟩) s fun t =>
          s.keepsMem t ∧ t.chip.link.tsT1 = none ∧ t.chip.link.tsFirst = false ∧ ∃ d : Nat, d ≤ 14 ∧
            let t4 : Nat := (c.time.tb.toNat + d + 2 ^ 64 - 7) % 2 ^ 64
            let o := (t1.toNat : Int) - (t2.toNat - (((t4 : Int) - t1.toNat) - ((t3.toNat : Int) - t2.toNat) + 1) / 2)
            t.chip.rd 0x0B4 0x058 = BitVec.ofInt 32 o ∧
            (c.link.tsFirst = false → o.natAbs < 1000000 →
              t.chip.rd 0x0D0 0x054 = BitVec.ofInt 32 (-o) ∧ t.chip.time.tbStep = c.time.tbStep) ∧
            (c.link.tsFirst = true ∨ 1000000 ≤ o.natAbs → c.time.tbStep = none →
              t.chip.time.tbStep = some (BitVec.ofInt 64 ((c.time.tb.toNat : Int) + 40 - o))) ∧
            (c.link.tsFirst = false → 1000000 ≤ o.natAbs → t.chip.bit 0x0B4 0x05C 0 = false) ∧
            (o.natAbs < 100 → 2 ≤ c.link.tsGood → t.chip.bit 0x0B4 0x05C 0 = true) ∧
            (100 ≤ o.natAbs → 2 ≤ c.link.tsBad → t.chip.bit 0x0B4 0x05C 0 = false))))

/-! The Precentor (chapter 13). -/

/-- The graph commands (R308, R310, R322, R323): LOAD from EMPTY, START from LOADED, STOP while RUNNING or SWITCHING, ABORT while it runs
and UNLOAD from LOADED or FAILED act, each elsewhere ends with GERR_STATE, and any is refused while one is in progress. LOAD ends LOADED,
or EMPTY with the code of the image's first failing check; START ends RUNNING or with its code; STOP ends LOADED once every admitted
frame is committed, and the slot that NEXT_SLOT names follows. IN_POST and OUT_ACK count within their bounds.
Where it rests on choices of the model, they are those of log entries 56 and 57. -/
def Obligations.GraphCommands : Prop :=
  ∀ (req : Requester) (g : Fin 8) (s : State),
    let c := s.chip
    let p := pgSlot g
    let all := [Instr.graphLoad req g, .graphStart req g, .graphStop req g, .graphAbort req g, .unload req g]
    let ends := fun (t : State) (st code : Nat) => t.chip.gstate g = st ∧ t.chip.rd p 0x07C = word code ∧ t.chip.bit p 0x014 0 = true
    (s.passes req p 0x078 →
      (c.bit p 0x07C 31 = true → ∀ i ∈ all, exec i s = .next (s.onChip fun c => c.logUse p 0x0D req (regAddr p 0x078))) ∧
      (c.bit p 0x07C 31 = false →
        (∀ i ok, (i, ok) ∈ [(Instr.graphLoad req g, [0]), (.graphStart req g, [2]), (.graphStop req g, [3, 5]), (.unload req g, [2, 6])] →
          c.gstate g ∉ ok → exec i s = .next (s.onChip fun c => (c.wr p 0x07C 1).raise p 0)) ∧
        (c.gstate g = 0 → exec (.graphLoad req g) s = .next (s.onChip fun c => (c.setGstate g 1).wr p 0x07C 0x80000000)) ∧
        (c.gstate g = 3 → exec (.graphStop req g) s = .next (s.onChip fun c => (c.setGstate g 4).wr p 0x07C 0)) ∧
        (c.gstate g = 5 → exec (.graphStop req g) s = .next (s.onChip fun c =>
          (c.mapSlot g fun x => { x with stopping := true }).wr p 0x07C 0)) ∧
        (∀ code w, (startSlot g (c.rd64 p 0x070) none true) s.work = (code, w) → c.gstate g = 2 →
          Answers (.graphStart req g) s fun t => s.after t w (fun c => c.gEnd g code) ∧ (code = 0 → ends t 3 0)) ∧
        (∀ x, c.gslot g = some x → c.slotLive g = true →
          let w := ((do
            for q in (c.gPlace g x).queuesAt c.chPos do
              if (← getChip).qstate q ≠ qQuarantined then queueSoftReset q
            graphRelease g : WM Unit) s.work).2
          Answers (.graphAbort req g) s fun t => s.after t w (fun c => (c.graphLoaded g).gEnd g 0) ∧ ends t 2 0) ∧
        (c.slotLive g = false ∨ c.gslot g = none →
          exec (.graphAbort req g) s = .next (s.onChip fun c => (c.wr p 0x07C 1).raise p 0)) ∧
        (c.gstate g = 2 ∨ c.gstate g = 6 → Answers (.unload req g) s fun t =>
          t.pending = s.pending ∧ t.fuses = s.fuses ∧ t.mem = s.mem.applyAll ((graphRelease g) s.work).2.ops.reverse ∧
          t.chip.gslot g = none ∧ ends t 0 0))) ∧
    (c.gstate g ≠ 1 → exec (.graphLoadDone g) s = .next (s.onChip id)) ∧
    (∀ e w, (checkImage g) s.work = (.error e, w) → c.gstate g = 1 → Answers (.graphLoadDone g) s fun t =>
      s.after t w (fun c => (c.setGstate g 0).gEnd g e) ∧ ends t 0 e) ∧
    (∀ im w, (checkImage g) s.work = (.ok im, w) → c.gstate g = 1 →
      let free := w.chip.leaseState 0x073 = 0 ∨ w.chip.holds .prc0 0x073 = true
      (∀ e, w.chip.gDescs g im im.nDesc w.chip = .error e → Answers (.graphLoadDone g) s fun t =>
        s.after t w (fun c => ((c.setGstate g 0).logErr p clsUse 0x05 3 (word e)).gEnd g 0x11) ∧ ends t 0 0x11) ∧
      (∀ d, w.chip.gDescs g im im.nDesc w.chip = .ok d → ¬ free → Answers (.graphLoadDone g) s fun t =>
        s.after t w (fun c => ((c.advance (c.time.now + 10000000)).setGstate g 0).gEnd g 0x12) ∧ ends t 0 0x12) ∧
      (∀ d, w.chip.gDescs g im im.nDesc w.chip = .ok d → free →
        let w' := ((do initContent g im; initRegs im : WM Unit)
          { w with chip := (w.chip.makeDescs g im).setGslot g (some { img := im }) }).2
        Answers (.graphLoadDone g) s fun t => s.after t w' (fun c => (c.setGstate g 2).gEnd g 0) ∧ ends t 2 0)) ∧
    (∀ x, c.gslot g = some x →
      let stops := c.prcRuns = true ∧ c.gstate g = 4 ∧ x.committed = x.admitted
      (stops →
        let w := ((do graphRelease g; chipM fun c => (c.graphLoaded g).gEnd g 0 : WM Unit) s.work).2
        (w.chip.bit p 0x064 11 = false → Answers (.stopComplete g) s fun t => s.after t w id ∧ ends t 2 0) ∧
        (w.chip.bit p 0x064 11 = true → Answers (.stopComplete g) s fun t => s.after t ((graphChain g x) w).2 id)) ∧
      (¬ stops → exec (.stopComplete g) s = .next (s.onChip id))) ∧
    (c.gslot g = none → exec (.stopComplete g) s = .next (s.onChip id)) ∧
    (s.passes req p 0x0A8 → ∀ n : BitVec 16,
      ((c.rd p 0x0AC).toNat + n.toNat ≤ ((c.gslot g).map GSlot.admitted).getD 0 → exec (.outAck req g n) s = .next (s.onChip fun c =>
        c.wr p 0x0AC (word ((c.rd p 0x0AC).toNat + n.toNat)))) ∧
      (((c.gslot g).map GSlot.admitted).getD 0 < (c.rd p 0x0AC).toNat + n.toNat → exec (.outAck req g n) s = .next (s.onChip fun c =>
        c.logUse p 0x0E req (regAddr p 0x0A8)))) ∧
    (s.passes req p 0x0B0 → ∀ node : BitVec 16,
      let bad := s.onChip fun c => c.logUse p 0x0F req (regAddr p 0x0B0)
      (c.gslot g = none → exec (.inPost req g node) s = .next bad) ∧
      (∀ x, c.gslot g = some x →
        let n := (aget x.inPosts node.toNat).getD 0
        let takes := c.slotLive g = true ∧ (∃ y ∈ x.nodesAt (c.gPlace g x) c.chPos, y.1 = node.toNat ∧ y.2.kind = 3) ∧
          n < x.committed + x.img.depth
        (takes → exec (.inPost req g node) s = .next (s.onChip fun c =>
          (c.setGslot g (some { x with inPosts := aput x.inPosts node.toNat (n + 1) })).nodeSignal g x node.toNat)) ∧
        (¬ takes → exec (.inPost req g node) s = .next bad)))

/-- A running graph (R196, R309, R312-R315): on the head a step whose decision falls due is admitted, or skipped for the first of its
causes where it is FREE, and waits where it is LOCKSTEP; a frame's DMD_PERIOD commands go out before its first fire, and each fire
writes the sequencers' fire register; a chip votes a frame good or bad from its source records; the head decides RUN or ABANDON when
every source position has voted, and commits a frame every position shows done; a chip posts what is decided and signals a frame done
when every command of it has retired and its headers are written. What is not due, and a slot that is not there or not in such a state,
changes nothing.
Where it rests on choices of the model, they are those of log entries 58, 60 and 93. -/
def Obligations.GraphRuns : Prop :=
  (∀ (g : Fin 8) (s : State), s.chip.prcRuns = false ∨ s.chip.gslot g = none →
    ∀ i ∈ [Instr.stepDecision g, .graphFire g, .vote g, .runDecision g, .framePost g, .doneSignal g, .commit g],
      exec i s = .next (s.onChip id)) ∧
  ∀ (g : Fin 8) (s : State), s.chip.prcRuns = true → ∀ x, s.chip.gslot g = some x →
    let c := s.chip
    let e := c.evtBase g
    let st := c.gstate g
    let pl := c.gPlace g x
    let fire := fun (f : GFrame) => (do
      chipM fun c =>
        let c := c.advanceTb (f.start + f.fired * (c.rd (pgSlot g) 0x06C).toNat)
        let c := if f.fired = 0 then (maskBits 4 x.img.seqMask).foldl (fun (c : Chip) n => c.fireGap g n) c else c
        c.setFrame g { f with
          fired := f.fired + 1, start := if f.fired = 0 then max f.start c.time.tb.toNat else f.start,
          first := if f.fired = 0 then (maskBits 4 x.img.seqMask).map fun n => (n, fireAdd (c.fires n) 1) else f.first }
      regWrite .prc0 (regAddr 0x027 0x040) (word x.img.seqMask) : WM Unit)
    (¬ (c.isHead = true ∧ (st = 3 ∨ st = 5 ∧ x.stopping = false)) → exec (.stepDecision g) s = .next (s.onChip id)) ∧
    (c.isHead = true → st = 3 ∨ st = 5 ∧ x.stopping = false → c.gFree g = true →
      let due := x.t0 + x.steps * c.gPeriod g
      let d := c.advanceTb (due - 100000)
      let skip := fun (off : Nat) => exec (.stepDecision g) s = .next (s.onChip fun _ => d.skipStep g x.steps off)
      (st = 5 → skip 0x09C) ∧ (st = 3 → x.full = true → skip 0x094) ∧ (st = 3 → x.full = false → d.hostFull g x = true → skip 0x098) ∧
      (st = 3 → x.full = false → d.hostFull g x = false → due < d.time.tb.toNat → skip 0x0A0) ∧
      (st = 3 → x.full = false → d.hostFull g x = false → d.time.tb.toNat ≤ due →
        exec (.stepDecision g) s = .next (s.onChip fun _ => d.prcSignalAll e 1))) ∧
    (c.isHead = true → st = 3 ∨ st = 5 ∧ x.stopping = false → c.gFree g = false →
      let due := (x.lastD.map (· + c.gPeriod g)).getD (x.t0 - 100000)
      let d := c.advanceTb due
      (st = 5 ∨ x.full = true ∨ c.hostFull g x = true → exec (.stepDecision g) s = .next (s.onChip id)) ∧
      (st = 3 → x.full = false → c.hostFull g x = false → exec (.stepDecision g) s = .next (s.onChip fun _ =>
        (d.setGslot g (some { x with lastD := some (max due d.time.tb.toNat) })).prcSignalAll e 1))) ∧
    (let srcs := c.gSources x pl
     let ready := c.slotLive g = true ∧ srcs ≠ [] ∧
       ∀ n ∈ maskBits 4 x.img.seqMask, c.fireReady n (portsOf (srcs.filter fun n => n.kind == 0)) = true
     (¬ ready ∨ (x.frames.find? fun f => decide (f.fired < c.graphK x)) = none → exec (.graphFire g) s = .next (s.onChip id)) ∧
     (∀ f, (x.frames.find? fun f => decide (f.fired < c.graphK x)) = some f → ready →
       let go := fun (f : GFrame) => f.dmdPosted && (f.fired != 0 || f.todo.isEmpty)
       (f.dmdPosted = true → ∀ f', c.gFrame g f.a = some f' →
         (go f' = true → Answers (.graphFire g) s fun t => s.after t ((fire f') s.work).2 id) ∧
         (go f' = false → exec (.graphFire g) s = .next (s.onChip id))) ∧
       (f.dmdPosted = false →
         let w := ((postDmd g x f) s.work).2
         (∀ f', w.chip.gFrame g f.a = some f' → go f' = true → Answers (.graphFire g) s fun t => s.after t ((fire f') w).2 id) ∧
         ((w.chip.gFrame g f.a).any go = false → Answers (.graphFire g) s fun t => s.after t w id)))) ∧
    (let due := c.slotLive g = true ∧ c.gSources x pl ≠ []
     (¬ due ∨ (x.frames.find? fun f => !f.voted) = none → exec (.vote g) s = .next (s.onChip id)) ∧
     (∀ f, (x.frames.find? fun f => !f.voted) = some f →
       (x.decided < f.a ∨ ((c.gSources x pl).mapM fun n => c.gRec x n f) = none → exec (.vote g) s = .next (s.onChip id)) ∧
       (∀ rs, ((c.gSources x pl).mapM fun n => c.gRec x n f) = some rs → due → f.a ≤ x.decided →
         exec (.vote g) s = .next (s.onChip fun c =>
           let bad := rs.any fun r => if r.dmd then r.status == 3 else r.status != 0
           (c.setFrame g { f with voted := true }).prcSignal 0 (e + 8 + c.chPos) (if bad then 2 else 1))))) ∧
    (let heads := c.isHead = true ∧ (st = 3 ∨ st = 4)
     let qs := ((x.img.nodes.zipIdx.filter fun n => n.1.isSrc && pl.pos n.2 != 0xFF).map fun n => pl.pos n.2).eraseDups
     let new := fun q => c.gcount g x (8 + q) - (aget x.votes q).getD 0
     let alive := maskBits 8 pl.alive
     let shown := fun q => x.committed + 1 ≤ c.gcount g x (16 + q) - (aget x.doneOff q).getD 0
     (heads → x.decided < x.admitted → (∀ q ∈ qs, new q ≠ 0) → exec (.runDecision g) s = .next (s.onChip fun c =>
       let votes := qs.foldl (fun l q => aput l q (c.gcount g x (8 + q))) x.votes
       (c.setGslot g (some { x with votes := votes })).prcSignalAll (e + (if qs.all fun q => new q == 1 then 2 else 3)) 1)) ∧
     (¬ (heads ∧ x.decided < x.admitted ∧ ∀ q ∈ qs, new q ≠ 0) → exec (.runDecision g) s = .next (s.onChip id)) ∧
     (heads → x.committed < x.decided → (∀ q ∈ alive, shown q) →
       exec (.commit g) s = .next (s.onChip fun c => c.prcSignalAll (e + 4) 1)) ∧
     (¬ (heads ∧ x.committed < x.decided ∧ ∀ q ∈ alive, shown q) → exec (.commit g) s = .next (s.onChip id))) ∧
    (st = 6 → Answers (.framePost g) s fun t => s.after t ((failHeaders g) s.work).2 id) ∧
    (st ∉ [3, 4, 6] → exec (.framePost g) s = .next (s.onChip id)) ∧
    (st = 3 ∨ st = 4 →
      let w := ((rewriteStates g x.img) s.work).2
      let rest := x.frames.find? fun f => !f.todo.isEmpty && (f.posted || f.run.isNone)
      let next := x.frames.find? fun f => f.run.isSome && !f.posted
      (∀ f, rest = some f → Answers (.framePost g) s fun t => s.after t ((do pushFrame g f.a; headersReady g f.a : WM Unit) w).2 id) ∧
      (rest = none → next = none → Answers (.framePost g) s fun t => s.after t w id) ∧
      (∀ f, next = some f → rest = none →
        (f.run = some true → Answers (.framePost g) s fun t => s.after t ((postRun g f.a) w).2 id) ∧
        (f.run = some false → Answers (.framePost g) s fun t =>
          s.after t ((headersNow g f.a 1 (w.chip.outNodes g x)) { w with chip := w.chip.setFrame g { f with posted := true } }).2 id))) ∧
    (¬ (st = 3 ∨ st = 4) ∨ (x.frames.find? fun f => !f.done) = none → exec (.doneSignal g) s = .next (s.onChip id)) ∧
    (∀ f, (x.frames.find? fun f => !f.done) = some f → st = 3 ∨ st = 4 →
      let w := ((headersReady g f.a) s.work).2
      let ends := fun (f : GFrame) => f.posted && f.todo.isEmpty && f.cmds.all w.chip.cmdRetired &&
        (w.chip.outNodes g x).all fun i => f.headers.contains i
      (∀ f', w.chip.gFrame g f.a = some f' → ends f' = true → Answers (.doneSignal g) s fun t => s.after t w fun c =>
        (c.setFrame g { f' with done := true }).prcSignal 0 (c.evtBase g + 16 + c.chPos) 1) ∧
      ((w.chip.gFrame g f.a).any ends = false → Answers (.doneSignal g) s fun t => s.after t w id))

/-- The switch of placements (R319-R321): the head takes in what the LOSS counters tell; where the placement can no longer run, or a
frame has failed, it signals the lowest placement that can, or the graph fails. Each chip clears ENABLE on its queues and, once they
rest, resets them and signals QUIET; the head resumes when every surviving position is quiet; and each chip takes the new placement and
posts its frames again, with SWITCHED raised and what its DMD_SRC nodes posted standing. Otherwise nothing happens.
Where it rests on choices of the model, they are those of log entry 61. -/
def Obligations.GraphSwitches : Prop :=
  (∀ (g : Fin 8) (s : State), s.chip.prcRuns = false ∨ s.chip.gslot g = none →
    ∀ i ∈ [Instr.switchStart g, .switchQuiesce g, .switchResume g, .switchRepost g], exec i s = .next (s.onChip id)) ∧
  ∀ (g : Fin 8) (s : State), s.chip.prcRuns = true → ∀ x, s.chip.gslot g = some x →
    let c := s.chip
    let st := c.gstate g
    let qs := c.quietQueues (c.gPlace g x)
    let off := fun (c : Chip) => qs.foldl (fun (c : Chip) q => c.gated .prc0 (pgQ q) 0x00C fun c => c.queueEnableTo q false) c
    let delta := fun q => c.gcount g x (24 + q) - (aget x.losses q).getD 0
    let lost := (List.range 8).foldl (fun l q => if delta q % 512 = 0 then l else aput l q ((aget l q).getD 0 ||| delta q % 512)) c.prc.lost
    let y := { x with
      losses := (List.range 8).foldl (fun l q => if delta q = 0 then l else aput l q (c.gcount g x (24 + q))) x.losses }
    let d := ({ c with prc := { c.prc with lost := lost } }).setGslot g (some y)
    (¬ (c.isHead = true ∧ (st = 3 ∨ st = 4)) → exec (.switchStart g) s = .next (s.onChip id)) ∧
    (c.isHead = true → st = 3 ∨ st = 4 →
      let ends := (∃ q : Fin 8, 512 ≤ delta q) ∨ d.placeOk (d.gPlace g y) = false
      (¬ ends → exec (.switchStart g) s = .next (s.onChip fun _ => d)) ∧
      (∀ p, d.pickPlace y = some p → ends → exec (.switchStart g) s = .next (s.onChip fun _ =>
        (d.mapSlot g fun z => { z with quiets := d.gcount g z 6 }).prcSignalAll (d.evtBase g + 5) (1 + p))) ∧
      (d.pickPlace y = none → ends → Answers (.switchStart g) s fun t => s.after t ((graphFail g) { s.work with chip := d }).2 id)) ∧
    (st ≠ 5 ∨ x.quiet = true → exec (.switchQuiesce g) s = .next (s.onChip id)) ∧
    (st = 5 → x.quiet = false →
      (¬ (qs.all fun q => (off c).queueRests q) → exec (.switchQuiesce g) s = .next (s.onChip fun c => off c)) ∧
      ((qs.all fun q => (off c).queueRests q) →
        let w := ((do
          for q in qs do
            if (← getChip).qstate q ≠ qQuarantined then queueSoftReset q : WM Unit) { s.work with chip := off c }).2
        Answers (.switchQuiesce g) s fun t => s.after t w fun c =>
          (c.mapSlot g fun y => { y with quiet := true }).prcSignal 0 (c.evtBase g + 6) 1)) ∧
    (let due := c.isHead = true ∧ st = 5 ∧ c.gcount g x 7 = x.resumes ∧ x.quiets + (List.range 8).countP c.alivePos ≤ c.gcount g x 6
     (¬ due → exec (.switchResume g) s = .next (s.onChip id)) ∧
     (due → exec (.switchResume g) s = .next (s.onChip fun c =>
        let done := (List.range 8).map fun q => (q, c.gcount g x (16 + q) - x.committed)
        (c.setGslot g (some { x with doneOff := done })).prcSignalAll (c.evtBase g + 7) 1))) ∧
    (st ≠ 5 ∨ x.newPlace = none ∨ c.gcount g x 7 = x.resumes → exec (.switchRepost g) s = .next (s.onChip id)) ∧
    (∀ p, x.newPlace = some p → st = 5 → c.gcount g x 7 ≠ x.resumes →
      let pages := c.gPages x (x.place p)
      let gone := (c.gPages x (c.gPlace g x)).filter fun a => !pages.contains a
      let src := fun (i : Nat) => (x.img.nodes[i]?).any fun n => n.kind == 0
      let fresh := x.frames.map fun (f : GFrame) => { f with
        posted := false, done := false, bad := false, headers := [], todo := f.todo.filter fun t => src t.1,
        cmds := f.cmds.filter fun k => src k.node, flags := f.flags.filter fun l => src l.1 }
      let d := c.setGslot g (some { x with newPlace := none, stopping := false, quiet := false, frames := fresh })
      let d := (d.setFld (pgSlot g) 0x080 8 4 p).setGstate g (if x.stopping then 4 else 3)
      let d := ((d.prcReleases g gone).prcLeases pages).bindPieces g x p
      let d := (d.quietQueues (x.place p)).foldl
        (fun (c : Chip) q => c.gated .prc0 (pgQ q) 0x00C fun c => c.queueEnableTo q true) d
      let w := ((do for _ in fresh do postNext g : WM Unit) { s.work with chip := d }).2
      Answers (.switchRepost g) s fun t => s.after t w (fun c =>
        let c := c.raise (pgSlot g) 3
        if c.isHead then (c.count (pgSlot g) 0x0B4).count (pgSlot g) 0x0B8 fresh.length else c) ∧
        t.chip.bit (pgSlot g) 0x014 3 = true)

/-! The Carillon bus (chapter 16). -/

/-- The Carillon controller (R382-R388, R395, R401-R403): GO sends the framed request with its SEQ bit turned, unless it is malformed,
the chain is disabled or its supply gates a commit; a reply ends it OK with its data, no presence ends it, and no reply is tried
again while tries are left. A BOUNDARY request waits for its sequencer's last fire or its cancellation. A long reset takes 5.3 ms
and clears the addresses and switches of every device it reaches, a short one takes 0.8 ms; both wait for a transaction and start as it
ends. PWR_GOOD is stable after 1 s.
Where it rests on choices of the model, they are those of log entries 42 and 70. -/
def Obligations.CarillonController : Prop :=
  ∀ (req : Requester) (n : Fin 2) (s : State),
    let c := s.chip
    let p := pgCar n
    let x := c.chain n
    let addr := c.fld p 0x044 16 5
    let len := c.fld p 0x044 0 6
    let t0 : CarTxn := { addr := addr, cmd := c.fld p 0x044 8 8, payload := c.txBytes n (min len 32), since := c.time.now, sac := req == .sac }
    let framed := fun (t : CarTxn) =>
      carFrame ([BitVec.ofNat 8 (t.addr + 128 * bits (x.seqs.xor (2 ^ t.addr)) t.addr 1), BitVec.ofNat 8 t.cmd,
                 BitVec.ofNat 8 t.payload.length] ++ t.payload)
    let sent := fun (t : State) (y : CarTxn) =>
      t.chip.chain n = { x with txn := some { y with sent := framed y }, seqs := x.seqs.xor (2 ^ y.addr) }
    (∀ r : Fin 11,
      let d := c.carEnd n r
      (x.waiting = [] →
        (d.chain n).txn = none ∧ d.fld p 0x06C 0 8 = r ∧ d.bit p 0x044 31 = false ∧ d.bit p 0x010 8 = false ∧
        d.rd p 0x0A4 = c.rd p 0x0A4 + 1 ∧ d.bit p 0x014 (if r = 0 then 0 else 1) = true ∧ (r.val = 6 → d.chainOn n = false ∨ c.mbReady = false) ∧
        ∀ t, x.txn = some t → r = 0 → ∀ st l data, t.reply = some (st :: l :: data) → data.length ≤ 32 →
          d.fld p 0x06C 16 8 = st.toNat ∧ d.fld p 0x06C 8 8 = l.toNat ∧
          ∀ i b, data[i]? = some b → d.fld p (0x070 + i / 4 * 4) (8 * (i % 4)) 8 = b.toNat) ∧
      (x.waiting ≠ [] → d = x.waiting.foldl (fun (c : Chip) w => c.carReset n w.1 w.2) ((c.setChain n { x with waiting := [] }).carEnd n r))) ∧
    (s.passes req p 0x044 →
      let go := fun (c : Chip) => ((c.setBit p 0x044 31 true).setChain n { c.chain n with txn := some t0 }).showBusy n
      (x.txn = none → addr < 17 → len < 33 → c.chainOn n = true →
        (c.bit p 0x044 30 = false → c.gatedCommit n t0 = false → Answers (.carGo req n) s fun t =>
          s.keepsMem t ∧ sent t t0 ∧ t.chip.bit p 0x044 31 = true ∧ t.chip.bit p 0x010 8 = true ∧
          ∀ a, a ∉ [regAddr p 0x044, regAddr p 0x010] → t.chip.wordAt a = c.wordAt a) ∧
        (c.bit p 0x044 30 = false → c.gatedCommit n t0 = true →
          exec (.carGo req n) s = .next (s.onChip fun c => ((go c).count p 0x0B4).carEnd n 7)) ∧
        (c.bit p 0x044 30 = true → Answers (.carGo req n) s fun t =>
          t.chip.chain n = { x with txn := some { t0 with boundary := some (c.fires (c.fld p 0x044 28 2)) } })) ∧
      (x.txn = none → 17 ≤ addr ∨ 33 ≤ len → exec (.carGo req n) s = .next (s.onChip fun c => (go c).carEnd n 10)) ∧
      (x.txn = none → addr < 17 → len < 33 → c.chainOn n = false →
        exec (.carGo req n) s = .next (s.onChip fun c => (go c).carEnd n 9)) ∧
      (x.txn ≠ none → exec (.carGo req n) s = .next (s.onChip fun c => c.logUse p 0x11 req (regAddr p 0x044)))) ∧
    (let q := c.fld p 0x044 28 2
     let due := (x.txn.any fun t => t.sent.isEmpty && t.boundary.any fun f => c.fires q != f) = true ∧ c.seqChip q = 0
     (¬ due → exec (.boundarySend n) s = .next (s.onChip id)) ∧
     (∀ t, x.txn = some t → due →
       (c.gatedCommit n t = false → Answers (.boundarySend n) s fun u => s.keepsMem u ∧ sent u t ∧ ∀ a, u.chip.wordAt a = c.wordAt a) ∧
       (c.gatedCommit n t = true → exec (.boundarySend n) s = .next (s.onChip fun c => (c.count p 0x0B4).carEnd n 7)))) ∧
    (s.passes req p 0x048 →
      ((x.txn.any fun t => t.sent.isEmpty) = true → exec (.txCancel req n) s = .next (s.onChip fun c => c.carEnd n 8)) ∧
      ((x.txn.any fun t => t.sent.isEmpty) = false → exec (.txCancel req n) s = .next (s.onChip id))) ∧
    (∀ t, x.txn = some t → t.sent ≠ [] →
      ∀ wire r, (wire, r) ∈ [(WireEnd.reply, if t.reply.isSome || cmdReserved t.cmd then 0 else 2), (.noPresence, 1), (.noReply, 2), (.crc, 3),
          (.len, 4), (.conflict, 5), (.stuck, 6)] →
        let d := if r = 2 then c.count p 0x0B0 else if r = 3 ∨ r = 5 then c.count p 0x0AC else c
        let again := 2 ≤ r ∧ r ≤ 5 ∧ t.boundary = none ∧ t.tries < c.fld p 0x040 4 4
        let e := (d.count p 0x0A8).setChain n { x with txn := some { t with tries := t.tries + 1, reply := none } }
        (again → exec (.carTxnDone n wire) s = .next (s.onChip fun _ =>
          if c.gatedCommit n t then (e.count p 0x0B4).carEnd n 7 else e)) ∧
        (¬ again → exec (.carTxnDone n wire) s = .next (s.onChip fun _ =>
          (d.setChain n { x with txn := some (if r = 0 ∧ t.reply = none then { t with reply := some [0x02, 0x00] } else t) }).carEnd n r))) ∧
    ((x.txn.any fun t => !t.sent.isEmpty) = false → ∀ wire, exec (.carTxnDone n wire) s = .next (s.onChip id)) ∧
    (s.passes req p 0x040 →
      (∀ pres, ∀ i l, (i, l) ∈ [(Instr.longReset req n pres, true), (.shortReset req n pres, false)] →
        (x.txn = none → Answers i s fun t =>
          s.keepsMem t ∧ t.chip.time.now = c.time.now + (if l then 5300000 else 800000) ∧
          t.chip.bit p 0x040 (if l then 1 else 2) = false ∧
          t.chip.fld p 0x06C 0 8 = (if pres && c.chainOn n then c.fld p 0x06C 0 8 else 1) ∧
          (¬ (pres && c.chainOn n) → t.chip.bit p 0x014 1 = true) ∧ ∀ k : Fin 16, t.chip.carDev n k =
            if l && c.chainOn n && c.reached n k then { c.carDev n k with addr := 0, pass := false, stored := none } else c.carDev n k) ∧
        (x.txn ≠ none → exec i s = .next (s.onChip fun c =>
          let d := c.setBit p 0x040 (if l then 1 else 2) true
          d.setChain n { d.chain n with waiting := x.waiting.filter (fun w => w.1 != l) ++ [(l, pres)] }))) ∧
      exec (.chainEn req n true) s = .next (s.onChip fun c => c.setBit p 0x040 0 true) ∧
      (x.txn = none → exec (.chainEn req n false) s = .next (s.onChip fun c => c.setBit p 0x040 0 false)) ∧
      (x.txn ≠ none → exec (.chainEn req n false) s = .next (s.onChip fun c => (c.setBit p 0x040 0 false).carEnd n 9))) ∧
    (∀ i : Fin 4,
      (Answers (.pwrGoodChange i true) s fun t =>
        s.keepsMem t ∧ t.chip.bit p 0x0A0 (4 + i) = true ∧ t.chip.bit p 0x0A0 i = c.bit p 0x0A0 i ∧
        aget t.chip.car.goodSince i.val = if c.bit (pgCar 0) 0x0A0 (4 + i) then aget c.car.goodSince i.val else some c.time.now) ∧
      Answers (.pwrGoodChange i false) s (fun t => s.keepsMem t ∧ aget t.chip.car.goodSince i.val = none ∧
        t.chip.bit p 0x0A0 (4 + i) = false ∧ t.chip.bit p 0x0A0 i = false) ∧
      (aget c.car.goodSince i.val = none → exec (.pgStable i) s = .next (s.onChip id)) ∧
      (∀ t, aget c.car.goodSince i.val = some t → exec (.pgStable i) s = .next (s.onChip fun c =>
        ((c.advance (t + 1000000000)).setBit (pgCar 0) 0x0A0 i true).setBit (pgCar 1) 0x0A0 i true)))

/-- The Carillon devices (R380, R385, R387, R389-R400): each command that reaches a device of its class with a payload of its length is
answered with its STATUS and data and acts as its row says, IDENT, SET_ADDR, PASS, STATUS, the registers, the lamp, the pod and the
Ledger plate among them; a device of another class, one that draws, and a payload of another length answer with their codes, a request
sent again gets its stored reply, and what does not reach the device does nothing. A plate's drive ends with the new image COMPLETE, one
cut by a power loss is DIRTY and is recovered, a lamp head that is too hot goes dark, and a pod's power loss clears addresses and
switches.
Where it rests on choices of the model, they are those of log entries 42 and 43. -/
def Obligations.CarillonDevices : Prop :=
  ∀ (n : Fin 2) (k : Fin 16) (s : State),
    let d := s.chip.carDev n k
    let on := fun (i : Instr) (t : CarTxn) (st : Nat) (data : List Byte) (f : Chip → Chip) =>
      exec i s = .next (s.onChip fun c => (f c).carReplied n k t st data)
    let dev := fun (e : CarDev) (c : Chip) => c.setDev n k e
    let fl := d.plate.recovered.toNat + 2 * (d.fault || d.plate.st == 3).toNat + 4 * d.pass.toNat
    (∀ (m : DevIdent) (rating : BitVec 16) (l : LampSense) (o : PodSense) (w : PlateInfo) nvm,
      ∀ i cmd lens, (i, cmd, lens) ∈ [(Instr.ident n k m, 0x01, [0]), (.setAddr n k, 0x02, [1]), (.pass n k, 0x03, [1]), (.status n k, 0x04, [0]),
          (.readReg n k, 0x05, [3]), (.writeReg n k, 0x06, List.range' 3 28), (.lampSet n k rating, 0x10, [2]),
          (.lampStatus n k l, 0x11, [0]), (.podStatus n k o, 0x30, [0]), (.ledgerInfo n k w, 0x20, [0]),
          (.ledgerBegin n k w, 0x21, [20]), (.ledgerData n k, 0x22, List.range' 5 28), (.ledgerCommit n k nvm, 0x23, [16]),
          (.ledgerAbort n k, 0x24, [0]), (.ledgerAck n k, 0x25, [0])] →
        let comes := fun (t : CarTxn) => !t.sent.isEmpty && t.reply.isNone && t.cmd == cmd && s.chip.chainOn n && s.chip.reached n k &&
          (t.addr == d.addr || d.stored.any fun r => r.1 == t.sent)
        ((s.chip.chain n).txn.any comes = false → exec i s = .next (s.onChip id)) ∧
        (∀ t, (s.chip.chain n).txn = some t → comes t = true →
          (∀ r, d.stored.filter (fun r => r.1 == t.sent) = some r → exec i s = .next (s.onChip fun c =>
            c.setChain n { c.chain n with txn := some { t with reply := some r.2 } })) ∧
          (d.stored.filter (fun r => r.1 == t.sent) = none →
            (d.cls ≠ 0 ∧ cmdClass cmd ≠ 0 ∧ d.cls ≠ cmdClass cmd → on i t 2 [] id) ∧
            (d.cls = 0 ∨ cmdClass cmd = 0 ∨ d.cls = cmdClass cmd →
              ((d.plate.st = 2 ∨ d.plate.st = 3) ∧ cmd ≠ 0x01 ∧ cmd ≠ 0x20 → on i t 1 [] id) ∧
              ((d.plate.st ≠ 2 ∧ d.plate.st ≠ 3) ∨ cmd = 0x01 ∨ cmd = 0x20 → t.payload.length ∉ lens → on i t 3 [] id))))) ∧
    (∀ t, s.chip.carAsked n k t →
      (∀ m : DevIdent, t.cmd = 0x01 → t.payload = [] → on (.ident n k m) t 0
        ([m.cls, 1] ++ leBytes 2 m.vendor.toNat ++ leBytes 2 m.model.toNat ++
          [m.fwMajor, m.fwMinor, m.fwPatch, BitVec.ofNat 8 fl] ++ leBytes 8 m.serial.toNat) (dev { d with cls := m.cls.toNat })) ∧
      (∀ b, t.cmd = 0x02 → t.payload = [b] → d.addr = 0 →
        (1 ≤ b.toNat → b.toNat ≤ 16 → on (.setAddr n k) t 0 [] (dev { d with addr := b.toNat })) ∧
        (b.toNat = 0 ∨ 17 ≤ b.toNat → on (.setAddr n k) t 4 [] id)) ∧
      (∀ b, t.cmd = 0x02 → t.payload = [b] → d.addr ≠ 0 → Answers (.setAddr n k) s fun u => s.keepsMem u ∧
        ∃ e : Nat, e < 6 ∧ (e = 2 ∨ e = 4 ∨ e = 5) ∧ u.chip.chain n = (s.chip.carReplied n k t e []).chain n) ∧
      (∀ b, t.cmd = 0x03 → t.payload = [b] →
        (b.toNat = 0 → on (.pass n k) t 0 [] (dev { d with pass := false })) ∧
        (b.toNat = 1 → d.pass = false → k.val < 15 → on (.pass n k) t 0 [] fun c =>
          let e := c.setDev n k { d with pass := true }
          e.setDev n (k + 1) { e.carDev n (k + 1) with addr := 0, pass := false, stored := none }) ∧
        (b.toNat = 1 → d.pass = true ∨ k.val = 15 → on (.pass n k) t 0 [] (dev { d with pass := true })) ∧
        (2 ≤ b.toNat → on (.pass n k) t 4 [] id)) ∧
      (t.cmd = 0x04 → t.payload = [] → on (.status n k) t 0 [BitVec.ofNat 8 fl] id) ∧
      (∀ lo hi b, t.payload = [lo, hi, b] → t.cmd = 0x05 → b.toNat = 0 ∨ 29 ≤ b.toNat → on (.readReg n k) t 4 [] id) ∧
      (∀ lo hi b, t.payload = [lo, hi, b] → t.cmd = 0x05 → 1 ≤ b.toNat → b.toNat ≤ 28 → Answers (.readReg n k) s fun u =>
        let r := ((u.chip.chain n).txn.bind CarTxn.reply).getD []
        s.keepsMem u ∧ (u.chip.chain n).txn = some { t with reply := some r } ∧ (u.chip.carDev n k).stored = some (t.sent, r) ∧
        r.take 2 = [0, b] ∧ r.length = b.toNat + 2 ∧
        ∀ i, i < b.toNat → ∀ v, aget d.maker ((lo.toNat + 256 * hi.toNat + i) % 65536) = some v → r[i + 2]? = some v) ∧
      (∀ lo hi data, t.payload = lo :: hi :: data → t.cmd = 0x06 → 1 ≤ data.length → data.length ≤ 28 → on (.writeReg n k) t 0 []
        (dev { d with maker := data.zipIdx.foldl (fun m (b, i) => aput m ((lo.toNat + 256 * hi.toNat + i) % 65536) b) d.maker })) ∧
      (∀ (rating : BitVec 16) lo hi, t.payload = [lo, hi] → t.cmd = 0x10 →
        let ma := lo.toNat + 256 * hi.toNat
        on (.lampSet n k rating) t (if rating.toNat < ma then 4 else 0) [] (dev { d with curMa := min ma rating.toNat })) ∧
      (∀ m : LampSense, t.cmd = 0x11 → t.payload = [] → on (.lampStatus n k m) t 0
        (leBytes 2 m.tempDc.toNat ++ leBytes 2 d.curMa ++ leBytes 2 m.rating.toNat ++ leBytes 2 m.otLimit.toNat ++
          [BitVec.ofNat 8 (d.dark.toNat + 2 * m.lineFault.toNat + 4 * m.ledOpen.toNat + 8 * m.ledShort.toNat)] ++
          leBytes 2 m.wavelength.toNat) id) ∧
      (∀ m : PodSense, t.cmd = 0x30 → t.payload = [] → on (.podStatus n k m) t 0
        (leBytes 2 m.tempDc.toNat ++ [m.humidity] ++ leBytes 2 m.supplyMv.toNat ++
          [BitVec.ofNat 8 (m.heaterOn.toNat + 2 * m.windowFault.toNat), m.pdNoticeS]) id) ∧
      (∀ m : PlateInfo, t.cmd = 0x20 → t.payload = [] → on (.ledgerInfo n k m) t 0
        (leBytes 2 m.width.toNat ++ leBytes 2 m.height.toNat ++ [m.bpp, BitVec.ofNat 8 d.plate.st, BitVec.ofNat 8 fl] ++
          leBytes 2 m.driveMs.toNat ++ d.plate.complete) id) ∧
      (∀ (m : PlateInfo) b0 b1 b2 b3 hash, t.payload = [b0, b1, b2, b3] ++ hash → t.cmd = 0x21 → hash.length = 16 →
        let total := b0.toNat + 256 * (b1.toNat + 256 * (b2.toNat + 256 * b3.toNat))
        (total = plateSize m → on (.ledgerBegin n k m) t 0 []
          (dev { d with plate := { d.plate with st := 1, total := total, hash := hash, staged := [] } })) ∧
        (total ≠ plateSize m → on (.ledgerBegin n k m) t 4 [] id)) ∧
      (∀ b0 b1 b2 b3 data, t.payload = [b0, b1, b2, b3] ++ data → t.cmd = 0x22 → 1 ≤ data.length → data.length ≤ 28 →
        let off := b0.toNat + 256 * (b1.toNat + 256 * (b2.toNat + 256 * b3.toNat))
        (d.plate.st = 1 → off + data.length ≤ d.plate.total → on (.ledgerData n k) t 0 []
          (dev { d with plate := { d.plate with staged := data.zipIdx.foldl (fun m (b, i) => aput m (off + i) b) d.plate.staged } })) ∧
        (d.plate.st = 1 → d.plate.total < off + data.length → on (.ledgerData n k) t 4 [] id) ∧
        (d.plate.st ≠ 1 → on (.ledgerData n k) t 5 [] id)) ∧
      (t.cmd = 0x23 → t.payload.length = 16 →
        (d.plate.st = 1 → t.payload = d.plate.hash → imageHash d.plate.stagedImage = d.plate.hash →
          on (.ledgerCommit n k false) t 0 []
            (dev { d with plate := { d.plate with st := 2, target := d.plate.stagedImage, dirty := some d.plate.hash } })) ∧
        (d.plate.st = 1 → t.payload = d.plate.hash → imageHash d.plate.stagedImage = d.plate.hash →
          on (.ledgerCommit n k true) t 0 [] (dev { d with fault := true, plate := { d.plate with st := 0 } })) ∧
        (∀ nvm, d.plate.st = 1 → t.payload ≠ d.plate.hash ∨ imageHash d.plate.stagedImage ≠ d.plate.hash →
          on (.ledgerCommit n k nvm) t 6 [] id) ∧
        (∀ nvm, d.plate.st ≠ 1 → on (.ledgerCommit n k nvm) t 5 [] id)) ∧
      (t.cmd = 0x24 → t.payload = [] →
        (d.plate.st = 1 → on (.ledgerAbort n k) t 0 [] (dev { d with plate := { d.plate with st := 0 } })) ∧
        (d.plate.st ≠ 1 → on (.ledgerAbort n k) t 5 [] id)) ∧
      (t.cmd = 0x25 → t.payload = [] → on (.ledgerAck n k) t 0 [] (dev { d with plate := { d.plate with recovered := false } }))) ∧
    (d.plate.st = 2 → exec (.ledgerDrawDone n k) s = .next (s.onChip (dev { d with
      plate := { d.plate with st := 0, image := d.plate.target, complete := d.plate.dirty.getD d.plate.complete, dirty := none } }))) ∧
    (d.plate.st ≠ 2 → exec (.ledgerDrawDone n k) s = .next (s.onChip id)) ∧
    (d.plate.dirty ≠ none → d.plate.st ≠ 2 → d.plate.st ≠ 3 → exec (.ledgerRecovery n k) s = .next (s.onChip
      (dev { d with plate := { d.plate with st := 3 } }))) ∧
    (d.plate.dirty = none ∧ d.plate.st ≠ 3 ∨ d.plate.st = 2 → exec (.ledgerRecovery n k) s = .next (s.onChip id)) ∧
    (d.plate.st = 3 → exec (.ledgerRecovery n k) s = .next (s.onChip (dev { d with
      plate := { d.plate with st := 0, dirty := none, recovered := true } }))) ∧
    exec (.lampOverTemperature n k) s = .next (s.onChip (dev { d with dark := true })) ∧
    exec (.lampCooled n k) s = .next (s.onChip (dev { d with dark := false })) ∧
    Answers (.podPowerDown n) s fun t => s.keepsMem t ∧
      (∀ k : Fin 16, let e := t.chip.carDev n k
        e.addr = 0 ∧ e.pass = false ∧ e.stored = none ∧ e.curMa = 0 ∧ e.driveMa = 0 ∧ e.plate.st = 0 ∧ e.plate.staged = [] ∧
        e.maker = (s.chip.carDev n k).maker ∧
        ((s.chip.carDev n k).plate.st ≠ 2 → e.plate.complete = (s.chip.carDev n k).plate.complete)) ∧
      ∀ a, t.chip.wordAt a = s.chip.wordAt a

/-! Time, pins, serial ports and the endpoint (chapter 17). -/

/-- The timebase, PPS, GPIO, UARTs, I2C and the endpoint (R406, R410, R412-R414, R416-R421, R424): TB_SET steps the timebase at the
next tick; an accepted PPS edge is captured within 5 ns with its error, corrects the timebase where PPS_AUTO lets it, and locks after
three good ones, and an early one is counted; a missing edge clears PPS_LOCK; pins are sampled, stamped and driven by set and clear;
UART FIFOs of 64 take and drop characters; I2C transactions end with RESULT and the bytes acknowledged; EOI arms a vector, an AER error
is counted, a lost completion halts the DMA engine, and a reset of the endpoint revokes what the host holds.
Where it rests on choices of the model, they are those of log entries 40, 44 and 51. -/
def Obligations.TimePinsAndPorts : Prop :=
  ∀ (req : Requester) (s : State),
    let c := s.chip
    (s.passes req 0x0D0 0x04C → ∀ hi : Word,
      (∀ lo, aget c.bus.held (reqKey (regAddr 0x0D0 0x048) req) = some lo →
        Answers (.tbSet req hi) s fun t => s.keepsMem t ∧
          t.chip.time.tbStep = some (BitVec.ofNat 64 (lo.toNat + 2 ^ 32 * hi.toNat)) ∧ t.chip.time.tb = c.time.tb ∧
          ∀ a, a ∉ [regAddr 0x0D0 0x048, regAddr 0x0D0 0x04C] → t.chip.wordAt a = c.wordAt a) ∧
      (aget c.bus.held (reqKey (regAddr 0x0D0 0x048) req) = none →
        Answers (.tbSet req hi) s fun t => s.keepsMem t ∧
          t.chip.time.tbStep = some (BitVec.ofNat 64 ((c.rd 0x0D0 0x048).toNat + 2 ^ 32 * hi.toNat)) ∧ t.chip.time.tb = c.time.tb ∧
          ∀ a, a ≠ regAddr 0x0D0 0x04C → t.chip.wordAt a = c.wordAt a)) ∧
    (c.bit 0x0D0 0x058 0 = false → ∀ i ∈ [Instr.ppsEdge, .ppsLost], exec i s = .next (s.onChip id)) ∧
    (c.time.ppsLast = none → exec .ppsLost s = .next (s.onChip id)) ∧
    (c.bit 0x0D0 0x058 0 = true →
      let early := c.time.ppsLast.any fun t => decide (c.time.now < t + 900000000)
      (early = true → exec .ppsEdge s = .next (s.onChip fun c => c.count 0x0D0 0x0A4)) ∧
      (early = false → Answers .ppsEdge s fun t =>
        let e := ppsError (t.chip.rd64 0x0D0 0x060)
        let auto := c.bit 0x0D0 0x058 5 && (!c.bit 0x0B4 0x040 0 || c.bit 0x0B4 0x040 1)
        s.keepsMem t ∧ (∃ d : Nat, d ≤ 10 ∧ t.chip.rd64 0x0D0 0x060 = (c.time.tb.toNat + d + 2 ^ 64 - 5) % 2 ^ 64) ∧
        t.chip.rd 0x0D0 0x068 = BitVec.ofInt 32 e ∧ t.chip.time.ppsLast = some c.time.now ∧ t.chip.bit 0x0D0 0x014 1 = true ∧
        t.chip.bit 0x0D0 0x05C 1 = false ∧ (1000 ≤ e.natAbs → t.chip.bit 0x0D0 0x05C 0 = false) ∧
        (e.natAbs < 1000 → 2 ≤ c.time.ppsGood → t.chip.bit 0x0D0 0x05C 0 = true) ∧
        (auto = false → t.chip.time.tbStep = c.time.tbStep ∧ t.chip.rd 0x0D0 0x050 = c.rd 0x0D0 0x050 ∧
          t.chip.rd 0x0D0 0x054 = c.rd 0x0D0 0x054) ∧
        (auto = true → e.natAbs < 1000000 → t.chip.rd 0x0D0 0x054 = BitVec.ofInt 32 (-e) ∧ t.chip.rd 0x0D0 0x050 =
          BitVec.ofInt 32 (min 858993 (max (-858993) ((c.rd 0x0D0 0x050).toInt - (e * 4398 + 2048) / 4096)))) ∧
        (auto = true → 1000000 ≤ e.natAbs → t.chip.time.tbStep.isSome = true)) ∧
      (∀ t0, c.time.ppsLast = some t0 → Answers .ppsLost s fun t =>
        s.keepsMem t ∧ t.chip.time.now = max c.time.now (t0 + 1100000000 + 1000000000 * c.time.ppsMiss) ∧
        t.chip.fld 0x0D0 0x05C 0 2 = 2 ∧ t.chip.rd 0x0D0 0x0A8 = c.rd 0x0D0 0x0A8 + 1 ∧ t.chip.bit 0x0D0 0x014 2 = true)) ∧
    (∀ (i : Fin 16) (v : Bool),
      let marks := c.bit 0x0D5 (if v then 0x054 else 0x058) i
      let stamps := decide (i.val < 4) && c.bit 0x0D0 0x058 (1 + i)
      (c.bit 0x0D5 0x050 i ≠ v → marks = false → exec (.gpioEdge i v) s = .next (s.onChip fun c => c.setBit 0x0D5 0x050 i v)) ∧
      (c.bit 0x0D5 0x050 i ≠ v → marks = true → stamps = false →
        exec (.gpioEdge i v) s = .next (s.onChip fun c => (c.setBit 0x0D5 0x050 i v).raise 0x0D5 i)) ∧
      (c.bit 0x0D5 0x050 i ≠ v → marks = true → stamps = true → Answers (.gpioEdge i v) s fun t =>
        s.keepsMem t ∧ t.chip.bit 0x0D5 0x050 i = v ∧ t.chip.bit 0x0D5 0x014 i = true ∧ t.chip.bit 0x0D0 0x014 3 = true ∧
        ∃ d : Nat, d ≤ 10 ∧ t.chip.rd64 0x0D0 (0x080 + 8 * i) = (c.time.tb.toNat + d + 2 ^ 64 - 5) % 2 ^ 64) ∧
      (c.bit 0x0D5 0x050 i = v → exec (.gpioEdge i v) s = .next (s.onChip id))) ∧
    (∀ m : BitVec 16,
      (s.passes req 0x0D5 0x048 → exec (.gpioSet req m) s = .next (s.onChip fun c =>
        c.wr 0x0D5 0x044 (c.rd 0x0D5 0x044 ||| m.setWidth 32))) ∧
      (s.passes req 0x0D5 0x04C → exec (.gpioClr req m) s = .next (s.onChip fun c =>
        c.wr 0x0D5 0x044 (c.rd 0x0D5 0x044 &&& ~~~(m.setWidth 32))))) ∧
    (∀ (n : Fin 2) (ch : Byte),
      let p := pgUart n
      let u := c.uart n
      let kept : Byte := if c.bit p 0x044 0 then ch else ch &&& 0x7F
      (s.passes req p 0x048 →
        (u.tx.length < 64 → exec (.txdata req n ch) s = .next (s.onChip fun c => c.setUart n { u with tx := u.tx ++ [kept] })) ∧
        (64 ≤ u.tx.length → exec (.txdata req n ch) s = .next (s.onChip fun c => c.count p 0x068))) ∧
      (s.passes req p 0x050 → exec (.rxPop req n) s = .next (s.onChip fun c => c.setUart n { u with rx := u.rx.drop 1 })) ∧
      (∀ pe fe brk,
        let par := pe && c.fld p 0x044 1 2 != 0
        (u.deaf = true ∨ c.pstate = 2 → exec (.uartChar n ch pe fe brk) s = .next (s.onChip id)) ∧
        (u.deaf = false → c.pstate ≠ 2 → Answers (.uartChar n ch pe fe brk) s fun t =>
          s.keepsMem t ∧ t.chip.rd p 0x060 = c.rd p 0x060 + (if fe then 1 else 0) ∧
          t.chip.rd p 0x064 = c.rd p 0x064 + (if par then 1 else 0) ∧
          (u.rx.length < 64 →
            t.chip.uart n = { u with rx := u.rx ++ [kept.toNat + 256 * par.toNat + 512 * fe.toNat + 1024 * brk.toNat] } ∧
            (c.fld p 0x058 0 6 ≤ u.rx.length + 1 → t.chip.bit p 0x014 0 = true)) ∧
          (64 ≤ u.rx.length → t.chip.uart n = u ∧ t.chip.rd p 0x05C = c.rd p 0x05C + 1 ∧ t.chip.bit p 0x014 3 = true) ∧
          ∀ a, a ∉ [regAddr p 0x014, regAddr p 0x05C, regAddr p 0x060, regAddr p 0x064] → t.chip.wordAt a = c.wordAt a)) ∧
      exec (.rxIdle n) s = .next (s.onChip fun c =>
        let d := if u.deaf then c.setUart n { u with deaf := false } else c
        if u.rx = [] then d else d.raise p 1) ∧
      (u.tx = [] → exec (.txEmpty n) s = .next (s.onChip id)) ∧
      (∀ x rest, u.tx = x :: rest → exec (.txEmpty n) s = .next (s.onChip fun c =>
        let d := c.setUart n { u with tx := rest, out := some x }
        if rest = [] then d.raise p 2 else d))) ∧
    (∀ n : Fin 2,
      let p := pgI2c n
      let wlen := c.fld p 0x048 8 6
      let rlen := c.fld p 0x048 16 6
      let ended := fun (t : State) (r acked : Nat) => s.keepsMem t ∧ t.chip.rd p 0x06C = word (acked * 2 ^ 8 + r) ∧
        t.chip.i2cBusy n = false ∧ t.chip.rd p 0x090 = c.rd p 0x090 + 1 ∧ t.chip.rd p 0x094 = c.rd p 0x094 + (if r = 0 then 0 else 1)
      (∀ code : BitVec 2, s.passes req p 0x040 → exec (.speed req n code) s = .next (s.onChip fun c =>
        let m := if code = 3 then 0 else code.toNat
        (c.wr p 0x040 (word m)).wr p 0x044 ([0x01CC01F4, 0x006E008C, 0x00280037].getD m 0))) ∧
      (s.passes req p 0x048 →
        (c.i2cBusy n = true → exec (.i2cGo req n) s = .next (s.onChip fun c => c.logUse p 0x12 req (regAddr p 0x048))) ∧
        (c.i2cBusy n = false → 8 ≤ c.fld p 0x048 0 7 → c.fld p 0x048 0 7 < 0x78 → wlen ≤ 32 → rlen ≤ 32 →
          exec (.i2cGo req n) s = .next (s.onChip fun c => c.setBit p 0x048 31 true)) ∧
        (c.i2cBusy n = false → c.fld p 0x048 0 7 < 8 ∨ 0x78 ≤ c.fld p 0x048 0 7 ∨ 32 < wlen ∨ 32 < rlen →
          Answers (.i2cGo req n) s fun t => ended t 6 0)) ∧
      (c.i2cBusy n = false → (∀ b, exec (.i2cDone n b) s = .next (s.onChip id)) ∧ exec (.stretchTimeout n) s = .next (s.onChip id)) ∧
      (c.i2cBusy n = true →
        (∀ b : I2cBus,
          let got := if b.addrAck then min b.acked wlen else 0
          (b.stuck = true → Answers (.i2cDone n b) s fun t => ended t 5 0) ∧
          (b.stuck = false → b.busError = true → Answers (.i2cDone n b) s fun t => ended t 3 got) ∧
          (b.stuck = false → b.busError = false → b.addrAck = false → Answers (.i2cDone n b) s fun t => ended t 1 0) ∧
          (b.stuck = false → b.busError = false → b.addrAck = true → b.acked < wlen → Answers (.i2cDone n b) s fun t => ended t 2 b.acked) ∧
          (b.stuck = false → b.busError = false → b.addrAck = true → wlen ≤ b.acked → Answers (.i2cDone n b) s fun t => ended t 0 wlen ∧
            (rlen ≤ 32 → ∀ i v, b.read[i]? = some v → i < rlen → t.chip.fld p (0x070 + i / 4 * 4) (8 * (i % 4)) 8 = v.toNat))) ∧
        Answers (.stretchTimeout n) s (fun t => ∃ k : Nat, k ≤ wlen ∧ ended t 4 k))) ∧
    (∀ v : BitVec 6, s.passes req 0x0C0 0x044 → exec (.irqEoi req v) s = .next (s.onChip fun c =>
      { c with pcie := { c.pcie with armed := c.pcie.armed ||| BitVec.ofNat 64 (2 ^ v.toNat) } })) ∧
    (∀ k read, exec (.aerError ⟨k, read⟩) s = .next (s.onChip fun c =>
      let d := (c.count 0x0C0 (if k = .correctable then 0x048 else 0x04C)).raise 0x0C0 0
      { d with pcie := { d.pcie with
          errors := if c.linkUp then d.pcie.errors ++ [k] else d.pcie.errors
          badRead := d.pcie.badRead || (read && decide (k ≠ .correctable)) } })) ∧
    (exec (.cplTimeout none) s = .next (s.onChip fun c => c.count 0x0C0 0x050) ∧
      ∀ (ch : Fin 16) (va : BitVec 39),
        (c.dmaHalt = false → Answers (.cplTimeout (some (ch, va))) s fun t =>
          s.keepsMem t ∧ t.chip.dmaHalt = true ∧ t.chip.rd 0x0C0 0x050 = c.rd 0x0C0 0x050 + 1 ∧ t.chip.rd64 0x090 0x040 = va.toNat ∧
          t.chip.fld 0x090 0x048 0 8 = 2 ∧ t.chip.fld 0x090 0x048 20 4 = ch ∧ t.chip.fld 0x090 0x048 30 2 = 2) ∧
        (c.dmaHalt = true → exec (.cplTimeout (some (ch, va))) s = .next (s.onChip fun c => (c.count 0x0C0 0x050).count 0x090 0x04C))) ∧
    (∀ w r : BitVec 3, (Instr.linkUp w r).wellFormed = true → exec (.linkUp w r) s = .next (s.onChip fun c =>
      c.wr 0x0C0 0x040 (word (2 ^ 8 + w.toNat * 2 ^ 4 + r.toNat)))) ∧
    exec .d3hot s = .next (s.onChip fun c => { c with pcie := { c.pcie with d3hot := true } }) ∧
    (∀ kind,
      Answers (.pcieReset kind) s (fun t => s.after t ((revokeOwnerM 1) { s.work with chip := c.pcieReset kind }).2 id) ∧
      ((c.pcieReset kind).ownedEntries 1 = [] →
        exec (.pcieReset kind) s = .next (s.onChip fun c => (c.pcieReset kind).count 0x004 0x058)))

/-! Power, test access and the supplies (chapters 18 and 20). -/

/-- The loops, protection and wake (R41, R415, R451, R453-R457, R461, R464, R465, R501, R519): a period stores its readings and, outside
SLEEP and with no protection case, moves the Choir clock by at most 25 MHz; JUNCTION_TRIP and CORE_UV act at their thresholds with
their records, POLICY_RAISE enters LAMP_OT once, and each is released under its condition alone; a failed sensor reads as T_TRIP_DC; a
settled voltage lets a waiting clock rise, up to CHO_MAX; an enabled wake source returns the part to ACTIVE; the TAP and a debug halt
mark the commands and the frames in production.
Where it rests on choices of the model, they are those of log entries 3, 45 and 73. -/
def Obligations.PowerLoops : Prop :=
  (∀ (c : Chip) (fA fT fP : Nat), (c.clockStep fA fT fP).choMhz ≤ c.choMhz + 25 ∧ c.choMhz ≤ (c.clockStep fA fT fP).choMhz + 25) ∧
  ∀ (req : Requester) (s : State),
    let c := s.chip
    (∀ x : LoopSense, x.temps.length = 8 →
      (∀ i : Fin 8, Answers (.loopPeriod x) s fun t => s.keepsMem t ∧ t.chip.time.now = c.time.now + 100000 ∧
        t.chip.rd 0x003 (0x040 + 4 * i) = word (unsext 16 (if c.bit 0x003 0x070 i then c.tTrip else sext 16 (x.temps.getD i 0).toNat)) ∧
        t.chip.rd 0x002 0x048 = word x.pkgMw.toNat ∧ t.chip.rd 0x002 0x04C = word x.marginPs.toNat) ∧
      (c.pstate = 2 → exec (.loopPeriod x) s = .next (s.onChip fun c => c.senseStore x)) ∧
      (c.pstate ≠ 2 → exec (.loopPeriod x) s = .next (s.onChip fun c =>
        let d := c.senseStore x
        d.loopAct x.pkgMw.toNat d.fAvs (d.ceilings x.pkgMw.toNat).1 (d.ceilings x.pkgMw.toNat).2))) ∧
    (c.tTrip ≤ c.tjMax → c.protOn 1 = false → Answers .junctionTrip s fun t =>
      s.keepsMem t ∧ t.chip.protOn 1 = true ∧ t.chip.tripped = true ∧ t.chip.fld 0x002 0x050 0 8 = 1 ∧ t.chip.bit 0x003 0x014 0 = true ∧
      t.chip.rd 0x002 0x058 = c.rd 0x002 0x058 + 1 ∧ t.chip.rd 0x002 0x05C = c.rd 0x002 0x05C + 1) ∧
    (c.tjMax < c.tTrip ∨ c.protOn 1 = true → exec .junctionTrip s = .next (s.onChip id)) ∧
    (∀ v : BitVec 10,
      (v.toNat + 50 < c.vcore ∨ v.toNat < 620 → Answers (.coreUv v) s fun t =>
        s.keepsMem t ∧ t.chip.time.now = c.time.now + 2000 ∧ t.chip.protOn 2 = true ∧ t.chip.choMhz = 600 ∧
        t.chip.vecDuty = min 8 c.vecDuty ∧ t.chip.fld 0x001 0x048 24 5 = 8 ∧ t.chip.fld 0x002 0x044 16 10 = v.toNat) ∧
      (c.vcore ≤ v.toNat + 50 → 620 ≤ v.toNat → exec (.coreUv v) s = .next (s.onChip fun c => c.setFld 0x002 0x044 16 10 v.toNat))) ∧
    (s.passes req 0x002 0x054 →
      (c.protOn 3 = false → Answers (.policyRaise req 3) s fun t => s.keepsMem t ∧ t.chip.protOn 3 = true ∧ t.chip.fld 0x002 0x050 0 8 = 3 ∧
        t.chip.bit 0x002 0x050 31 = true ∧ t.chip.rd 0x002 0x058 = c.rd 0x002 0x058 + 1 ∧ t.chip.rd 0x002 0x064 = c.rd 0x002 0x064 + 1 ∧
        t.chip.bit 0x002 0x014 0 = true) ∧
      (c.protOn 3 = true → exec (.policyRaise req 3) s = .next (s.onChip id)) ∧
      ∀ v, v ≠ 3 → exec (.policyRaise req v) s = .next (s.onChip id)) ∧
    (c.protOn 1 = true → c.tjMax ≤ c.tTrip - 50 → exec (.protectionRelease .junction) s = .next (s.onChip fun c =>
      (c.setBit 0x002 0x050 24 false).setCho c.choMin)) ∧
    (c.protOn 1 = false ∨ c.tTrip - 50 < c.tjMax → exec (.protectionRelease .junction) s = .next (s.onChip id)) ∧
    (∀ t0, c.pwr.uvOkSince = some t0 → c.protOn 2 = true → Answers (.protectionRelease .coreUv) s fun t =>
      s.keepsMem t ∧ t.chip.time.now = max c.time.now (t0 + 1000000) ∧ t.chip.protOn 2 = false ∧ t.chip.choMhz = max 600 c.choMin ∧
      t.chip.fld 0x001 0x048 24 5 = 16) ∧
    (c.protOn 2 = false ∨ c.pwr.uvOkSince = none → exec (.protectionRelease .coreUv) s = .next (s.onChip id)) ∧
    (c.protOn 3 = true → c.lampsCool = true → exec (.protectionRelease .lampOt) s = .next (s.onChip fun c => c.setBit 0x002 0x050 26 false)) ∧
    (c.protOn 3 = false ∨ c.lampsCool = false → exec (.protectionRelease .lampOt) s = .next (s.onChip id)) ∧
    (∀ i : Fin 8,
      (c.bit 0x003 0x070 i = false → Answers (.sensorFail i) s fun t =>
        s.keepsMem t ∧ t.chip.bit 0x003 0x070 i = true ∧ t.chip.rd 0x003 (0x040 + 4 * i) = word (unsext 16 c.tTrip)) ∧
      (c.bit 0x003 0x070 i = true → exec (.sensorFail i) s = .next (s.onChip id))) ∧
    (∀ t0, c.pwr.vidAt = some t0 →
      (c.pwr.choNext = none → exec .vrSettled s = .next (s.onChip fun c =>
        let d := c.advance (t0 + 20000)
        { d with pwr := { d.pwr with vidAt := none, choNext := none } })) ∧
      (∀ f, c.pwr.choNext = some f →
        let up := min f c.choMax
        let stays := c.protOn 1 = true ∨ c.protOn 2 = true ∨ up < c.choMhz
        Answers .vrSettled s fun t => s.keepsMem t ∧ t.chip.pwr.vidAt = none ∧ t.chip.pwr.choNext = none ∧
          t.chip.time.now = max c.time.now (t0 + 20000) ∧ (stays → t.chip.choMhz = c.choMhz) ∧
          (¬ stays → t.chip.choMhz = up ∧ t.chip.fld 0x060 0x04C 0 11 = up)) ∧
      Answers .vrSettleTimeout s (fun t => s.keepsMem t ∧ t.chip.time.now = max c.time.now (t0 + 1000000) ∧ t.chip.choMhz = 600 ∧
        t.chip.protOn 2 = true) ∧
      exec .vrDrop s = .next (s.onChip id)) ∧
    (c.pwr.vidAt = none → exec .vrDrop s = .next (s.onChip fun c => c.count 0x002 0x088) ∧
      ∀ i ∈ [Instr.vrSettled, .vrSettleTimeout], exec i s = .next (s.onChip id)) ∧
    (∀ src,
      (c.pstate ≠ 0 → c.bit 0x002 0x070 (wakeBit src) = true → Answers (.wakeEvent src) s fun t =>
        s.keepsMem t ∧ t.chip.pstate = 0 ∧ t.chip.rd 0x002 0x074 = word (2 ^ wakeBit src) ∧
        (src = .pcie → t.chip.pcie.d3hot = false) ∧ (c.pstate = 2 → src = .uart0 → (t.chip.uart 0).deaf = true)) ∧
      (c.pstate = 0 ∨ c.bit 0x002 0x070 (wakeBit src) = false → exec (.wakeEvent src) s = .next (s.onChip fun c =>
        if src = .pcie then { c with pcie := { c.pcie with d3hot := false } } else c))) ∧
    (c.rd64 0x002 0x078 ≤ c.time.tb.toNat → exec .tbAlarm s = exec (.wakeEvent .alarm) s) ∧
    (c.rd64 0x002 0x078 ≤ c.time.tb.toNat → c.pstate ≠ 0 → c.bit 0x002 0x070 3 = true → Answers .tbAlarm s fun t =>
      t.chip.pstate = 0 ∧ t.chip.rd 0x002 0x074 = 8) ∧
    (c.time.tb.toNat < c.rd64 0x002 0x078 → exec .tbAlarm s = .next (s.onChip id)) ∧
    exec .tapReset s = .next (s.onChip fun c => { c with tap := { c.tap with ir := 0x01 } }) ∧
    (∀ ir, Answers (.tapInstruction ir) s fun t => s.keepsMem t ∧ t.chip.tap.ir = ir ∧ (∀ a, t.chip.wordAt a = c.wordAt a) ∧
      (t.chip.debugChip = true → (∀ x ∈ t.chip.queues.run, x.2.debug = true) ∧
        ∀ x ∈ t.chip.ntx.inl ++ t.chip.ntx.ready ++ t.chip.ntx.mem.toList, x.frame.debug = true)) ∧
    (∀ core halted, Answers (.debugHalt core halted) s fun t => s.keepsMem t ∧ t.chip.bit 0x010 0x044 core.toNat = halted ∧
      (∀ a, a ≠ regAddr 0x010 0x044 → t.chip.wordAt a = c.wordAt a) ∧ (halted = true → (∀ x ∈ t.chip.queues.run, x.2.debug = true) ∧
        ∀ x ∈ t.chip.ntx.inl ++ t.chip.ntx.ready ++ t.chip.ntx.mem.toList, x.frame.debug = true))

/-- Supplies, boot and resets (R34, R83, R434, R440, R444, R475-R479, R485, R489, R499, R502-R504, R520, R521): the sequencer enables a
group after another and powers down on a group that fails, with its strobes low; PORST_N and the always-on supply bring every register
but the kept ones to its reset value; RESET_REQ and the watchdog begin the reset of their level with its cause, the third fire within
60 s that of level 3; the part boots when PORST_N rises with the supplies up, and BOOT_GO boots from Cloister while the ROM waits; the
override takes three writes in order; the control tick moves time to the next millisecond and revokes the leases that have run out.
Where it rests on choices of the model, they are those of log entries 3, 8, 46, 47 and 54. -/
def Obligations.SuppliesBootAndResets : Prop :=
  ∀ (req : Requester) (s : State),
    let c := s.chip
    let plain := fun (t : State) (l : List Nat) => ∀ a, chipKept a = false → a ∉ l → t.chip.wordAt a = resetWord a
    let begun := if c.railHigh 1 then (if c.railHigh 2 then (if c.railHigh 3 then 4 else 3) else 2) else 1
    (∀ grp,
      let g := railNum grp
      let d := (c.setRail g true).seqRun 3
      ((d.psState = psDone → c.psState = psDone ∨ c.pwr.porstN = false) →
        exec (.railOk grp) s = .next (s.onChip fun c => (c.setRail g true).seqRun 3)) ∧
      (c.psState ≠ psDone → d.psState = psDone → d.pwr.porstN = true → Answers (.railOk grp) s fun t =>
        s.after t (bootStart { s.work with chip := d }).2 id) ∧
      (c.psState = g → c.railHigh g = false → Answers (.railTimeout grp) s fun t =>
        s.keepsMem t ∧ t.chip.psState = psDown ∧ t.chip.rd 0x002 0x084 = word g ∧ t.chip.bit 0x000 0x044 0 = true ∧
        t.chip.time.now = max c.time.now (c.pwr.seqAt + 5000000) ∧ t.chip.lis.strobes = 0) ∧
      (c.psState ≠ g ∨ c.railHigh g = true → exec (.railTimeout grp) s = .next (s.onChip id)) ∧
      (c.railHigh g = true → g ≤ c.psState → c.psState ≤ psDone → Answers (.railDrop grp) s fun t =>
        s.keepsMem t ∧ t.chip.psState = psDown ∧ t.chip.rd 0x002 0x084 = word (3 + g) ∧ t.chip.bit 0x000 0x044 0 = true ∧
        t.chip.time.now = c.time.now + 10000 ∧ t.chip.lis.strobes = 0) ∧
      (c.railHigh g = false ∨ c.psState < g ∨ psDone < c.psState →
        exec (.railDrop grp) s = .next (s.onChip fun c => c.setRail g false))) ∧
    (c.tShut ≤ c.tjMax → c.psState ≠ psDown → Answers .shutdown s fun t =>
      s.keepsMem t ∧ t.chip.psState = psDown ∧ t.chip.rd 0x002 0x084 = 7 ∧ t.chip.bit 0x000 0x044 4 = true ∧ t.chip.lis.strobes = 0) ∧
    (c.tjMax < c.tShut ∨ c.psState = psDown → exec .shutdown s = .next (s.onChip id)) ∧
    (Answers .aonPorRelease s fun t => t.pending = s.pending ∧ t.fuses = s.fuses ∧
      t.mem = s.mem.applyAll (chipForget s.work).2.ops.reverse ∧ plain t [] ∧ t.chip.tap.ir = 0x01 ∧
      t.chip.pwr.variantE = s.fuses.variantE ∧ t.chip.psState = begun) ∧
    (Answers .porstNFall s fun t => t.pending = s.pending ∧ t.fuses = s.fuses ∧
      t.mem = s.mem.applyAll (chipForget s.work).2.ops.reverse ∧ plain t [] ∧ t.chip.pwr.porstN = false ∧
      t.chip.psState = if c.psState = psDown then begun else c.psState) ∧
    (∀ mode flash,
      let d := { c with pwr := { c.pwr with porstN := true, bootMode := mode, flash := flash } }
      (c.psState ≠ psDone → exec (.porstNRise mode flash) s = .next (s.onChip fun _ => d)) ∧
      (c.psState = psDone → Answers (.porstNRise mode flash) s fun t => s.after t (bootStart { s.work with chip := d }).2 id)) ∧
    (s.passes req 0x008 0x0D4 →
      (c.pwr.romWait = false → exec (.bootGo req) s = .next (s.onChip fun c => c.ovrBreak.logUse 0x008 0x14 req (regAddr 0x008 0x0D4))) ∧
      (c.pwr.romWait = true → Answers (.bootGo req) s fun t =>
        s.after t (romBoot (.area clsBase 0x1000000) [0, 1] c.pwr.prc.isSome { s.work with chip := c.ovrBreak }).2 id)) ∧
    (s.passes req 0x005 0x068 → ∀ level : BitVec 2,
      (level.toNat < (if req = .host then 2 else 1) ∨ level.toNat ≤ c.vrg.resetting →
        exec (.resetReq req level) s = .next (s.onChip id)) ∧
      (level = 3 → c.vrg.resetting < 3 → Answers (.resetReq req level) s fun t =>
        t.mem = s.mem.applyAll (chipForget s.work).2.ops.reverse ∧ t.chip.bit 0x000 0x044 (if req = .host then 2 else 1) = true ∧
        t.chip.vrg.resetting = 3 ∧
        plain t [regAddr 0x005 0x014, regAddr 0x005 0x020, regAddr 0x005 0x024, regAddr 0x005 0x05C, regAddr 0x000 0x044]) ∧
      (level = 2 → c.vrg.resetting < 2 → Answers (.resetReq req level) s fun t =>
        t.mem = s.mem.applyAll (dataForget s.work).2.ops.reverse ∧ t.chip.bit 0x000 0x044 (if req = .host then 6 else 5) = true ∧
        t.chip.vrg.resetting = 2 ∧ t.chip.queues.run = [] ∧ t.chip.prc.slots = [] ∧ ∀ q : Fin 128, t.chip.qstate q = qStopped) ∧
      (level = 1 → req ≠ .host → c.vrg.resetting = 0 → Answers (.resetReq req level) s fun t =>
        s.after t (beginReset 1 0x79 (ownerCode req) 8 s.work).2 id)) ∧
    (s.passes req 0x008 0x104 → ∀ v : Word,
      (req ≠ .sac → exec (.wdtKick req v) s = .next (s.onChip fun c => c.ovrBreak.raise 0x008 29)) ∧
      (req = .sac → v ≠ 0x4B43 → exec (.wdtKick req v) s = .next (s.onChip fun c => c.ovrBreak.count 0x008 0x10C)) ∧
      (req = .sac → v = 0x4B43 → c.bit 0x008 0x100 31 = false ∨ c.time.now < c.wdtDue → exec (.wdtKick req v) s =
        .next (s.onChip fun c => { c.ovrBreak with vrg := { c.vrg with wdtKick := c.time.now } })) ∧
      (req = .sac → v = 0x4B43 → c.bit 0x008 0x100 31 = true → c.wdtDue ≤ c.time.now →
        exec (.wdtKick req v) s = .next (s.onChip Chip.ovrBreak))) ∧
    (c.bit 0x008 0x100 31 = false → exec .wdtFire s = .next (s.onChip id)) ∧
    (c.bit 0x008 0x100 31 = true →
      let d := c.advance c.wdtDue
      let fires := (c.vrg.fires.filter fun t => decide (d.time.now < t + 60000000000)) ++ [d.time.now]
      let e := { d.count 0x008 0x108 with vrg := { d.vrg with fires := fires, wdtKick := d.time.now } }
      (fires.length < 3 → Answers .wdtFire s fun t => s.after t (beginReset 1 0x78 0 7 { s.work with chip := e }).2 id) ∧
      (3 ≤ fires.length → Answers .wdtFire s fun t => t.mem = s.mem.applyAll (chipForget s.work).2.ops.reverse ∧
        t.chip.bit 0x000 0x044 3 = true ∧ t.chip.vrg.resetting = 3 ∧
        plain t [regAddr 0x008 0x014, regAddr 0x008 0x020, regAddr 0x008 0x024, regAddr 0x005 0x014, regAddr 0x005 0x05C,
          regAddr 0x000 0x044])) ∧
    (∀ v : Word, s.passes req 0x008 0x0D8 →
      let next := c.holds req 0x008 = true ∧ v = c.ovrWant ∧ (c.pwr.ovrCount = 0 ∨ c.time.now ≤ c.pwr.ovrAt + 10000000)
      let pair := c.mode = 2 ∧ c.fld 0x008 0x0C4 4 4 = 1
      (next → c.pwr.ovrCount < 2 → exec (.ovr req v) s = .next (s.onChip fun c =>
        { c with pwr := { c.pwr with ovrCount := c.pwr.ovrCount + 1, ovrAt := c.time.now } })) ∧
      (next → 2 ≤ c.pwr.ovrCount → pair → Answers (.ovr req v) s fun t => s.keepsMem t ∧ t.chip.taint = true ∧ t.chip.mode = 1 ∧
        t.chip.pwr.held = false ∧ t.chip.fld 0x010 0x040 0 2 = 3 ∧ t.chip.rd 0x010 0x048 = c.rd 0x008 0x0CC ∧ t.chip.pwr.ovrCount = 0) ∧
      (¬ next ∨ 2 ≤ c.pwr.ovrCount ∧ ¬ pair → exec (.ovr req v) s = .next (s.onChip fun c =>
        { c.count 0x008 0x0DC with pwr := { c.pwr with ovrCount := 0 } }))) ∧
    (c.ovrWant = if c.pwr.ovrCount = 0 then 0x4C49 else if c.pwr.ovrCount = 1 then 0x4D54 else c.rd 0x008 0x0CC) ∧
    (c.pwr.porstN = false → exec .controlTick s = .next (s.onChip fun c => c.advance (tickAt (c.time.now + 1)))) ∧
    (c.vrg.resetting = 0 → c.prc.slots = [] → c.vrg.leases = [] → c.leasePages = [] → c.bit 0x008 0x100 31 = false → c.mbReady = false →
      c.link = {} →
      exec .controlTick s = .next (s.onChip fun c => c.advance (tickAt (c.time.now + 1)))) ∧
    (Answers .controlTick s fun t => t.pending = s.pending ∧ t.fuses = s.fuses ∧ t.chip.time.now = tickAt (c.time.now + 1) ∧
      (∀ p : Fin 4096, c.pwr.porstN = true → c.vrg.resetting = 0 → c.selState p = 1 → c.leaseOwner p = 1 →
        c.leaseDue p ≤ tickAt (c.time.now + 1) → (c.bit 0x008 0x100 31 = true → t.chip.time.now < c.wdtDue) →
        t.chip.leaseState p = 2 ∧ t.chip.leaseOwner p = 0xF))

/-! The Verger (chapter 19). -/

/-- The Verger (R83, R469-R474, R478, R480-R482, R485, R487, R488, R530): a HELD entry whose timeout passes, whose parity fails or that
is revoked by command has its block's quarantine action done and becomes QUARANTINED with OWNER 0xF, counted and recorded with the
entry as it stood; a Precentor page that runs out takes both Precentor owners' entries with it; a quarantine ends when nothing holds
it, or it becomes STUCK. HOLD, the journal's oldest entry and UNIT_FAILED are written as commanded; a unit that fails is recorded and
its commands end UNIT_FAILED; a row whose entry is in another state does nothing.
Where it rests on choices of the model, they are those of log entries 3, 52, 53 and 91. -/
def Obligations.VergerActs : Prop :=
  ∀ (req : Requester) (s : State),
    let c := s.chip
    let revoked := fun (i : Instr) (d : Chip) (sel code : Nat) => Answers i s fun t =>
      s.after t (quarAction sel { s.work with chip := d }).2 (fun x => x.quarMark sel code (d.selOwner sel) (d.lvWord sel)) ∧
      (t.chip.leaseAux sel).state = 2 ∧ t.chip.bit 0x004 0x014 0 = true
    let failed := fun (t : State) (b : Nat) => t.chip.bit 0x005 0x060 b = true ∧ t.chip.bit 0x005 0x014 1 = true ∧
      ∀ q : Fin 128, unitFailBit (unitOf q) = b → ∀ r, c.running q = some r → r.finished = false →
        (t.chip.running q).any (fun x => x.finished && x.status == 0x2C) = true
    (∀ p : Fin 4096,
      (c.selState p = 1 → c.prcHeld p = false →
        revoked (.leaseTimeout p) (c.advance (c.leaseDue p)) p 0x50 ∧
        (Answers (.leaseTimeout p) s fun t => t.chip.leaseState p = 2 ∧ t.chip.leaseOwner p = 0xF)) ∧
      (c.selState p = 1 → c.prcHeld p = true → Answers (.leaseTimeout p) s fun t =>
        t.chip.time.now = max c.time.now (c.leaseDue p) ∧ t.chip.leaseOwner p = 0xF ∧ t.chip.fw.prcLost = true ∧
        ∀ x : Fin 4096, c.selState x = 1 → c.prcHeld x = true → t.chip.leaseState x = 2) ∧
      (c.selState p ≠ 1 → exec (.leaseTimeout p) s = .next (s.onChip id))) ∧
    (∀ e : Fin 64,
      (c.selState (lockSel e) = 1 → revoked (.lockLeaseTimeout e) (c.advance (c.leaseDue (lockSel e))) (lockSel e) 0x50) ∧
      (c.selState (lockSel e) ≠ 1 → exec (.lockLeaseTimeout e) s = .next (s.onChip id))) ∧
    (∀ p : Fin 4,
      (c.selState (creditSel p) = 1 → revoked (.creditTimeout p) (c.advance (c.leaseDue (creditSel p))) (creditSel p) 0x50) ∧
      (c.selState (creditSel p) ≠ 1 → exec (.creditTimeout p) s = .next (s.onChip id))) ∧
    (∀ sel : BitVec 17,
      (c.selState sel.toNat = 1 → revoked (.entryParity sel) c sel.toNat 0x54) ∧
      (c.selState sel.toNat ≠ 1 → exec (.entryParity sel) s = .next (s.onChip id))) ∧
    (s.passes req 0x004 0x04C →
      (c.selState c.lvSel = 1 → revoked (.revokeEntry req) c c.lvSel 0x52) ∧
      (c.selState c.lvSel ≠ 1 → exec (.revokeEntry req) s = .next (s.onChip fun c => c.vrgInvalid req)) ∧
      (∀ o : BitVec 4, 1 ≤ o.toNat → o.toNat ≤ 4 → Answers (.revokeOwner req o) s fun t =>
        s.after t ((do for sel in c.ownedEntries o.toNat do revoke sel 0x51 : WM Unit) s.work).2 fun c => c.count 0x004 0x058) ∧
      (∀ o : BitVec 4, o = 0 ∨ 4 < o.toNat → exec (.revokeOwner req o) s = .next (s.onChip fun c => c.vrgInvalid req)) ∧
      (c.selState c.lvSel = 2 → exec (.vrgRelease req) s = .next (s.onChip fun c =>
        c.setLeaseAux c.lvSel { c.leaseAux c.lvSel with hold := false })) ∧
      (c.selState c.lvSel ≠ 2 → exec (.vrgRelease req) s = .next (s.onChip fun c => c.vrgInvalid req)) ∧
      (∀ i h, (i, h) ∈ [(Instr.holdSet req, true), (.holdClr req, false)] →
        (c.selExists c.lvSel = true → c.selState c.lvSel ≠ 3 →
          exec i s = .next (s.onChip fun c => c.setLeaseAux c.lvSel { c.leaseAux c.lvSel with hold := h })) ∧
        (c.selExists c.lvSel = false ∨ c.selState c.lvSel = 3 → exec i s = .next (s.onChip id)))) ∧
    (∀ sel : BitVec 17,
      (c.quarFree sel.toNat = true →
        exec (.quarantineEnd sel) s = .next (s.onChip fun c =>
          (c.advance (max (c.quarTick sel.toNat) (tickAt c.time.now))).quarRelease sel.toNat) ∧
        (sel.toNat < 0x1000 → Answers (.quarantineEnd sel) s fun t => s.keepsMem t ∧ t.chip.leaseState sel.toNat = 0 ∧
          t.chip.leaseOwner sel.toNat = 0 ∧ t.chip.fld sel.toNat 0x028 24 8 = c.fld sel.toNat 0x028 24 8)) ∧
      (c.quarFree sel.toNat = false → exec (.quarantineEnd sel) s = .next (s.onChip id)) ∧
      (c.selState sel.toNat = 2 → Answers (.quarStuck sel) s fun t =>
        s.keepsMem t ∧ t.chip.time.now = max c.time.now (c.quarTick sel.toNat + 9000000) ∧ (t.chip.leaseAux sel.toNat).state = 3 ∧
        t.chip.rd 0x004 0x05C = c.rd 0x004 0x05C + 1 ∧ t.chip.bit 0x004 0x014 1 = true) ∧
      (c.selState sel.toNat ≠ 2 → exec (.quarStuck sel) s = .next (s.onChip id))) ∧
    (s.passes req 0x005 0x054 → exec (.jrnPop req) s = .next (s.onChip fun c =>
      { c with vrg := { c.vrg with journal := c.vrg.journal.drop 1 }, fw := { c.fw with noted := c.fw.noted - 1 } })) ∧
    (s.passes req 0x005 0x064 → ∀ mask : BitVec 9,
      let new := (List.range 9).filter fun b => mask.getLsbD b && !c.bit 0x005 0x060 b
      (new = [] → exec (.unitFailSet req mask) s = .next (s.onChip id)) ∧
      (new ≠ [] → Answers (.unitFailSet req mask) s fun t => t.pending = s.pending ∧ t.fuses = s.fuses ∧
        t.chip.rd 0x005 0x060 = (c.rd 0x005 0x060 ||| mask.setWidth 32) ∧ t.chip.rd 0x005 0x024 = (mask.setWidth 32 &&& ~~~ (c.rd 0x005 0x060)) ∧
        ∀ b ∈ new, failed t b)) ∧
    (∀ u : FailUnit,
      (c.unitActive (failBit u) = true → Answers (.unitFailed u) s fun t => t.pending = s.pending ∧ t.fuses = s.fuses ∧
        t.chip.time.now = c.time.now + 10000000 ∧ t.chip.bit 0x005 0x060 (failBit u) = true ∧
        (c.bit 0x005 0x060 (failBit u) = false → failed t (failBit u))) ∧
      (c.unitActive (failBit u) = false → exec (.unitFailed u) s = .next (s.onChip id))) ∧
    (∀ ch : Fin 8,
      (ch.val ∉ c.memc.failed → Answers (.chanFail ch) s fun t =>
        s.keepsMem t ∧ t.chip.memc.failed = c.memc.failed ++ [ch.val] ∧ (c.fw.channel = none → t.chip.fw.channel = some ch.val) ∧
        ∀ k, c.fw.channel = some k → t.chip.fw.channel = some k) ∧
      (ch.val ∈ c.memc.failed → exec (.chanFail ch) s = .next (s.onChip id)))

/-! The mailbox (chapter 18). -/

/-- The mailbox (R50, R402, R446-R452, R458, R461): a waiting request of a row's opcode is answered with its STATUS and payload, once; a
wrong length ends BAD_LEN, an unknown opcode BAD_OPCODE, and the post clears MB_SEND. Policies are checked and stored, a lamp ceiling
against the RATING reported for its output, contexts granted and released, a Carillon transaction is made for the host and answered at
its end, a power-down notice and a power state are set, and fuses are programmed to the running images' versions; LIMITED mode turns
the fuse commands away, and a fuse that does not program leaves them as they were.
Where it rests on choices of the model, they are those of log entries 50 and 72. -/
def Obligations.MailboxRows : Prop :=
  ∀ (s : State),
    let c := s.chip
    let rows : List (Instr × Nat × Nat) := [(.getInfo, 0x01, 0), (.setPolicy, 0x10, 30), (.getPolicy, 0x11, 0), (.ctxGrant, 0x20, 16),
      (.ctxRelease, 0x21, 1), (.carTxn, 0x30, 36), (.pdNotice, 0x31, 8), (.powerState, 0x40, 1), (.arbCommit true, 0x50, 0),
      (.arbCommit false, 0x50, 0), (.keyRevoke true, 0x51, 1), (.keyRevoke false, 0x51, 1)]
    let waits := fun (op len : Nat) => c.mbWaits op = true ∧ c.mbNum 2 2 = len
    (∀ i op len, (i, op, len) ∈ rows → c.mbWaits op = false → exec i s = .next (s.onChip id)) ∧
    (∀ i op len, (i, op, len) ∈ rows → c.mbWaits op = true → c.mbNum 2 2 ≠ len →
      exec i s = .next (s.onChip fun c => c.mbReply mbBadLen [])) ∧
    (∀ op, c.bit 0x008 0x0C0 0 = true → c.mbReady = true → c.pwr.mbDone = false → c.mbNum 0 2 = op → c.mbWaits op = true) ∧
    (∀ st pay op, (c.mbReply st pay).mbWaits op = false) ∧
    (c.mbReady = true → c.bit 0x008 0x0C0 0 = true → (∀ o ∈ mbOps, o.1 ≠ c.mbNum 0 2) → Answers .mbPost s fun t =>
      t.chip = ({ ((c.mbReply mbBadOpcode []).setBit 0x008 0x0C0 0 false).raise 0x008 0 with
        pwr := { c.pwr with mbDone := false, mbSince := none } } : Chip).settle ∧ s.keepsMem t) ∧
    (c.mbReady = false ∨ c.bit 0x008 0x0C0 0 = false ∨ (∃ o ∈ mbOps, o.1 = c.mbNum 0 2) → exec .mbPost s = .next (s.onChip fun c =>
      ({ c with pwr := { c.pwr with mbDone := false } }.setBit 0x008 0x0C0 0 false).raise 0x008 0)) ∧
    (waits 0x01 0 → exec .getInfo s = .next (s.onChip fun c => c.mbReply mbOk (packed 0x01 56
      [(c.rd 0x008 0x0C8).toNat, (c.rd 0x008 0x0CC).toNat, c.fld 0x008 0x0C4 16 8, c.mode, c.fld 0x008 0x0C4 4 4,
        c.fld 0x008 0x0D0 24 8, c.fld 0x008 0x0D0 16 8, fuseCount s.fuses.arbSac, fuseCount s.fuses.arbPrc]))) ∧
    (waits 0x10 30 →
      (c.windowStatus = mbOk → exec .setPolicy s = .next (s.onChip fun c => c.storeWindow.mbReply mbOk c.storeWindow.windowBytes)) ∧
      (c.windowStatus ≠ mbOk → exec .setPolicy s = .next (s.onChip fun c => c.mbReply c.windowStatus [])) ∧
      (c.mbNum 10 2 < c.mbNum 8 2 ∨ c.mbByte 13 < c.mbByte 12 ∨ c.ceilBad = true → c.windowStatus ≠ mbOk)) ∧
    (c.ceilBad = true ↔ ∃ x ∈ c.fw.lamps, x.2 < c.mbNum (20 + 2 * (Config.lampOutput (x.1 / 32) (x.1 % 32) % 8)) 2) ∧
    (waits 0x11 0 → exec .getPolicy s = .next (s.onChip fun c => c.mbReply mbOk (c.windowBytes ++ packed 0x11 26
      ([(c.bit 0x002 0x050 30).toNat, c.fld 0x002 0x050 0 8] ++ (List.range 5).map fun i => (c.rd 0x002 (0x058 + 4 * i)).toNat)))) ∧
    (waits 0x20 16 →
      let asked := c.mbByte 8
      let owner := c.mbByte 9
      let pa := c.mbNum 16 8
      let granted := fun (n : Nat) => exec .ctxGrant s = .next (s.onChip fun c =>
        let d := (c.wr64 0x072 (ctxOff n + 8) pa).setBit 0x072 (ctxOff n) 0 true
        (if c.mbByte 10 % 2 = 1 then d.setFld 0x072 0x300 0 4 n else d).mbReply mbOk (leBytes 1 n))
      (15 < asked ∨ owner < 1 ∨ 4 < owner ∨ pa % 4096 ≠ 0 ∨ 2 ^ 48 ≤ pa → exec .ctxGrant s = .next (s.onChip fun c => c.mbReply mbBadParam [])) ∧
      (1 ≤ owner → owner ≤ 4 → pa % 4096 = 0 → pa < 2 ^ 48 →
        (1 ≤ asked → asked ≤ 15 → c.ctxEnabled asked = false → granted asked) ∧
        (1 ≤ asked → asked ≤ 15 → c.ctxEnabled asked = true → exec .ctxGrant s = .next (s.onChip fun c => c.mbReply mbDenied [])) ∧
        (asked = 0 → (∀ n : Fin 16, n ≠ 0 → c.ctxEnabled n = true) → exec .ctxGrant s = .next (s.onChip fun c => c.mbReply mbDenied [])) ∧
        (∀ n : Fin 16, asked = 0 → n ≠ 0 → c.ctxEnabled n = false → (∀ m : Fin 16, m ≠ 0 → m < n → c.ctxEnabled m = true) → granted n))) ∧
    (waits 0x21 1 →
      (c.mbByte 8 ≤ 15 → exec .ctxRelease s = .next (s.onChip fun c =>
        ((c.setBit 0x072 (ctxOff (c.mbByte 8)) 0 false).dropTlb (c.mbByte 8)).mbReply mbOk [])) ∧
      (15 < c.mbByte 8 → exec .ctxRelease s = .next (s.onChip fun c => c.mbReply mbBadParam []))) ∧
    (waits 0x30 36 →
      (c.pwr.mbCar = none →
        let d := { c with pwr := { c.pwr with mbSince := some (c.pwr.mbSince.getD c.time.now) } }
        (1 < c.mbByte 8 ∨ 16 < c.mbByte 9 ∨ 32 < c.mbByte 11 → exec .carTxn s = .next (s.onChip fun c => c.mbReply mbBadParam [])) ∧
        (c.mbByte 8 ≤ 1 → c.mbByte 9 ≤ 16 → c.mbByte 11 ≤ 32 →
          (c.mbByte 10 ∈ [0x02, 0x03, 0x10] → exec .carTxn s = .next (s.onChip fun c => c.mbReply mbDenied [])) ∧
          (c.mbByte 10 ∉ [0x02, 0x03, 0x10] → (c.chain (c.mbByte 8)).txn ≠ none → exec .carTxn s = .next (s.onChip fun _ => d)) ∧
          (c.mbByte 10 ∉ [0x02, 0x03, 0x10] → (c.chain (c.mbByte 8)).txn = none → exec .carTxn s = .next (s.onChip fun c =>
            let p := pgCar (c.mbByte 8)
            let e := (List.range 8).foldl (fun (c : Chip) i => c.wr p (0x04C + 4 * i) (word (c.mbNum (12 + 4 * i) 4))) d
            let e := e.wr p 0x044 (word (c.mbByte 9 * 2 ^ 16 + c.mbByte 10 * 2 ^ 8 + c.mbByte 11))
            { e.carGo .sac (c.mbByte 8) with pwr := { d.pwr with mbCar := some (c.mbByte 8) } })))) ∧
      (∀ n, c.pwr.mbCar = some n → (c.chain n).txn = none → exec .carTxn s = .next (s.onChip fun c =>
        let (st, bs, d) := c.carAnswer n
        d.mbReply st bs)) ∧
      (∀ n, c.pwr.mbCar = some n → (c.chain n).txn ≠ none → exec .carTxn s = .next (s.onChip id))) ∧
    (waits 0x31 8 → Answers .pdNotice s fun t => s.keepsMem t ∧ t.chip.fld 0x008 0x080 16 8 = mbOk ∧ ∀ n : Fin 2,
      t.chip.rd64 (pgCar n) 0x090 = c.mbNum 8 8 ∧ t.chip.rd (pgCar n) 0x098 = word (c.mbNum 8 8 != 0).toNat) ∧
    (waits 0x40 1 →
      (c.mbByte 8 = 0 → exec .powerState s = .next (s.onChip fun c => (c.wr 0x002 0x06C 0).mbReply mbOk (leBytes 1 0))) ∧
      (c.mbByte 8 = 1 → c.mayIdle = true → exec .powerState s = .next (s.onChip fun c => (c.wr 0x002 0x06C 1).mbReply mbOk (leBytes 1 1))) ∧
      (c.mbByte 8 = 2 → c.maySleep = true → exec .powerState s = .next (s.onChip fun c =>
        (((c.wr 0x002 0x06C 2).setFld 0x002 0x08C 0 6 10).setBit 0x008 0x0C4 31 false).mbReply mbOk (leBytes 1 2))) ∧
      (c.mbByte 8 = 1 ∧ c.mayIdle = false ∨ c.mbByte 8 = 2 ∧ c.maySleep = false →
        exec .powerState s = .next (s.onChip fun c => c.mbReply mbState (leBytes 1 c.pstate))) ∧
      (2 < c.mbByte 8 → exec .powerState s = .next (s.onChip fun c => c.mbReply mbBadParam []))) ∧
    (waits 0x50 0 → c.mode = 2 → ∀ b, exec (.arbCommit b) s = .next (s.onChip fun c => c.mbReply mbState [])) ∧
    (waits 0x51 1 → c.mode = 2 → ∀ b, exec (.keyRevoke b) s = .next (s.onChip fun c => c.mbReply mbState [])) ∧
    (waits 0x50 0 → c.mode ≠ 2 →
      (Answers (.arbCommit true) s fun t =>
        t.mem = s.mem ∧ t.pending = s.pending ∧ s.fuses.le t.fuses ∧
        fuseCount t.fuses.arbSac = max (fuseCount s.fuses.arbSac) (min 64 (secOf c.pwr.sac)) ∧
        fuseCount t.fuses.arbPrc = max (fuseCount s.fuses.arbPrc) (min 64 (secOf c.pwr.prc)) ∧
        t.fuses.keyRevoke = s.fuses.keyRevoke ∧ t.chip.fld 0x008 0x080 16 8 = mbOk) ∧
      exec (.arbCommit false) s = .next (s.onChip fun c =>
        c.mbReply mbFuseFail (packed 0x50 56 [fuseCount s.fuses.arbSac, fuseCount s.fuses.arbPrc]))) ∧
    (waits 0x51 1 → c.mode ≠ 2 →
      let used := (c.pwr.sac.bind ImgInfo.keySlot) = some (c.mbByte 8) ∨ (c.pwr.prc.bind ImgInfo.keySlot) = some (c.mbByte 8)
      (c.mbByte 8 ≤ 3 → ¬ used → Answers (.keyRevoke true) s fun t => t.mem = s.mem ∧ t.pending = s.pending ∧
        t.fuses = { s.fuses with keyRevoke := s.fuses.keyRevoke ||| BitVec.ofNat 4 (2 ^ c.mbByte 8) } ∧ t.chip.fld 0x008 0x080 16 8 = mbOk) ∧
      (c.mbByte 8 ≤ 3 → ¬ used → exec (.keyRevoke false) s = .next (s.onChip fun c => c.mbReply mbFuseFail [])) ∧
      (c.mbByte 8 ≤ 3 → used → ∀ b, exec (.keyRevoke b) s = .next (s.onChip fun c => c.mbReply mbDenied [])) ∧
      (3 < c.mbByte 8 → ∀ b, exec (.keyRevoke b) s = .next (s.onChip fun c => c.mbReply mbBadParam [])))
end

