-- ==== Sys2Proof/Laws/Assoc.lean ====
section
/-! SUPPORT. Lists of key and value pairs: what a lookup answers after an update, and that updates keep the keys rising. -/

namespace Sys2Proof.Machine

variable {β : Type}

/-- A lookup in a list whose head has another key goes on to the rest. -/
theorem aget_cons_ne {l : List (Nat × β)} {k x : Nat} {v : β} (h : k ≠ x) : aget ((k, v) :: l) x = aget l x := by
  simp [aget, h]

/-- An inserted key is found, in a list that does not hold it. -/
theorem aget_ains_same (l : List (Nat × β)) (x : Nat) (v : β) (h : aget l x = none) : aget (ains x v l) x = some v := by
  induction l with
  | nil => simp [ains, aget]
  | cons p l ih =>
    obtain ⟨k, w⟩ := p
    by_cases hk : k = x
    · simp [aget, hk] at h
    · rw [aget_cons_ne hk] at h
      by_cases hx : x < k
      · simp [ains, hx, aget]
      · simp [ains, hx, aget, hk, ih h]

/-- Insertion changes no other key. -/
theorem aget_ains_ne (l : List (Nat × β)) (x y : Nat) (v : β) (h : x ≠ y) : aget (ains x v l) y = aget l y := by
  induction l with
  | nil => simp [ains, aget, h]
  | cons p l ih =>
    obtain ⟨k, w⟩ := p
    by_cases hx : x < k
    · simp [ains, hx, aget, h]
    · rw [show ains x v ((k, w) :: l) = (k, w) :: ains x v l by simp [ains, hx]]
      by_cases hk : k = y <;> simp [aget, hk, ih]

/-- A removed key is not found. -/
@[simp] theorem aget_adel_same (l : List (Nat × β)) (x : Nat) : aget (adel l x) x = none := by
  induction l with
  | nil => rfl
  | cons p l ih =>
    obtain ⟨k, w⟩ := p
    by_cases hk : k = x
    · simpa [adel, hk] using ih
    · have : adel ((k, w) :: l) x = (k, w) :: adel l x := by simp [adel, hk]
      rw [this, aget_cons_ne hk, ih]

/-- Removal changes no other key. -/
theorem aget_adel_ne (l : List (Nat × β)) (x y : Nat) (h : x ≠ y) : aget (adel l x) y = aget l y := by
  induction l with
  | nil => rfl
  | cons p l ih =>
    obtain ⟨k, w⟩ := p
    by_cases hk : k = x
    · have hy : k ≠ y := by omega
      rw [aget_cons_ne hy, ← ih]
      simp [adel, hk]
    · have : adel ((k, w) :: l) x = (k, w) :: adel l x := by simp [adel, hk]
      rw [this]
      by_cases hy : k = y <;> simp [aget, hy, ih]

/-- A key that was set reads as set. -/
@[simp] theorem aget_aput_same (l : List (Nat × β)) (x : Nat) (v : β) : aget (aput l x v) x = some v := by
  simp [aput, aget_ains_same]

/-- Setting a key changes no other. -/
theorem aget_aput_ne (l : List (Nat × β)) (x y : Nat) (v : β) (h : x ≠ y) : aget (aput l x v) y = aget l y := by
  rw [aput, aget_ains_ne _ _ _ _ h, aget_adel_ne _ _ _ h]

/-- A lookup after a set, in one equation. -/
theorem aget_aput (l : List (Nat × β)) (x y : Nat) (v : β) : aget (aput l x v) y = if x = y then some v else aget l y := by
  split
  · next h => rw [h, aget_aput_same]
  · next h => exact aget_aput_ne _ _ _ _ h

/-- A lookup after a set or a removal. -/
theorem aget_aset (l : List (Nat × β)) (x y : Nat) (v : Option β) : aget (aset l x v) y = if x = y then v else aget l y := by
  cases v with
  | none => by_cases h : x = y
            · subst h; simp [aset]
            · simp [aset, h, aget_adel_ne]
  | some v => simp [aset, aget_aput]

/-- A lookup in a filtered list whose filter goes by the key. -/
theorem aget_filter (l : List (Nat × β)) (p : Nat → Bool) (y : Nat) :
    aget (l.filter fun r => p r.1) y = if p y then aget l y else none := by
  induction l with
  | nil => simp [aget]
  | cons q l ih =>
    obtain ⟨k, w⟩ := q
    by_cases hp : p k <;> by_cases hk : k = y
    · subst hk; simp [hp, aget]
    · simp [hp, aget, hk, ih]
    · subst hk; simp [hp, ih]
    · simp [hp, aget, hk, ih]

/-! The keys rise. -/

theorem arisingFrom_mono {b c : Nat} (h : b ≤ c) : ∀ l : List (Nat × β), arisingFrom c l = true → arisingFrom b l = true
  | [], _ => rfl
  | (k, _) :: l, hl => by
    simp only [arisingFrom, Bool.and_eq_true, decide_eq_true_eq] at *
    exact ⟨by omega, hl.2⟩

theorem arisingFrom_filter (q : Nat × β → Bool) : ∀ (l : List (Nat × β)) (b : Nat), arisingFrom b l = true → arisingFrom b (l.filter q) = true
  | [], _, _ => rfl
  | (k, v) :: l, b, h => by
    simp only [arisingFrom, Bool.and_eq_true, decide_eq_true_eq] at h
    by_cases hq : q (k, v)
    · simp [hq, arisingFrom, h.1, arisingFrom_filter q l (k + 1) h.2]
    · simpa [hq] using arisingFrom_mono (by omega) _ (arisingFrom_filter q l (k + 1) h.2)

/-- A filter keeps the keys rising. -/
theorem arising_filter (q : Nat × β → Bool) (l : List (Nat × β)) (h : arising l = true) : arising (l.filter q) = true :=
  arisingFrom_filter q l 0 h

/-- A removal keeps the keys rising. -/
theorem arising_adel (l : List (Nat × β)) (x : Nat) (h : arising l = true) : arising (adel l x) = true :=
  arising_filter _ l h

theorem arisingFrom_ains (x : Nat) (v : β) : ∀ (l : List (Nat × β)) (b : Nat), b ≤ x → aget l x = none →
    arisingFrom b l = true → arisingFrom b (ains x v l) = true
  | [], b, hb, _, _ => by simp [ains, arisingFrom, hb]
  | (k, w) :: l, b, hb, hn, h => by
    simp only [arisingFrom, Bool.and_eq_true, decide_eq_true_eq] at h
    have hk : k ≠ x := by
      intro e
      simp [aget, e] at hn
    rw [aget_cons_ne hk] at hn
    by_cases hx : x < k
    · simp only [ains, hx, ↓reduceIte, arisingFrom, Bool.and_eq_true, decide_eq_true_eq]
      exact ⟨hb, by omega, h.2⟩
    · simp only [ains, hx, ↓reduceIte, arisingFrom, Bool.and_eq_true, decide_eq_true_eq]
      exact ⟨h.1, arisingFrom_ains x v l (k + 1) (by omega) hn h.2⟩

/-- Setting a key keeps the keys rising. -/
theorem arising_aput (l : List (Nat × β)) (x : Nat) (v : β) (h : arising l = true) : arising (aput l x v) = true :=
  arisingFrom_ains x v _ 0 (by omega) (aget_adel_same l x) (arising_adel l x h)

/-- Setting or removing a key keeps the keys rising. -/
theorem arising_aset (l : List (Nat × β)) (x : Nat) (v : Option β) (h : arising l = true) : arising (aset l x v) = true := by
  cases v with
  | none => exact arising_adel l x h
  | some v => exact arising_aput l x v h

/-- The pairs of a list after a set: the new one, or old ones. -/
theorem mem_aput {l : List (Nat × β)} {x : Nat} {v : β} {r : Nat × β} (h : r ∈ aput l x v) : r = (x, v) ∨ r ∈ l := by
  have key : ∀ m : List (Nat × β), r ∈ ains x v m → r = (x, v) ∨ r ∈ m := by
    intro m
    induction m with
    | nil => simp [ains]
    | cons p m ih =>
      obtain ⟨k, w⟩ := p
      by_cases hx : x < k
      · simp [ains, hx]
      · simp only [ains, hx, ↓reduceIte, List.mem_cons]
        rintro (h | h)
        · exact .inr (.inl h)
        · rcases ih h with h | h
          · exact .inl h
          · exact .inr (.inr h)
  rcases key _ h with h | h
  · exact .inl h
  · exact .inr (List.mem_filter.mp h).1

end Sys2Proof.Machine
end

