-- ==== Sys2Proof/Laws/Memory.lean ====
section
/-! SUPPORT. Memory as data: every change keeps the canonical form, and what each change does to a cell, a granule's state and
a byte of host memory. -/

namespace Sys2Proof.Machine

theorem noZeroCls_filter (q : Host.Cell → Bool) (l : List Host.Cell) (h : noZeroCls l = true) : noZeroCls (l.filter q) = true := by
  simp only [noZeroCls, List.all_eq_true] at *
  intro r hr
  exact h r (List.mem_filter.mp hr).1

theorem noZeroCls_aput (l : List Host.Cell) (a : Nat) (v : Byte) (h : noZeroCls l = true) (hv : ¬(target a = .cls ∧ v = 0)) :
    noZeroCls (aput l a v) = true := by
  simp only [noZeroCls, List.all_eq_true] at *
  intro r hr
  rcases mem_aput hr with rfl | hr
  · simpa [Classical.or_iff_not_imp_left] using hv
  · exact h r hr

/-- One change keeps the canonical form of memory. -/
theorem Memory.apply_wf (m : Memory) (op : MemOp) (h : m.wf = true) : (m.apply op).wf = true := by
  simp only [Memory.wf, Bool.and_eq_true] at h
  obtain ⟨⟨⟨⟨hc, hz⟩, hm⟩, hh⟩, he⟩ := h
  cases op with
  | byte a v =>
    simp only [Memory.apply, Memory.wf, Bool.and_eq_true]
    split
    · exact ⟨⟨⟨⟨arising_adel _ _ hc, noZeroCls_filter _ _ hz⟩, hm⟩, hh⟩, he⟩
    · next hv => exact ⟨⟨⟨⟨arising_aput _ _ _ hc, noZeroCls_aput _ _ _ hz hv⟩, hm⟩, hh⟩, he⟩
  | mark g s =>
    simp only [Memory.apply, Memory.wf, Bool.and_eq_true]
    exact ⟨⟨⟨⟨hc, hz⟩, arising_aset _ _ _ hm⟩, hh⟩, he⟩
  | clear lo hi =>
    simp only [Memory.apply, Memory.wf, Bool.and_eq_true]
    exact ⟨⟨⟨⟨arising_filter _ _ hc, noZeroCls_filter _ _ hz⟩, arising_filter _ _ hm⟩, hh⟩, he⟩
  | hostByte a v ep =>
    simp only [Memory.apply, Memory.wf, Bool.and_eq_true]
    exact ⟨⟨⟨⟨hc, hz⟩, hm⟩, arising_aput _ _ _ hh⟩, arising_aset _ _ _ he⟩

/-- A list of changes keeps the canonical form of memory. -/
theorem Memory.applyAll_wf (ops : List MemOp) : ∀ m : Memory, m.wf = true → (m.applyAll ops).wf = true := by
  induction ops with
  | nil => exact fun m h => h
  | cons op ops ih => exact fun m h => ih (m.apply op) (m.apply_wf op h)

@[simp] theorem Memory.applyAll_nil (m : Memory) : m.applyAll [] = m := rfl

@[simp] theorem Memory.applyAll_cons (m : Memory) (op : MemOp) (ops : List MemOp) :
    m.applyAll (op :: ops) = (m.apply op).applyAll ops := rfl

theorem Memory.applyAll_append (m : Memory) (a b : List MemOp) : m.applyAll (a ++ b) = (m.applyAll a).applyAll b := by
  simp [Memory.applyAll]

/-- What a cell holds after a byte is stored: the byte, where an unlisted Cloister cell stands for 0. -/
theorem Memory.apply_byte_cell (m : Memory) (a x : Nat) (v : Byte) :
    aget (m.apply (.byte a v)).cells x = if a = x then (if target a = .cls ∧ v = 0 then none else some v) else aget m.cells x := by
  simp only [Memory.apply]
  split
  · by_cases h : a = x
    · subst h; simp
    · simp [h, aget_adel_ne]
  · simp [aget_aput]

@[simp] theorem Memory.apply_byte_marks (m : Memory) (a : Nat) (v : Byte) : (m.apply (.byte a v)).marks = m.marks := rfl
@[simp] theorem Memory.apply_byte_host (m : Memory) (a : Nat) (v : Byte) : (m.apply (.byte a v)).host = m.host := rfl
@[simp] theorem Memory.apply_mark_cells (m : Memory) (g : Nat) (s : Option Mark) : (m.apply (.mark g s)).cells = m.cells := rfl
@[simp] theorem Memory.apply_mark_host (m : Memory) (g : Nat) (s : Option Mark) : (m.apply (.mark g s)).host = m.host := rfl
@[simp] theorem Memory.apply_host_cells (m : Memory) (a : Nat) (v : Byte) (e : Bool) : (m.apply (.hostByte a v e)).cells = m.cells := rfl
@[simp] theorem Memory.apply_host_marks (m : Memory) (a : Nat) (v : Byte) (e : Bool) : (m.apply (.hostByte a v e)).marks = m.marks := rfl

/-- The state of a granule after it is set. -/
theorem Memory.apply_mark_mark (m : Memory) (g x : Nat) (s : Option Mark) :
    aget (m.apply (.mark g s)).marks x = if g = x then s else aget m.marks x := by
  simp [Memory.apply, aget_aset]

/-- A byte of host memory after one is written. -/
theorem Memory.apply_host_host (m : Memory) (a x : Nat) (v : Byte) (e : Bool) :
    aget (m.apply (.hostByte a v e)).host x = if a = x then some v else aget m.host x := by
  simp [Memory.apply, aget_aput]

end Sys2Proof.Machine
end

