-- ==== Sys2Proof/Laws/State.lean ====
section
/-! SUPPORT. Updates of the state: one lemma per field and update, so that no later proof unfolds a record update. -/

namespace Sys2Proof.Machine

/-! The two shapes of a meaning. -/

@[simp] theorem State.onChip_pending (s : State) (f : Chip → Chip) : (s.onChip f).pending = s.pending := rfl
@[simp] theorem State.onChip_fuses (s : State) (f : Chip → Chip) : (s.onChip f).fuses = s.fuses := rfl
@[simp] theorem State.onChip_mem (s : State) (f : Chip → Chip) : (s.onChip f).mem = s.mem := rfl
@[simp] theorem State.onChip_chip (s : State) (f : Chip → Chip) : (s.onChip f).chip = (f s.chip).settle := rfl
@[simp] theorem State.onWork_pending (s : State) (f : Work → Work) : (s.onWork f).pending = s.pending := rfl
@[simp] theorem State.onWork_fuses (s : State) (f : Work → Work) : (s.onWork f).fuses = s.fuses := rfl
theorem State.onWork_mem (s : State) (f : Work → Work) :
    (s.onWork f).mem = s.mem.applyAll (f { chip := s.chip, mem := s.mem, fuses := s.fuses, ops := [] }).ops.reverse := rfl
theorem State.onWork_chip (s : State) (f : Work → Work) :
    (s.onWork f).chip = (f { chip := s.chip, mem := s.mem, fuses := s.fuses, ops := [] }).chip.settle := rfl

/-! The interrupt messages that follow every command touch only the endpoint's own state. -/

@[simp] theorem Chip.settle_regs (c : Chip) : c.settle.regs = c.regs := rfl
@[simp] theorem Chip.settle_time (c : Chip) : c.settle.time = c.time := rfl
@[simp] theorem Chip.settle_bus (c : Chip) : c.settle.bus = c.bus := rfl
@[simp] theorem Chip.settle_vrg (c : Chip) : c.settle.vrg = c.vrg := rfl
@[simp] theorem Chip.settle_rood (c : Chip) : c.settle.rood = c.rood := rfl
@[simp] theorem Chip.settle_desc (c : Chip) : c.settle.desc = c.desc := rfl
@[simp] theorem Chip.settle_memc (c : Chip) : c.settle.memc = c.memc := rfl
@[simp] theorem Chip.settle_queues (c : Chip) : c.settle.queues = c.queues := rfl
@[simp] theorem Chip.settle_cho (c : Chip) : c.settle.cho = c.cho := rfl
@[simp] theorem Chip.settle_lis (c : Chip) : c.settle.lis = c.lis := rfl
@[simp] theorem Chip.settle_dmd (c : Chip) : c.settle.dmd = c.dmd := rfl
@[simp] theorem Chip.settle_ntx (c : Chip) : c.settle.ntx = c.ntx := rfl
@[simp] theorem Chip.settle_link (c : Chip) : c.settle.link = c.link := rfl
@[simp] theorem Chip.settle_car (c : Chip) : c.settle.car = c.car := rfl
@[simp] theorem Chip.settle_uarts (c : Chip) : c.settle.uarts = c.uarts := rfl
@[simp] theorem Chip.settle_pwr (c : Chip) : c.settle.pwr = c.pwr := rfl
@[simp] theorem Chip.settle_fw (c : Chip) : c.settle.fw = c.fw := rfl
@[simp] theorem Chip.settle_prc (c : Chip) : c.settle.prc = c.prc := rfl
@[simp] theorem Chip.settle_dma (c : Chip) : c.settle.dma = c.dma := rfl
@[simp] theorem Chip.settle_tap (c : Chip) : c.settle.tap = c.tap := rfl
@[simp] theorem Chip.settle_rd (c : Chip) (p off : Nat) : c.settle.rd p off = c.rd p off := rfl
@[simp] theorem Chip.settle_fld (c : Chip) (p off lo w : Nat) : c.settle.fld p off lo w = c.fld p off lo w := rfl
@[simp] theorem Chip.settle_bit (c : Chip) (p off b : Nat) : c.settle.bit p off b = c.bit p off b := rfl

/-! A register set: no other field of the chip changes. -/

@[simp] theorem Chip.wr_time (c : Chip) (p off : Nat) (v : Word) : (c.wr p off v).time = c.time := rfl
@[simp] theorem Chip.wr_bus (c : Chip) (p off : Nat) (v : Word) : (c.wr p off v).bus = c.bus := rfl
@[simp] theorem Chip.wr_vrg (c : Chip) (p off : Nat) (v : Word) : (c.wr p off v).vrg = c.vrg := rfl
@[simp] theorem Chip.wr_rood (c : Chip) (p off : Nat) (v : Word) : (c.wr p off v).rood = c.rood := rfl
@[simp] theorem Chip.wr_desc (c : Chip) (p off : Nat) (v : Word) : (c.wr p off v).desc = c.desc := rfl
@[simp] theorem Chip.wr_memc (c : Chip) (p off : Nat) (v : Word) : (c.wr p off v).memc = c.memc := rfl
@[simp] theorem Chip.wr_pcie (c : Chip) (p off : Nat) (v : Word) : (c.wr p off v).pcie = c.pcie := rfl
@[simp] theorem Chip.wr_queues (c : Chip) (p off : Nat) (v : Word) : (c.wr p off v).queues = c.queues := rfl
@[simp] theorem Chip.wr_cho (c : Chip) (p off : Nat) (v : Word) : (c.wr p off v).cho = c.cho := rfl
@[simp] theorem Chip.wr_lis (c : Chip) (p off : Nat) (v : Word) : (c.wr p off v).lis = c.lis := rfl
@[simp] theorem Chip.wr_dmd (c : Chip) (p off : Nat) (v : Word) : (c.wr p off v).dmd = c.dmd := rfl
@[simp] theorem Chip.wr_ntx (c : Chip) (p off : Nat) (v : Word) : (c.wr p off v).ntx = c.ntx := rfl
@[simp] theorem Chip.wr_link (c : Chip) (p off : Nat) (v : Word) : (c.wr p off v).link = c.link := rfl
@[simp] theorem Chip.wr_car (c : Chip) (p off : Nat) (v : Word) : (c.wr p off v).car = c.car := rfl
@[simp] theorem Chip.wr_uarts (c : Chip) (p off : Nat) (v : Word) : (c.wr p off v).uarts = c.uarts := rfl
@[simp] theorem Chip.wr_pwr (c : Chip) (p off : Nat) (v : Word) : (c.wr p off v).pwr = c.pwr := rfl
@[simp] theorem Chip.wr_fw (c : Chip) (p off : Nat) (v : Word) : (c.wr p off v).fw = c.fw := rfl
@[simp] theorem Chip.wr_prc (c : Chip) (p off : Nat) (v : Word) : (c.wr p off v).prc = c.prc := rfl
@[simp] theorem Chip.wr_dma (c : Chip) (p off : Nat) (v : Word) : (c.wr p off v).dma = c.dma := rfl
@[simp] theorem Chip.wr_tap (c : Chip) (p off : Nat) (v : Word) : (c.wr p off v).tap = c.tap := rfl

/-! A field, a bit, a counter or an interrupt cause set: no other part of the chip changes. -/

@[simp] theorem Chip.setFld_time (c : Chip) (p off lo w x : Nat) : (c.setFld p off lo w x).time = c.time := rfl
@[simp] theorem Chip.setBit_time (c : Chip) (p off b : Nat) (v : Bool) : (c.setBit p off b v).time = c.time := rfl
@[simp] theorem Chip.count_time (c : Chip) (p off n : Nat) : (c.count p off n).time = c.time := rfl
@[simp] theorem Chip.raise_time (c : Chip) (p b : Nat) : (c.raise p b).time = c.time := rfl
@[simp] theorem Chip.wr64_time (c : Chip) (p off v : Nat) : (c.wr64 p off v).time = c.time := rfl
@[simp] theorem Chip.setFld_bus (c : Chip) (p off lo w x : Nat) : (c.setFld p off lo w x).bus = c.bus := rfl
@[simp] theorem Chip.setBit_bus (c : Chip) (p off b : Nat) (v : Bool) : (c.setBit p off b v).bus = c.bus := rfl
@[simp] theorem Chip.count_bus (c : Chip) (p off n : Nat) : (c.count p off n).bus = c.bus := rfl
@[simp] theorem Chip.raise_bus (c : Chip) (p b : Nat) : (c.raise p b).bus = c.bus := rfl
@[simp] theorem Chip.wr64_bus (c : Chip) (p off v : Nat) : (c.wr64 p off v).bus = c.bus := rfl
@[simp] theorem Chip.setFld_vrg (c : Chip) (p off lo w x : Nat) : (c.setFld p off lo w x).vrg = c.vrg := rfl
@[simp] theorem Chip.setBit_vrg (c : Chip) (p off b : Nat) (v : Bool) : (c.setBit p off b v).vrg = c.vrg := rfl
@[simp] theorem Chip.count_vrg (c : Chip) (p off n : Nat) : (c.count p off n).vrg = c.vrg := rfl
@[simp] theorem Chip.raise_vrg (c : Chip) (p b : Nat) : (c.raise p b).vrg = c.vrg := rfl
@[simp] theorem Chip.wr64_vrg (c : Chip) (p off v : Nat) : (c.wr64 p off v).vrg = c.vrg := rfl
@[simp] theorem Chip.setFld_rood (c : Chip) (p off lo w x : Nat) : (c.setFld p off lo w x).rood = c.rood := rfl
@[simp] theorem Chip.setBit_rood (c : Chip) (p off b : Nat) (v : Bool) : (c.setBit p off b v).rood = c.rood := rfl
@[simp] theorem Chip.count_rood (c : Chip) (p off n : Nat) : (c.count p off n).rood = c.rood := rfl
@[simp] theorem Chip.raise_rood (c : Chip) (p b : Nat) : (c.raise p b).rood = c.rood := rfl
@[simp] theorem Chip.wr64_rood (c : Chip) (p off v : Nat) : (c.wr64 p off v).rood = c.rood := rfl
@[simp] theorem Chip.setFld_desc (c : Chip) (p off lo w x : Nat) : (c.setFld p off lo w x).desc = c.desc := rfl
@[simp] theorem Chip.setBit_desc (c : Chip) (p off b : Nat) (v : Bool) : (c.setBit p off b v).desc = c.desc := rfl
@[simp] theorem Chip.count_desc (c : Chip) (p off n : Nat) : (c.count p off n).desc = c.desc := rfl
@[simp] theorem Chip.raise_desc (c : Chip) (p b : Nat) : (c.raise p b).desc = c.desc := rfl
@[simp] theorem Chip.wr64_desc (c : Chip) (p off v : Nat) : (c.wr64 p off v).desc = c.desc := rfl
@[simp] theorem Chip.setFld_memc (c : Chip) (p off lo w x : Nat) : (c.setFld p off lo w x).memc = c.memc := rfl
@[simp] theorem Chip.setBit_memc (c : Chip) (p off b : Nat) (v : Bool) : (c.setBit p off b v).memc = c.memc := rfl
@[simp] theorem Chip.count_memc (c : Chip) (p off n : Nat) : (c.count p off n).memc = c.memc := rfl
@[simp] theorem Chip.raise_memc (c : Chip) (p b : Nat) : (c.raise p b).memc = c.memc := rfl
@[simp] theorem Chip.wr64_memc (c : Chip) (p off v : Nat) : (c.wr64 p off v).memc = c.memc := rfl
@[simp] theorem Chip.setFld_pcie (c : Chip) (p off lo w x : Nat) : (c.setFld p off lo w x).pcie = c.pcie := rfl
@[simp] theorem Chip.setBit_pcie (c : Chip) (p off b : Nat) (v : Bool) : (c.setBit p off b v).pcie = c.pcie := rfl
@[simp] theorem Chip.count_pcie (c : Chip) (p off n : Nat) : (c.count p off n).pcie = c.pcie := rfl
@[simp] theorem Chip.raise_pcie (c : Chip) (p b : Nat) : (c.raise p b).pcie = c.pcie := rfl
@[simp] theorem Chip.wr64_pcie (c : Chip) (p off v : Nat) : (c.wr64 p off v).pcie = c.pcie := rfl
@[simp] theorem Chip.setFld_queues (c : Chip) (p off lo w x : Nat) : (c.setFld p off lo w x).queues = c.queues := rfl
@[simp] theorem Chip.setBit_queues (c : Chip) (p off b : Nat) (v : Bool) : (c.setBit p off b v).queues = c.queues := rfl
@[simp] theorem Chip.count_queues (c : Chip) (p off n : Nat) : (c.count p off n).queues = c.queues := rfl
@[simp] theorem Chip.raise_queues (c : Chip) (p b : Nat) : (c.raise p b).queues = c.queues := rfl
@[simp] theorem Chip.wr64_queues (c : Chip) (p off v : Nat) : (c.wr64 p off v).queues = c.queues := rfl
@[simp] theorem Chip.setFld_cho (c : Chip) (p off lo w x : Nat) : (c.setFld p off lo w x).cho = c.cho := rfl
@[simp] theorem Chip.setBit_cho (c : Chip) (p off b : Nat) (v : Bool) : (c.setBit p off b v).cho = c.cho := rfl
@[simp] theorem Chip.count_cho (c : Chip) (p off n : Nat) : (c.count p off n).cho = c.cho := rfl
@[simp] theorem Chip.raise_cho (c : Chip) (p b : Nat) : (c.raise p b).cho = c.cho := rfl
@[simp] theorem Chip.wr64_cho (c : Chip) (p off v : Nat) : (c.wr64 p off v).cho = c.cho := rfl
@[simp] theorem Chip.setFld_lis (c : Chip) (p off lo w x : Nat) : (c.setFld p off lo w x).lis = c.lis := rfl
@[simp] theorem Chip.setBit_lis (c : Chip) (p off b : Nat) (v : Bool) : (c.setBit p off b v).lis = c.lis := rfl
@[simp] theorem Chip.count_lis (c : Chip) (p off n : Nat) : (c.count p off n).lis = c.lis := rfl
@[simp] theorem Chip.raise_lis (c : Chip) (p b : Nat) : (c.raise p b).lis = c.lis := rfl
@[simp] theorem Chip.wr64_lis (c : Chip) (p off v : Nat) : (c.wr64 p off v).lis = c.lis := rfl
@[simp] theorem Chip.setFld_dmd (c : Chip) (p off lo w x : Nat) : (c.setFld p off lo w x).dmd = c.dmd := rfl
@[simp] theorem Chip.setBit_dmd (c : Chip) (p off b : Nat) (v : Bool) : (c.setBit p off b v).dmd = c.dmd := rfl
@[simp] theorem Chip.count_dmd (c : Chip) (p off n : Nat) : (c.count p off n).dmd = c.dmd := rfl
@[simp] theorem Chip.raise_dmd (c : Chip) (p b : Nat) : (c.raise p b).dmd = c.dmd := rfl
@[simp] theorem Chip.wr64_dmd (c : Chip) (p off v : Nat) : (c.wr64 p off v).dmd = c.dmd := rfl
@[simp] theorem Chip.setFld_ntx (c : Chip) (p off lo w x : Nat) : (c.setFld p off lo w x).ntx = c.ntx := rfl
@[simp] theorem Chip.setBit_ntx (c : Chip) (p off b : Nat) (v : Bool) : (c.setBit p off b v).ntx = c.ntx := rfl
@[simp] theorem Chip.count_ntx (c : Chip) (p off n : Nat) : (c.count p off n).ntx = c.ntx := rfl
@[simp] theorem Chip.raise_ntx (c : Chip) (p b : Nat) : (c.raise p b).ntx = c.ntx := rfl
@[simp] theorem Chip.wr64_ntx (c : Chip) (p off v : Nat) : (c.wr64 p off v).ntx = c.ntx := rfl
@[simp] theorem Chip.setFld_link (c : Chip) (p off lo w x : Nat) : (c.setFld p off lo w x).link = c.link := rfl
@[simp] theorem Chip.setBit_link (c : Chip) (p off b : Nat) (v : Bool) : (c.setBit p off b v).link = c.link := rfl
@[simp] theorem Chip.count_link (c : Chip) (p off n : Nat) : (c.count p off n).link = c.link := rfl
@[simp] theorem Chip.raise_link (c : Chip) (p b : Nat) : (c.raise p b).link = c.link := rfl
@[simp] theorem Chip.wr64_link (c : Chip) (p off v : Nat) : (c.wr64 p off v).link = c.link := rfl
@[simp] theorem Chip.setFld_car (c : Chip) (p off lo w x : Nat) : (c.setFld p off lo w x).car = c.car := rfl
@[simp] theorem Chip.setBit_car (c : Chip) (p off b : Nat) (v : Bool) : (c.setBit p off b v).car = c.car := rfl
@[simp] theorem Chip.count_car (c : Chip) (p off n : Nat) : (c.count p off n).car = c.car := rfl
@[simp] theorem Chip.raise_car (c : Chip) (p b : Nat) : (c.raise p b).car = c.car := rfl
@[simp] theorem Chip.wr64_car (c : Chip) (p off v : Nat) : (c.wr64 p off v).car = c.car := rfl
@[simp] theorem Chip.setFld_uarts (c : Chip) (p off lo w x : Nat) : (c.setFld p off lo w x).uarts = c.uarts := rfl
@[simp] theorem Chip.setBit_uarts (c : Chip) (p off b : Nat) (v : Bool) : (c.setBit p off b v).uarts = c.uarts := rfl
@[simp] theorem Chip.count_uarts (c : Chip) (p off n : Nat) : (c.count p off n).uarts = c.uarts := rfl
@[simp] theorem Chip.raise_uarts (c : Chip) (p b : Nat) : (c.raise p b).uarts = c.uarts := rfl
@[simp] theorem Chip.wr64_uarts (c : Chip) (p off v : Nat) : (c.wr64 p off v).uarts = c.uarts := rfl
@[simp] theorem Chip.setFld_pwr (c : Chip) (p off lo w x : Nat) : (c.setFld p off lo w x).pwr = c.pwr := rfl
@[simp] theorem Chip.setBit_pwr (c : Chip) (p off b : Nat) (v : Bool) : (c.setBit p off b v).pwr = c.pwr := rfl
@[simp] theorem Chip.count_pwr (c : Chip) (p off n : Nat) : (c.count p off n).pwr = c.pwr := rfl
@[simp] theorem Chip.raise_pwr (c : Chip) (p b : Nat) : (c.raise p b).pwr = c.pwr := rfl
@[simp] theorem Chip.wr64_pwr (c : Chip) (p off v : Nat) : (c.wr64 p off v).pwr = c.pwr := rfl
@[simp] theorem Chip.setFld_fw (c : Chip) (p off lo w x : Nat) : (c.setFld p off lo w x).fw = c.fw := rfl
@[simp] theorem Chip.setBit_fw (c : Chip) (p off b : Nat) (v : Bool) : (c.setBit p off b v).fw = c.fw := rfl
@[simp] theorem Chip.count_fw (c : Chip) (p off n : Nat) : (c.count p off n).fw = c.fw := rfl
@[simp] theorem Chip.raise_fw (c : Chip) (p b : Nat) : (c.raise p b).fw = c.fw := rfl
@[simp] theorem Chip.wr64_fw (c : Chip) (p off v : Nat) : (c.wr64 p off v).fw = c.fw := rfl
@[simp] theorem Chip.setFld_prc (c : Chip) (p off lo w x : Nat) : (c.setFld p off lo w x).prc = c.prc := rfl
@[simp] theorem Chip.setBit_prc (c : Chip) (p off b : Nat) (v : Bool) : (c.setBit p off b v).prc = c.prc := rfl
@[simp] theorem Chip.count_prc (c : Chip) (p off n : Nat) : (c.count p off n).prc = c.prc := rfl
@[simp] theorem Chip.raise_prc (c : Chip) (p b : Nat) : (c.raise p b).prc = c.prc := rfl
@[simp] theorem Chip.wr64_prc (c : Chip) (p off v : Nat) : (c.wr64 p off v).prc = c.prc := rfl
@[simp] theorem Chip.setFld_dma (c : Chip) (p off lo w x : Nat) : (c.setFld p off lo w x).dma = c.dma := rfl
@[simp] theorem Chip.setFld_tap (c : Chip) (p off lo w x : Nat) : (c.setFld p off lo w x).tap = c.tap := rfl
@[simp] theorem Chip.setBit_dma (c : Chip) (p off b : Nat) (v : Bool) : (c.setBit p off b v).dma = c.dma := rfl
@[simp] theorem Chip.setBit_tap (c : Chip) (p off b : Nat) (v : Bool) : (c.setBit p off b v).tap = c.tap := rfl
@[simp] theorem Chip.count_dma (c : Chip) (p off n : Nat) : (c.count p off n).dma = c.dma := rfl
@[simp] theorem Chip.count_tap (c : Chip) (p off n : Nat) : (c.count p off n).tap = c.tap := rfl
@[simp] theorem Chip.raise_dma (c : Chip) (p b : Nat) : (c.raise p b).dma = c.dma := rfl
@[simp] theorem Chip.raise_tap (c : Chip) (p b : Nat) : (c.raise p b).tap = c.tap := rfl
@[simp] theorem Chip.wr64_dma (c : Chip) (p off v : Nat) : (c.wr64 p off v).dma = c.dma := rfl
@[simp] theorem Chip.wr64_tap (c : Chip) (p off v : Nat) : (c.wr64 p off v).tap = c.tap := rfl

/-! An error record: the journal, ERR_LOG and the ERR cause. -/

@[simp] theorem Chip.journal_time (c : Chip) (e : JrnEntry) : (c.journal e).time = c.time := by
  unfold Chip.journal; split <;> rfl
@[simp] theorem Chip.logErr_time (c : Chip) (p cls code owner : Nat) (d : Word) : (c.logErr p cls code owner d).time = c.time := by
  simp [Chip.logErr]
@[simp] theorem Chip.logUse_time (c : Chip) (p code : Nat) (r : Requester) (a : Nat) : (c.logUse p code r a).time = c.time := by
  simp [Chip.logUse]
@[simp] theorem Chip.journal_bus (c : Chip) (e : JrnEntry) : (c.journal e).bus = c.bus := by
  unfold Chip.journal; split <;> rfl
@[simp] theorem Chip.logErr_bus (c : Chip) (p cls code owner : Nat) (d : Word) : (c.logErr p cls code owner d).bus = c.bus := by
  simp [Chip.logErr]
@[simp] theorem Chip.logUse_bus (c : Chip) (p code : Nat) (r : Requester) (a : Nat) : (c.logUse p code r a).bus = c.bus := by
  simp [Chip.logUse]
@[simp] theorem Chip.journal_rood (c : Chip) (e : JrnEntry) : (c.journal e).rood = c.rood := by
  unfold Chip.journal; split <;> rfl
@[simp] theorem Chip.logErr_rood (c : Chip) (p cls code owner : Nat) (d : Word) : (c.logErr p cls code owner d).rood = c.rood := by
  simp [Chip.logErr]
@[simp] theorem Chip.logUse_rood (c : Chip) (p code : Nat) (r : Requester) (a : Nat) : (c.logUse p code r a).rood = c.rood := by
  simp [Chip.logUse]
@[simp] theorem Chip.journal_desc (c : Chip) (e : JrnEntry) : (c.journal e).desc = c.desc := by
  unfold Chip.journal; split <;> rfl
@[simp] theorem Chip.logErr_desc (c : Chip) (p cls code owner : Nat) (d : Word) : (c.logErr p cls code owner d).desc = c.desc := by
  simp [Chip.logErr]
@[simp] theorem Chip.logUse_desc (c : Chip) (p code : Nat) (r : Requester) (a : Nat) : (c.logUse p code r a).desc = c.desc := by
  simp [Chip.logUse]
@[simp] theorem Chip.journal_memc (c : Chip) (e : JrnEntry) : (c.journal e).memc = c.memc := by
  unfold Chip.journal; split <;> rfl
@[simp] theorem Chip.logErr_memc (c : Chip) (p cls code owner : Nat) (d : Word) : (c.logErr p cls code owner d).memc = c.memc := by
  simp [Chip.logErr]
@[simp] theorem Chip.logUse_memc (c : Chip) (p code : Nat) (r : Requester) (a : Nat) : (c.logUse p code r a).memc = c.memc := by
  simp [Chip.logUse]
@[simp] theorem Chip.journal_pcie (c : Chip) (e : JrnEntry) : (c.journal e).pcie = c.pcie := by
  unfold Chip.journal; split <;> rfl
@[simp] theorem Chip.logErr_pcie (c : Chip) (p cls code owner : Nat) (d : Word) : (c.logErr p cls code owner d).pcie = c.pcie := by
  simp [Chip.logErr]
@[simp] theorem Chip.logUse_pcie (c : Chip) (p code : Nat) (r : Requester) (a : Nat) : (c.logUse p code r a).pcie = c.pcie := by
  simp [Chip.logUse]
@[simp] theorem Chip.journal_queues (c : Chip) (e : JrnEntry) : (c.journal e).queues = c.queues := by
  unfold Chip.journal; split <;> rfl
@[simp] theorem Chip.logErr_queues (c : Chip) (p cls code owner : Nat) (d : Word) : (c.logErr p cls code owner d).queues = c.queues := by
  simp [Chip.logErr]
@[simp] theorem Chip.logUse_queues (c : Chip) (p code : Nat) (r : Requester) (a : Nat) : (c.logUse p code r a).queues = c.queues := by
  simp [Chip.logUse]
@[simp] theorem Chip.journal_cho (c : Chip) (e : JrnEntry) : (c.journal e).cho = c.cho := by
  unfold Chip.journal; split <;> rfl
@[simp] theorem Chip.logErr_cho (c : Chip) (p cls code owner : Nat) (d : Word) : (c.logErr p cls code owner d).cho = c.cho := by
  simp [Chip.logErr]
@[simp] theorem Chip.logUse_cho (c : Chip) (p code : Nat) (r : Requester) (a : Nat) : (c.logUse p code r a).cho = c.cho := by
  simp [Chip.logUse]
@[simp] theorem Chip.journal_lis (c : Chip) (e : JrnEntry) : (c.journal e).lis = c.lis := by
  unfold Chip.journal; split <;> rfl
@[simp] theorem Chip.logErr_lis (c : Chip) (p cls code owner : Nat) (d : Word) : (c.logErr p cls code owner d).lis = c.lis := by
  simp [Chip.logErr]
@[simp] theorem Chip.logUse_lis (c : Chip) (p code : Nat) (r : Requester) (a : Nat) : (c.logUse p code r a).lis = c.lis := by
  simp [Chip.logUse]
@[simp] theorem Chip.journal_dmd (c : Chip) (e : JrnEntry) : (c.journal e).dmd = c.dmd := by
  unfold Chip.journal; split <;> rfl
@[simp] theorem Chip.logErr_dmd (c : Chip) (p cls code owner : Nat) (d : Word) : (c.logErr p cls code owner d).dmd = c.dmd := by
  simp [Chip.logErr]
@[simp] theorem Chip.logUse_dmd (c : Chip) (p code : Nat) (r : Requester) (a : Nat) : (c.logUse p code r a).dmd = c.dmd := by
  simp [Chip.logUse]
@[simp] theorem Chip.journal_ntx (c : Chip) (e : JrnEntry) : (c.journal e).ntx = c.ntx := by
  unfold Chip.journal; split <;> rfl
@[simp] theorem Chip.logErr_ntx (c : Chip) (p cls code owner : Nat) (d : Word) : (c.logErr p cls code owner d).ntx = c.ntx := by
  simp [Chip.logErr]
@[simp] theorem Chip.logUse_ntx (c : Chip) (p code : Nat) (r : Requester) (a : Nat) : (c.logUse p code r a).ntx = c.ntx := by
  simp [Chip.logUse]
@[simp] theorem Chip.journal_link (c : Chip) (e : JrnEntry) : (c.journal e).link = c.link := by
  unfold Chip.journal; split <;> rfl
@[simp] theorem Chip.logErr_link (c : Chip) (p cls code owner : Nat) (d : Word) : (c.logErr p cls code owner d).link = c.link := by
  simp [Chip.logErr]
@[simp] theorem Chip.logUse_link (c : Chip) (p code : Nat) (r : Requester) (a : Nat) : (c.logUse p code r a).link = c.link := by
  simp [Chip.logUse]
@[simp] theorem Chip.journal_car (c : Chip) (e : JrnEntry) : (c.journal e).car = c.car := by
  unfold Chip.journal; split <;> rfl
@[simp] theorem Chip.logErr_car (c : Chip) (p cls code owner : Nat) (d : Word) : (c.logErr p cls code owner d).car = c.car := by
  simp [Chip.logErr]
@[simp] theorem Chip.logUse_car (c : Chip) (p code : Nat) (r : Requester) (a : Nat) : (c.logUse p code r a).car = c.car := by
  simp [Chip.logUse]
@[simp] theorem Chip.journal_uarts (c : Chip) (e : JrnEntry) : (c.journal e).uarts = c.uarts := by
  unfold Chip.journal; split <;> rfl
@[simp] theorem Chip.logErr_uarts (c : Chip) (p cls code owner : Nat) (d : Word) : (c.logErr p cls code owner d).uarts = c.uarts := by
  simp [Chip.logErr]
@[simp] theorem Chip.logUse_uarts (c : Chip) (p code : Nat) (r : Requester) (a : Nat) : (c.logUse p code r a).uarts = c.uarts := by
  simp [Chip.logUse]
@[simp] theorem Chip.journal_pwr (c : Chip) (e : JrnEntry) : (c.journal e).pwr = c.pwr := by
  unfold Chip.journal; split <;> rfl
@[simp] theorem Chip.logErr_pwr (c : Chip) (p cls code owner : Nat) (d : Word) : (c.logErr p cls code owner d).pwr = c.pwr := by
  simp [Chip.logErr]
@[simp] theorem Chip.logUse_pwr (c : Chip) (p code : Nat) (r : Requester) (a : Nat) : (c.logUse p code r a).pwr = c.pwr := by
  simp [Chip.logUse]
@[simp] theorem Chip.journal_fw (c : Chip) (e : JrnEntry) : (c.journal e).fw = c.fw := by
  unfold Chip.journal; split <;> rfl
@[simp] theorem Chip.logErr_fw (c : Chip) (p cls code owner : Nat) (d : Word) : (c.logErr p cls code owner d).fw = c.fw := by
  simp [Chip.logErr]
@[simp] theorem Chip.logUse_fw (c : Chip) (p code : Nat) (r : Requester) (a : Nat) : (c.logUse p code r a).fw = c.fw := by
  simp [Chip.logUse]
@[simp] theorem Chip.journal_prc (c : Chip) (e : JrnEntry) : (c.journal e).prc = c.prc := by
  unfold Chip.journal; split <;> rfl
@[simp] theorem Chip.logErr_prc (c : Chip) (p cls code owner : Nat) (d : Word) : (c.logErr p cls code owner d).prc = c.prc := by
  simp [Chip.logErr]
@[simp] theorem Chip.logUse_prc (c : Chip) (p code : Nat) (r : Requester) (a : Nat) : (c.logUse p code r a).prc = c.prc := by
  simp [Chip.logUse]
@[simp] theorem Chip.journal_dma (c : Chip) (e : JrnEntry) : (c.journal e).dma = c.dma := by
  unfold Chip.journal; split <;> rfl
@[simp] theorem Chip.journal_tap (c : Chip) (e : JrnEntry) : (c.journal e).tap = c.tap := by
  unfold Chip.journal; split <;> rfl
@[simp] theorem Chip.logErr_dma (c : Chip) (p cls code owner : Nat) (d : Word) : (c.logErr p cls code owner d).dma = c.dma := by
  simp [Chip.logErr]
@[simp] theorem Chip.logErr_tap (c : Chip) (p cls code owner : Nat) (d : Word) : (c.logErr p cls code owner d).tap = c.tap := by
  simp [Chip.logErr]
@[simp] theorem Chip.logUse_dma (c : Chip) (p code : Nat) (r : Requester) (a : Nat) : (c.logUse p code r a).dma = c.dma := by
  simp [Chip.logUse]
@[simp] theorem Chip.logUse_tap (c : Chip) (p code : Nat) (r : Requester) (a : Nat) : (c.logUse p code r a).tap = c.tap := by
  simp [Chip.logUse]

end Sys2Proof.Machine
end

