-- ==== Sys2Proof/Laws/Regs.lean ====
section
/-! SUPPORT. Registers: what a word, a field and a bit read as after one was set, counted or raised. -/

namespace Sys2Proof.Machine

/-! Fields of a number. -/

theorem split_bits (v lo w : Nat) : v = v / 2 ^ (lo + w) * 2 ^ (lo + w) + bits v lo w * 2 ^ lo + v % 2 ^ lo := by
  have h1 := Nat.div_add_mod v (2 ^ lo)
  have h2 := Nat.div_add_mod (v / 2 ^ lo) (2 ^ w)
  rw [Nat.div_div_eq_div_mul, ← Nat.pow_add] at h2
  unfold bits
  calc v = 2 ^ lo * (2 ^ w * (v / 2 ^ (lo + w)) + v / 2 ^ lo % 2 ^ w) + v % 2 ^ lo := by rw [h2, h1]
    _ = _ := by rw [Nat.pow_add]; ring

theorem putBits_eq (v lo w x : Nat) :
    putBits v lo w x = v / 2 ^ (lo + w) * 2 ^ (lo + w) + x % 2 ^ w * 2 ^ lo + v % 2 ^ lo := by
  have h := split_bits v lo w
  unfold putBits
  omega

theorem putBits_low_lt (v lo w x : Nat) : x % 2 ^ w * 2 ^ lo + v % 2 ^ lo < 2 ^ (lo + w) := by
  have h1 : x % 2 ^ w + 1 ≤ 2 ^ w := Nat.mod_lt _ (by positivity)
  have h2 : v % 2 ^ lo < 2 ^ lo := Nat.mod_lt _ (by positivity)
  calc x % 2 ^ w * 2 ^ lo + v % 2 ^ lo < (x % 2 ^ w + 1) * 2 ^ lo := by rw [Nat.add_mul]; omega
    _ ≤ 2 ^ w * 2 ^ lo := Nat.mul_le_mul_right _ h1
    _ = 2 ^ (lo + w) := by rw [Nat.pow_add, Nat.mul_comm]

/-- The field that was replaced. -/
@[simp] theorem bits_putBits_same (v lo w x : Nat) : bits (putBits v lo w x) lo w = x % 2 ^ w := by
  rw [putBits_eq, bits]
  have e : v / 2 ^ (lo + w) * 2 ^ (lo + w) + x % 2 ^ w * 2 ^ lo + v % 2 ^ lo =
      v % 2 ^ lo + (v / 2 ^ (lo + w) * 2 ^ w + x % 2 ^ w) * 2 ^ lo := by rw [Nat.pow_add]; ring
  rw [e, Nat.add_mul_div_right _ _ (by positivity), Nat.div_eq_of_lt (Nat.mod_lt _ (by positivity)), Nat.zero_add,
    Nat.mul_add_mod_self_right, Nat.mod_mod]

/-- A field above the one that was replaced. -/
theorem bits_putBits_above (v lo w x lo' w' : Nat) (h : lo + w ≤ lo') : bits (putBits v lo w x) lo' w' = bits v lo' w' := by
  obtain ⟨k, rfl⟩ := Nat.exists_eq_add_of_le h
  have e : putBits v lo w x / 2 ^ (lo + w) = v / 2 ^ (lo + w) := by
    rw [putBits_eq, Nat.add_assoc, Nat.add_comm, Nat.add_mul_div_right _ _ (by positivity),
      Nat.div_eq_of_lt (putBits_low_lt v lo w x), Nat.zero_add]
  simp only [bits, Nat.pow_add _ (lo + w) k, ← Nat.div_div_eq_div_mul, e]

/-- A field below the one that was replaced. -/
theorem bits_putBits_below (v lo w x lo' w' : Nat) (h : lo' + w' ≤ lo) : bits (putBits v lo w x) lo' w' = bits v lo' w' := by
  have hm : ∀ n : Nat, bits n lo' w' = n % 2 ^ lo / 2 ^ lo' % 2 ^ w' := by
    intro n
    obtain ⟨k, rfl⟩ := Nat.exists_eq_add_of_le h
    rw [bits, Nat.add_assoc, Nat.pow_add _ lo', Nat.mod_mul_right_div_self, Nat.pow_add _ w', Nat.mod_mul_right_mod]
  have e : putBits v lo w x % 2 ^ lo = v % 2 ^ lo := by
    rw [putBits_eq]
    have : v / 2 ^ (lo + w) * 2 ^ (lo + w) + x % 2 ^ w * 2 ^ lo + v % 2 ^ lo =
      v % 2 ^ lo + 2 ^ lo * (v / 2 ^ (lo + w) * 2 ^ w + x % 2 ^ w) := by rw [Nat.pow_add]; ring
    rw [this, Nat.add_mul_mod_self_left, Nat.mod_mod]
  rw [hm, hm, e]

theorem putBits_lt (v lo w x n : Nat) (hv : v < 2 ^ n) (h : lo + w ≤ n) : putBits v lo w x < 2 ^ n := by
  obtain ⟨k, rfl⟩ := Nat.exists_eq_add_of_le h
  rw [putBits_eq, Nat.add_assoc]
  have h1 : v / 2 ^ (lo + w) + 1 ≤ 2 ^ k := by
    rw [Nat.succ_le_iff, Nat.div_lt_iff_lt_mul (by positivity), ← Nat.pow_add, Nat.add_comm k]; exact hv
  have h2 := putBits_low_lt v lo w x
  calc _ < (v / 2 ^ (lo + w) + 1) * 2 ^ (lo + w) := by rw [Nat.add_mul]; omega
    _ ≤ 2 ^ k * 2 ^ (lo + w) := Nat.mul_le_mul_right _ h1
    _ = 2 ^ (lo + w + k) := by rw [← Nat.pow_add, Nat.add_comm k]

theorem bits_lt (v lo w : Nat) : bits v lo w < 2 ^ w := Nat.mod_lt _ (by positivity)

/-! Words. -/

/-- A register that was set reads as set. -/
@[simp] theorem Chip.rd_wr_same (c : Chip) (p off : Nat) (v : Word) : (c.wr p off v).rd p off = v := by
  simp [Chip.rd, Chip.wr]

/-- Setting a register changes no other. -/
theorem Chip.rd_wr_ne (c : Chip) (p off p' off' : Nat) (v : Word) (h : regAddr p off ≠ regAddr p' off') :
    (c.wr p off v).rd p' off' = c.rd p' off' := by
  simp [Chip.rd, Chip.wr, aget_aput_ne _ _ _ _ h]

/-- A read after a set, in one equation. -/
theorem Chip.rd_wr (c : Chip) (p off p' off' : Nat) (v : Word) :
    (c.wr p off v).rd p' off' = if regAddr p off = regAddr p' off' then v else c.rd p' off' := by
  split
  · next h => simp [Chip.rd, Chip.wr, h]
  · next h => exact c.rd_wr_ne _ _ _ _ _ h

/-- Two registers of different pages have different addresses. -/
theorem regAddr_page_ne (p off p' off' : Nat) (hp : p ≠ p') (h : off < 0x1000) (h' : off' < 0x1000) :
    regAddr p off ≠ regAddr p' off' := by
  unfold regAddr; omega

/-- Two registers of a page at different offsets have different addresses. -/
theorem regAddr_off_ne (p off off' : Nat) (h : off ≠ off') : regAddr p off ≠ regAddr p off' := by
  unfold regAddr; omega

/-! Fields and bits. -/

theorem Chip.fld_wr_ne (c : Chip) (p off p' off' lo w : Nat) (v : Word) (h : regAddr p off ≠ regAddr p' off') :
    (c.wr p off v).fld p' off' lo w = c.fld p' off' lo w := by
  simp [Chip.fld, c.rd_wr_ne _ _ _ _ _ h]

theorem Chip.rd_setFld_ne (c : Chip) (p off lo w x p' off' : Nat) (h : regAddr p off ≠ regAddr p' off') :
    (c.setFld p off lo w x).rd p' off' = c.rd p' off' := c.rd_wr_ne _ _ _ _ _ h

theorem Chip.fld_setFld_ne (c : Chip) (p off lo w x p' off' lo' w' : Nat) (h : regAddr p off ≠ regAddr p' off') :
    (c.setFld p off lo w x).fld p' off' lo' w' = c.fld p' off' lo' w' := c.fld_wr_ne _ _ _ _ _ _ _ h

theorem Chip.rd_setFld_toNat (c : Chip) (p off lo w x : Nat) (h : lo + w ≤ 32) :
    ((c.setFld p off lo w x).rd p off).toNat = putBits (c.rd p off).toNat lo w x := by
  rw [Chip.setFld, Chip.rd_wr_same, word, BitVec.toNat_ofNat, Nat.mod_eq_of_lt (putBits_lt _ _ _ _ 32 (c.rd p off).isLt h)]

/-- The field that was set. -/
theorem Chip.fld_setFld_same (c : Chip) (p off lo w x : Nat) (h : lo + w ≤ 32) :
    (c.setFld p off lo w x).fld p off lo w = x % 2 ^ w := by
  rw [Chip.fld, c.rd_setFld_toNat _ _ _ _ _ h, bits_putBits_same]

/-- Another field of the register of which one was set. -/
theorem Chip.fld_setFld_other (c : Chip) (p off lo w x lo' w' : Nat) (h : lo + w ≤ 32) (hd : lo + w ≤ lo' ∨ lo' + w' ≤ lo) :
    (c.setFld p off lo w x).fld p off lo' w' = c.fld p off lo' w' := by
  rw [Chip.fld, c.rd_setFld_toNat _ _ _ _ _ h, Chip.fld]
  rcases hd with hd | hd
  · exact bits_putBits_above _ _ _ _ _ _ hd
  · exact bits_putBits_below _ _ _ _ _ _ hd

theorem Chip.rd_setBit_ne (c : Chip) (p off b p' off' : Nat) (v : Bool) (h : regAddr p off ≠ regAddr p' off') :
    (c.setBit p off b v).rd p' off' = c.rd p' off' := c.rd_wr_ne _ _ _ _ _ h

/-- The bit that was set. -/
theorem Chip.bit_setBit_same (c : Chip) (p off b : Nat) (v : Bool) (h : b < 32) : (c.setBit p off b v).bit p off b = v := by
  rw [Chip.bit, Chip.setBit, c.fld_setFld_same _ _ _ _ _ (by omega)]
  cases v <;> rfl

/-- Another bit of the register of which one was set. -/
theorem Chip.bit_setBit_other (c : Chip) (p off b b' : Nat) (v : Bool) (h : b < 32) (hb : b ≠ b') :
    (c.setBit p off b v).bit p off b' = c.bit p off b' := by
  rw [Chip.bit, Chip.setBit, c.fld_setFld_other _ _ _ _ _ _ _ (by omega) (by omega), Chip.bit]

theorem Chip.bit_setBit_ne (c : Chip) (p off b p' off' b' : Nat) (v : Bool) (h : regAddr p off ≠ regAddr p' off') :
    (c.setBit p off b v).bit p' off' b' = c.bit p' off' b' := by
  rw [Chip.bit, Chip.setBit, c.fld_setFld_ne _ _ _ _ _ _ _ _ _ h, Chip.bit]

/-! Counters and interrupt causes. -/

@[simp] theorem Chip.rd_count_same (c : Chip) (p off n : Nat) : (c.count p off n).rd p off = c.rd p off + word n := by
  simp [Chip.count]

theorem Chip.rd_count_ne (c : Chip) (p off n p' off' : Nat) (h : regAddr p off ≠ regAddr p' off') :
    (c.count p off n).rd p' off' = c.rd p' off' := c.rd_wr_ne _ _ _ _ _ h

@[simp] theorem Chip.rd_raise_same (c : Chip) (p b : Nat) : (c.raise p b).rd p 0x014 = c.rd p 0x014 ||| word (2 ^ b) := by
  simp [Chip.raise, Chip.raiseMask]

theorem Chip.rd_raise_ne (c : Chip) (p b p' off' : Nat) (h : regAddr p 0x014 ≠ regAddr p' off') :
    (c.raise p b).rd p' off' = c.rd p' off' := c.rd_wr_ne _ _ _ _ _ h

/-! The check of a register write. -/

/-- Every end of the check but a pass changes at most the journal and the error registers of a page: never memory, time or any
engine. -/
theorem Chip.gated_pass (c : Chip) (req : Requester) (p off : Nat) (f : Chip → Chip) (h : c.gate req (regAddr p off) .b4 = .pass) :
    c.gated req p off f = f c := by
  simp [Chip.gated, h]

end Sys2Proof.Machine
end

