-- ==== Sys2Proof/Laws/Work.lean ====
section
/-! SUPPORT. The computations of commands that touch memory: what each of their small steps does to the work in hand. -/

namespace Sys2Proof.Machine

/-! One step after another. -/

@[simp] theorem WM.bind_apply {α β : Type} (m : WM α) (k : α → WM β) (w : Work) : (m >>= k) w = k (m w).1 (m w).2 := rfl
@[simp] theorem WM.pure_apply {α : Type} (a : α) (w : Work) : (pure a : WM α) w = (a, w) := rfl
@[simp] theorem WM.map_apply {α β : Type} (f : α → β) (m : WM α) (w : Work) : (f <$> m) w = (f (m w).1, (m w).2) := rfl
@[simp] theorem WM.get_apply (w : Work) : (get : WM Work) w = (w, w) := rfl
@[simp] theorem WM.modify_apply (f : Work → Work) (w : Work) : (modify f : WM PUnit) w = (⟨⟩, f w) := rfl
@[simp] theorem chipM_apply (f : Chip → Chip) (w : Work) : chipM f w = ((), { w with chip := f w.chip }) := rfl
@[simp] theorem getChip_apply (w : Work) : getChip w = (w.chip, w) := rfl
@[simp] theorem emit_apply (op : MemOp) (w : Work) : emit op w = ((), { w with mem := w.mem.apply op, ops := op :: w.ops }) := rfl
@[simp] theorem drawM_apply (w : Work) : drawM w = (w.chip.draw.1, { w with chip := w.chip.draw.2 }) := rfl

/-! A whole command. -/

theorem State.onMem_eq (s : State) (m : WM Unit) :
    s.onMem m = .next (s.onWork fun w => (m w).2) := rfl

/-- A computation that only changes the chip is a command that only changes the chip. -/
@[simp] theorem State.onMem_chipM (s : State) (f : Chip → Chip) : s.onMem (chipM f) = .next (s.onChip f) := rfl

@[simp] theorem State.onMem_pure (s : State) : s.onMem (pure ()) = .next (s.onChip id) := rfl

@[simp] theorem State.onMem_getChip (s : State) (k : Chip → WM Unit) : s.onMem (getChip >>= k) = s.onMem (k s.chip) := rfl

theorem State.onMem_chipM_bind (s : State) (f g : Chip → Chip) :
    s.onMem (do chipM f; chipM g) = .next (s.onChip fun c => g (f c)) := rfl

/-- A computation whose effect on the work in hand is a change of the chip alone. -/
theorem State.onMem_of_chip (s : State) (m : WM Unit) (f : Chip → Chip)
    (h : (m { chip := s.chip, mem := s.mem, fuses := s.fuses, ops := [] }).2 =
      { chip := f s.chip, mem := s.mem, fuses := s.fuses, ops := [] }) : s.onMem m = .next (s.onChip f) := by
  simp [State.onMem, State.onWork, Work.run, h, State.onChip, Memory.applyAll]

/-- Two changes of the chip that agree on this chip are one command. -/
theorem State.onChip_congr (s : State) (f g : Chip → Chip) (h : f s.chip = g s.chip) : s.onChip f = s.onChip g := by
  simp [State.onChip, h]

/-! The checks of a register write. -/

theorem State.onChip_gated (s : State) (req : Requester) (p off : Nat) (f : Chip → Chip) (h : s.passes req p off) :
    s.onChip (fun c => c.gated req p off f) = s.onChip f :=
  s.onChip_congr _ _ (Chip.gated_pass _ _ _ _ _ h)

theorem State.onMem_gated (s : State) (req : Requester) (p off : Nat) (m : WM Unit) (h : s.passes req p off) :
    s.onMem (gatedM req p off m) = s.onMem m := by
  have h : s.chip.gate req (regAddr p off) .b4 = .pass := h
  simp [gatedM, State.onMem_eq, State.onWork, h]

end Sys2Proof.Machine
end

