-- ==== Sys2Proof/Tests/Slice0.lean ====
section
/-! SUPPORT. Tests of the model: what WellFormed refuses, small facts with their expected results taken from the spec's own tables,
and for every statement with hypotheses a theorem (named wit_ and the statement) that shows states and operands that meet them. -/
namespace Sys2Proof.Tests
open Sys2Proof.Machine
set_option Elab.async false
/-- The state after reset with the chip changed, and with registers (page, offset, value) written. -/
def chipSt (f : Chip → Chip) : State := { State.reset with chip := f State.reset.chip }
def regs (l : List (Nat × Nat × Nat)) (c : Chip) : Chip := l.foldl (fun c r => c.wr r.1 r.2.1 (word r.2.2)) c
def regSt (l : List (Nat × Nat × Nat)) : State := chipSt (regs l)
/-- What a command leaves, as an option, and the state after it. -/
def out (i : Instr) (s : State) : State := match exec i s with
  | .next t => t
  | _ => s
/-- A computation that answers a value leaves some work behind, and what holds of that. -/
theorem runs {α β : Type} {x : α × β} {a : α} (h : x.1 = a) : ∃ w, x = (a, w) := ⟨x.2, Prod.ext h rfl⟩
theorem runsWith {α β : Type} {x : α × β} {a : α} {P : β → Prop} (h : x.1 = a) (hp : P x.2) : ∃ w, x = (a, w) ∧ P w :=
  ⟨x.2, Prod.ext h rfl, hp⟩
/-- Sample operands. -/
def sense (temps : List (BitVec 16)) : LoopSense := { marginPs := 100, vsenseMv := 750, pkgMw := 20000, temps := temps }
def hdr (vc seq ack : Nat) : FlitHdr :=
  { vc := BitVec.ofNat 3 vc, seq := BitVec.ofNat 10 seq, ack := BitVec.ofNat 10 ack, cvc := 0, ccnt := 0 }
def pieceMsg (origin extent : List (BitVec 32)) : PieceHeadMsg :=
  { tid := 0, piece := 0, destEvt := 0, srcPos := 0, dstPos := 0, etype := 2, ndim := 1, origin := origin, extent := extent,
    vdim := 0, epoch := 0, xferId := 0, nData := 1 }

/-! WellFormed. -/
theorem test_linkUp_ill : (Instr.linkUp 3 1).wellFormed = false ∧ (Instr.linkUp 1 5).wellFormed = false := by decide
theorem test_linkUp_well : (Instr.linkUp 4 4).wellFormed = true := by decide
theorem test_loopPeriod_ill : (Instr.loopPeriod (sense [40])).wellFormed = false := by decide
theorem test_pieceHead_ill : (Instr.pieceHead 0 (hdr 1 0 0) (pieceMsg [0] [1])).wellFormed = false := by decide
theorem test_pieceHead_well : (Instr.pieceHead 0 (hdr 1 0 0) (pieceMsg [0, 0, 0, 0, 0] [1, 1, 1, 1, 1])).wellFormed = true := by
  decide
theorem test_ill_formed_stops : step { State.reset with pending := [.linkUp 3 1] } = .fault .illFormed := rfl
theorem test_idle_is_a_tick : step State.reset = .next State.reset.idle := rfl
theorem test_no_words : decodeTableWord 0 0 = none ∧ decodeTableWord 32 5 = none := by decide

/-! The machine as a whole. -/
theorem wit_StepRunsFrontCommand : (Instr.nop 0).wellFormed = true := by decide
theorem wit_StepWithoutCommand : (Instr.linkUp 3 1).wellFormed = false := by decide
theorem wit_QueueIsFirstInFirstOut :
    step { State.reset with pending := [.nop 0, .stop 0] } = .next { State.reset with pending := [.stop 0] } := rfl
theorem wit_WellFormedOperands : (Instr.loopPeriod (sense [40])).wellFormed = false := by decide
theorem wit_OnlyMailboxProgramsFuses :
    (∀ b, Instr.nop 0 ≠ .arbCommit b) ∧ (∀ b, Instr.nop 0 ≠ .keyRevoke b) ∧ exec (.nop 0) State.reset = .next State.reset :=
  ⟨fun _ => by simp, fun _ => by simp, rfl⟩
/-- A store of a core is a step from a canonical memory to another one. -/
theorem wit_MemoryStaysCanonical :
    let s := { regSt [(0x070, 0x00C, 1), (0x070, 0x044, 2048)] with pending := [.coreAccess .sac .store 0x10000000 .b1 5] }
    s.mem.wf = true ∧ ∃ t, step s = .next t ∧ t.mem.cells ≠ [] := ⟨rfl, _, rfl, by decide⟩

/-! The register bus. -/
/-- A chip whose page 0x011 is held by the host (owner code 1). -/
def held11 : State := regSt [(0x011, 0x028, 0x01640110)]
/-- Quarantined, and in soft reset. -/
def quar11 : State := regSt [(0x011, 0x028, 0x01640F20)]
def busy11 : State := regSt [(0x011, 0x010, 1)]
theorem wit_RegisterWriteChecks :
    (0x011 : Nat) ≠ 0x008 ∧ pageClass 0x300 = none ∧ pageClass 0x011 ≠ none ∧
    (regSt [(0x002, 0x06C, 2)]).chip.clockStopped 0x011 = true ∧
    (State.reset.chip.clockStopped 0x004 = false ∧ isVrgPage 0x004 = true ∧ isVrgPage 0x011 = false) ∧
    (State.reset.chip.clockStopped 0x011 = false ∧ quar11.chip.leaseState 0x011 = 2 ∧ quar11.chip.clockStopped 0x011 = false) ∧
    (held11.chip.clockStopped 0x011 = false ∧ held11.chip.leaseState 0x011 = 1 ∧ held11.chip.leaseOwner 0x011 ≠ ownerCode .prc0) ∧
    (let c := (chipSt fun c => { c with pwr := { c.pwr with held := true } }).chip;
      c.clockStopped 0x060 = false ∧ isVrgPage 0x060 = false ∧ c.leaseState 0x060 = 0 ∧ c.pwr.held = true ∧ heldBlock 0x060 = true) ∧
    (busy11.chip.leaseState 0x011 = 0 ∧ busy11.chip.pwr.held = false ∧ busy11.chip.resetBusy 0x011 = true ∧
      busy11.chip.clockStopped 0x011 = false) := by decide +kernel
theorem wit_RegisterWriteTakes :
    State.reset.passes .host 0x011 0x030 ∧ State.reset.passes .host 0x011 0x018 ∧ State.reset.passes .host 0x011 0x014 ∧
    State.reset.passes .host 0x011 0x034 ∧
    (State.reset.passes .host 0x071 0x040 ∧ isPlain 0x071 0x040 = true ∧ State.reset.chip.locked 0x071 0x040 = none ∧
      (regRow 0x071 0x040).any (fun r => r.w1s == 0) = true) ∧
    (State.reset.passes .sac 0x002 0x078 ∧ State.reset.passes .sac 0x002 0x07C ∧ pairLo 0x002 0x078 = some true ∧ pairLo 0x002 0x07C = none ∧
      regAddr 0x002 0x078 ≠ regAddr 0x0D0 0x048 ∧ State.reset.chip.lockedPair 0x002 0x07C = none ∧
      aget State.reset.chip.bus.held (reqKey (regAddr 0x002 0x078) .sac) = none) ∧
    pairHi 0x011 0x000 ≠ some true := by decide +kernel
theorem wit_RegisterWriteTakes_held :
    let s := out (.registerWrite .sac 0x002078 .b4 7) State.reset
    s.passes .sac 0x002 0x07C ∧ aget s.chip.bus.held (reqKey 0x002078 .sac) = some 7 :=
  ⟨by unfold State.passes; rfl, by decide +kernel⟩
theorem wit_RegisterWriteTakes_locked :
    let s := regSt [(0x091, 0x110, 1)]
    (s.passes .host 0x091 0x050 ∧ isPlain 0x091 0x050 = true ∧ s.chip.locked 0x091 0x050 ≠ none) ∧
    (s.passes .host 0x091 0x044 ∧ pairLo 0x091 0x040 = some true ∧ pairLo 0x091 0x044 = none ∧ s.chip.lockedPair 0x091 0x044 ≠ none) := by
  decide +kernel
theorem wit_RegisterReads :
    pageClass 0x300 = none ∧ pageClass 0x011 ≠ none ∧ State.reset.chip.clockStopped 0x011 = false ∧ AccSize.b2 ≠ .b8 ∧
    (pairLo 0x011 0x040 ≠ none ∧ pairLo 0x011 0x044 = none ∧ (regAddr 0x011 0x040) % 8 = 0) ∧
    (pairLo 0x011 0x044 = none ∧ pairHi 0x011 0x044 ≠ none) ∧ (pairLo 0x011 0x030 = none ∧ pairHi 0x011 0x030 = none ∧
      pairLo 0x011 0x034 = none ∧ pairHi 0x011 0x034 = none ∧ (regAddr 0x011 0x030) % 8 = 0) ∧
    (regSt [(0x002, 0x06C, 1)]).chip.clockStopped 0x040 = true := by decide +kernel
theorem wit_Snapshots :
    State.reset.passes .host 0x0B0 0x02C ∧ snapMask 0x0B0 = 1 ∧ snapGroupOf 0x0B0 (4 * (20 : Fin 1024)) = some 0 ∧
    bits ((1 : BitVec 8).toNat &&& snapMask 0x0B0) 0 1 = 1 ∧ bits ((0 : BitVec 8).toNat &&& snapMask 0x0B0) 0 1 = 0 ∧
    (out (.snapTake .host 0x0B0 1) State.reset).chip.pwr.held = false := by decide +kernel
theorem wit_SoftResetAndCauses :
    (State.reset.passes .sac 0x000 0x00C ∧ State.reset.chip.resetBusy 0x000 = false ∧ pageClass 0x000 = some .sys) ∧
    (State.reset.passes .host 0x040 0x00C ∧ pageClass 0x040 = some .stall) ∧ (State.reset.passes .host 0x071 0x00C ∧ pageClass 0x071 = some .ecc) ∧
    (busy11.passes .host 0x011 0x00C ∧ busy11.chip.resetBusy 0x011 = true ∧ busy11.chip.resetWaits 0x011 = false) ∧
    (regSt [(0x0B4, 0x010, 1)]).chip.resetBusy 0x0B4 = true ∧ State.reset.chip.resetBusy 0x011 = false ∧
    State.reset.passes .host 0x011 0x01C ∧ State.reset.passes .host 0x011 0x014 := by decide +kernel
/-- A DMA channel that runs keeps its soft reset waiting. -/
theorem wit_SoftResetAndCauses_waits :
    (regSt [(0x091, 0x010, 1), (0x091, 0x00C, 2), (0x091, 0x110, 1)]).chip.resetWaits 0x091 = true := by decide
theorem wit_PageLeases :
    (State.reset.passes .host 0x011 0x028 ∧ isVrgPage 0x011 = false ∧ State.reset.chip.leaseState 0x011 = 0 ∧ (100 : BitVec 8) ≠ 0) ∧
    (held11.passes .host 0x011 0x028 ∧ held11.chip.leaseState 0x011 = 1 ∧ held11.chip.leaseOwner 0x011 = ownerCode .host) ∧
    (held11.passes .prc0 0x011 0x028 ∧ held11.chip.leaseState 0x011 ≠ 0 ∧ held11.chip.holds .prc0 0x011 = false) ∧
    (quar11.passes .host 0x011 0x028 ∧ quar11.chip.leaseState 0x011 ≠ 0 ∧ quar11.chip.holds .host 0x011 = false) ∧
    1 < ((3 : Word).getLsbD 0).toNat + ((3 : Word).getLsbD 1).toNat + ((3 : Word).getLsbD 2).toNat :=
  ⟨⟨rfl, rfl, rfl, by decide⟩, ⟨rfl, rfl, rfl⟩, ⟨rfl, by decide, rfl⟩, ⟨rfl, by decide, rfl⟩, by decide⟩
/-- LEASE fields of R80: ACQUIRE bit 0, STATE 7:4, OWNER 11:8, TIMEOUT_MS 23:16, EPOCH 31:24. -/
theorem test_acquire_word :
    (out (.registerWrite .host 0x011028 .b4 0x00640001) State.reset).chip.rd 0x011 0x028 = 0x01640110 := by decide
theorem test_two_acts_logged :
    (out (.registerWrite .host 0x011028 .b4 0x00640003) State.reset).chip.rd 0x011 0x028 = 0 ∧
    (out (.registerWrite .host 0x011028 .b4 0x00640003) State.reset).chip.rd 0x011 0x020 = 0x10510000 := by decide

/-! Memory and the Rood. -/
/-- Cloister on with its whole capacity, and context 1 on with its tables at 0x11FFE000. -/
def clsChip : Chip :=
  regs [(0x070, 0x00C, 1), (0x070, 0x044, 2048), (0x072, 0x060, 1), (0x072, 0x068, 0x11FFE000), (0x072, 0x300, 1)] State.reset.chip
/-- Tables that map the 2 MiB at 0x10000000 to themselves, readable, writable and executable (R98): level 1 entry 0 points at the
second table, whose entry 128 is the leaf. -/
def tables : List Host.Cell :=
  [(0x11FFE000, 0x03), (0x11FFE001, 0xF0), (0x11FFE002, 0xFF), (0x11FFE003, 0x11), (0x11FFF400, 0x1D), (0x11FFF403, 0x10)]
/-- Cloister with these tables, and with other chips, cells before the tables and marks. -/
def clsSt (f : Chip → Chip := id) (cells : List Host.Cell := []) (marks : List (Nat × Mark) := []) : State :=
  { State.reset with chip := f clsChip, mem := { cells := cells ++ tables, marks := marks } }
/-- A region of Cloister's first row-block in context 1, with handle 0. -/
def region0 : Region := { ctx := 1, base := 0x10000000, size := 16384, r := true, w := true, x := true, skewed := false, pins := [0] }
def withRegion (c : Chip) : Chip := { c with rood := { c.rood with regions := [(0, region0)] } }
theorem test_tables_canonical : (clsSt).mem.wf = true := by decide +kernel
theorem wit_CloisterControl :
    (State.reset.passes .host 0x070 0x00C ∧ State.reset.chip.enabled 0x070 = false) ∧
    ((clsSt).passes .host 0x070 0x00C ∧ (clsSt).chip.enabled 0x070 = true) ∧
    (regSt [(0x070, 0x010, 0x100)]).chip.bit 0x070 0x010 8 = true ∧ State.reset.chip.bit 0x070 0x010 8 = false ∧
    ((clsSt).passes .host 0x070 0x080 ∧ (clsSt withRegion).chip.pinned 0 = true ∧ (clsSt withRegion).chip.pinned 1 = false ∧
      (clsSt withRegion).passes .host 0x070 0x17C) := by decide +kernel
/-- R91 and R114: the enable of Cloister with one bank retired leaves 2048 - 32 row-blocks. -/
theorem test_cls_enable : (out (.clsEnable .host) (regSt [(0x070, 0x040, 0x43)])).chip.fld 0x070 0x044 0 12 = 2016 := by decide +kernel
theorem wit_Lp5xControl :
    (State.reset.passes .host 0x088 0x00C ∧ State.reset.chip.enabled 0x088 = false ∧
      State.reset.chip.memc.lpCfg ≠ some (State.reset.chip.rd 0x088 0x040)) ∧
    (let s := chipSt fun c => { c with memc := { c.memc with lpCfg := some (c.rd 0x088 0x040) } };
      s.passes .host 0x088 0x00C ∧ s.chip.enabled 0x088 = false ∧ s.chip.memc.lpCfg = some (s.chip.rd 0x088 0x040)) ∧
    (let s := chipSt fun c => { regs [(0x088, 0x00C, 1)] c with memc := { c.memc with lpInit := true } };
      s.passes .host 0x088 0x00C ∧ s.chip.enabled 0x088 = true ∧ s.chip.memc.lpInit = true ∧ lpCfgOk (s.chip.rd 0x088 0x040) = true) ∧
    (let s := chipSt fun c => { regs [(0x088, 0x00C, 1), (0x088, 0x040, 0x00)] c with memc := { c.memc with lpInit := true } };
      s.chip.enabled 0x088 = true ∧ s.chip.memc.lpInit = true ∧ lpCfgOk (s.chip.rd 0x088 0x040) = false) := by decide +kernel
theorem wit_MemoryErrors :
    (target 0x10000008 = .cls ∧ (clsSt (regs [(0x071, 0x040, 0)])).chip.scrubbing = false ∧ (clsSt).mark 0x10000008 ≠ some .poison ∧
      (clsSt (marks := [(0x10000008, .poison)])).mark 0x10000008 = some .poison) ∧
    (let s := clsSt (regs [(0x071, 0x040, 2 ^ 31)]) [] [(0x10000208, .poison)];
      s.chip.scrubbing = true ∧ s.chip.memc.scrubRow = 0 ∧ s.chip.scrubRowOf 0x10000208 ≠ 0) ∧
    (let s := clsSt (fun c => { c with memc := { c.memc with pendingWb := [0x10000008] } }) [] [(0x10000008, .ce)];
      s.chip.memc.pendingWb.contains (s.chip.clsCell 0x10000008) = true) ∧
    (clsSt).chip.memc.pendingWb.contains ((clsSt).chip.clsCell 0x10000008) = false ∧
    State.reset.passes .host 0x073 0x114 := by decide +kernel
theorem wit_CoreAccesses :
    (let c := (chipSt fun c => { c with prc := { c.prc with pmp := [(0, 0x98, 0x4000000)] } }).chip;
      c.pmpAllows .sac (AccKind.store == AccKind.store) 0x10000000 8 = false) ∧
    (target 0x10000008 = .cls ∧ 0x10000008 % 8 = 0 ∧ (clsSt).chip.enabled 0x070 = true ∧
      (0x10000008 - clsBase) / 16384 < (clsSt).chip.clsCap ∧ (0x11FFFFF8 - clsBase) / 16384 < (clsSt).chip.clsCap ∧
      (clsSt).chip.pmpAllows .prc0 true 0x10000008 8 = true ∧ (clsSt).chip.pmpAllows .sac false 0x11FFFFF8 8 = true ∧
      (clsSt).mark 0x10000008 = none ∧ (clsSt (marks := [(0x10000008, .poison)])).mark 0x10000008 = some .poison) ∧
    (0x41000000 + 4 ≤ mbWindow ∧ mbWindow - 4 + 4 ≤ mbWindow ∧ (clsSt).chip.pmpAllows .sac true 0x41000000 4 = true ∧
      (clsSt).chip.pmpAllows .sac false 0x41000000 4 = true) ∧
    (target 0x40000000 = .rom ∧ target 0x20000000 = .stall ∧ target 0x4000000000 = .host ∧ target 0x30000000 = .hole ∧
      (clsSt).chip.pmpAllows .sac true 0x30000000 8 = true) ∧
    (pageClass 0x011 ≠ none ∧ State.reset.chip.clockStopped 0x011 = false ∧ pairLo 0x011 0x030 = none ∧ pairHi 0x011 0x030 = none ∧
      State.reset.chip.pmpAllows .sac false 0x011030 4 = true) := by
  decide +kernel
/-- A stored value comes back (R87). -/
theorem test_core_load :
    aget (out (.coreAccess .prc0 .load 0x10000000 .b4 0) (clsSt id [(0x10000000, 7), (0x10000003, 9)])).chip.bus.replies 5 =
      some (.data 0x09000007) := by decide +kernel
theorem wit_Bar2Accesses :
    (∃ w, translate 1 0 0x10000008 (clsSt).work = (.ok 0x10000008, w) ∧ w.markOf 0x10000008 = none) ∧
    (∃ w, translate 1 0 0x10000008 (clsSt id [] [(0x10000008, .poison)]).work = (.ok 0x10000008, w) ∧
      w.markOf 0x10000008 = some .poison) ∧
    (∃ w, translate 1 0 0x10200000 (clsSt).work = (.error 0x03, w)) ∧ (∃ w, translate 1 1 0x10200000 (clsSt).work = (.error 0x03, w)) ∧
    (∃ w, translate 1 1 0x10000008 (clsSt).work = (.ok 0x10000008, w) ∧ w.ops = [] ∧ w.wrote = [] ∧ w.chip.memc = (clsSt).chip.memc ∧
      w.chip.regs = (clsSt).chip.regs ∧ w.chip.cho = (clsSt).chip.cho) :=
  ⟨runsWith (by decide +kernel) (by decide +kernel), runsWith (by decide +kernel) (by decide +kernel), runs (by decide +kernel),
    runs (by decide +kernel), runsWith (by decide +kernel) (by decide +kernel)⟩
theorem wit_ContextsAndRegions :
    State.reset.passes .host 0x072 (ctxOff 0) ∧ State.reset.passes .host 0x072 (ctxOff 15) ∧
    (regSt [(0x072, 0x040, 2)]).chip.bit 0x072 (ctxOff 0) 1 = true ∧ State.reset.chip.bit 0x072 (ctxOff 0) 1 = false ∧
    (State.reset.passes .host 0x073 0x054 ∧ State.reset.chip.bit 0x073 0x058 31 = false) ∧
    ((regSt [(0x073, 0x058, 2 ^ 31)]).passes .host 0x073 0x054 ∧ (regSt [(0x073, 0x058, 2 ^ 31)]).chip.bit 0x073 0x058 31 = true) ∧
    State.reset.chip.rood.cmd = none ∧ freeHandle (clsSt).chip.rood.regions = some 0 ∧
    (let s := clsSt fun c => { c with rood := { c.rood with cmd := some (.register 0x10000000 0x4000 0x71) } };
      s.chip.rood.cmd = some (.register 0x10000000 0x4000 0x71)) ∧
    (let s := clsSt fun c => { withRegion c with rood := { (withRegion c).rood with cmd := some (.free 0) } };
      s.chip.rood.cmd = some (.free 0) ∧ aget s.chip.rood.regions 0 ≠ none ∧ (s.chip.desc.slots.any fun d => d.2.names 0) = false) ∧
    (aget (clsSt).chip.rood.regions 0 = none) := by decide +kernel
theorem wit_ContextsAndRegions_checks :
    (∃ r w, rgnCheck 0x10000000 0x4000 0x71 (clsSt).work = ((0, some r), w)) ∧
    (∃ w, rgnCheck 0x10000000 0 0x71 (clsSt).work = ((0x02, none), w)) :=
  ⟨⟨region0, runs (by decide +kernel)⟩, runs (by decide +kernel)⟩

/-! Descriptors and queues. -/
/-- The eight words of a dense descriptor over region 0, readable and writable (R130). -/
def dsc (base type : Nat) (sizes : List Nat) : List DWord :=
  let m := fun k => sizes.getD k 1 - 1
  let stride := fun k => if k < sizes.length then (if k = 0 then 1 else (sizes.getD 0 1 + 31) / 32 * (if k = 2 then sizes.getD 1 1 else 1)) else 0
  [BitVec.ofNat 64 (base + type * 2 ^ 40 + sizes.length * 2 ^ 44 + 3 * 2 ^ 51), 0, BitVec.ofNat 64 (m 0 + m 1 * 2 ^ 20 + m 2 * 2 ^ 40), 0,
    BitVec.ofNat 64 (stride 0 + stride 1 * 2 ^ 32), BitVec.ofNat 64 (stride 2), 0, 0]
/-- Two vectors of UINT8, one of INT16 and views of the same memory with a second dimension. -/
def srcA : List DWord := dsc 0x10000100 2 [2]
def dstB : List DWord := dsc 0x10000200 2 [2]
def idxC : List DWord := dsc 0x10000400 3 [2]
def listD : List DWord := dsc 0x10000400 6 [1, 1]
def srcE : List DWord := dsc 0x10000100 2 [2, 1]
def dstF : List DWord := dsc 0x10000200 2 [2, 1]
/-- A DESC command in progress, and stored descriptors of the host (owner code 1). -/
def descSt (op handle : Nat) (qw : List DWord) (owner : Nat) (slots : List (Nat × DescSlot)) : State :=
  let k : DescCmd := .mk op handle (qw.flatMap fun w => [word w.toNat, word (w.toNat / 2 ^ 32)]) owner
  clsSt fun c => { withRegion c with desc := { slots := slots, cmd := some k } }
def slotA : DescSlot := { qw := srcA, owner := 1 }
theorem wit_DescriptorCommands :
    (State.reset.passes .host 0x073 0x244 ∧ State.reset.chip.bit 0x073 0x248 31 = false) ∧
    ((regSt [(0x073, 0x248, 2 ^ 31)]).passes .host 0x073 0x244 ∧ (regSt [(0x073, 0x248, 2 ^ 31)]).chip.bit 0x073 0x248 31 = true) ∧
    State.reset.chip.desc.cmd = none ∧ (descSt 0 0x1001 srcA 1 []).chip.desc.cmd ≠ none ∧
    (descSt 0 0x1001 srcA 1 []).chip.createCheck 0x1001 srcA = 0 ∧ (descSt 0 0x1000 srcA 1 []).chip.createCheck 0x1000 srcA ≠ 0 ∧
    aget (descSt 1 0x1001 [] 1 []).chip.desc.slots 0x1001 = none ∧
    (0x1001 % 4096 ≠ 0 ∧ aget (descSt 1 0x1001 [] 1 [(0x1001, slotA)]).chip.desc.slots 0x1001 = some slotA ∧
      (descSt 1 0x1001 [] 1 [(0x1001, slotA)]).chip.descQuarantined 0x1001 = false ∧ 3 ≠ slotA.owner ∧ slotA.poison = false ∧
      aget (descSt 2 0x1001 [] 1 [(0x1001, { slotA with poison := true })]).chip.desc.slots 0x1001 =
        some { slotA with poison := true }) := by decide +kernel
/-- R132: the code of a type that is not allowed, and of a base that is no multiple of the vector. -/
theorem test_create_codes :
    (descSt 0 0x1001 [] 1 []).chip.createCheck 0x1001 (dsc 0x10000100 7 [32]) = 0x05 ∧
    (descSt 0 0x1001 [] 1 []).chip.createCheck 0x1001 (dsc 0x10000110 2 [32]) = 0x0B ∧
    (descSt 0 0x1001 [] 1 []).chip.createCheck 0x1001 (dsc 0x10004000 2 [32]) = 0x0F := by decide +kernel
theorem wit_LanesReadBackAsStored :
    (List.replicate 32 (-8 : Int)).length = 32 ∧ (∀ x ∈ List.replicate 32 (-8 : Int), typeMin 0 ≤ x ∧ x ≤ typeMax 0) ∧
    ∀ x ∈ List.replicate 32 (65535 : Int), 0 ≤ x ∧ x < 65536 := by decide +kernel
theorem wit_LosslessCodeIsLossless :
    let d := { Desc.ofWords srcA with comp := 1 };
    d.type < 7 ∧ d.type ≠ 0 ∧ d.comp = 1 ∧ ∀ x ∈ List.replicate 32 (255 : Int), typeMin d.type ≤ x ∧ x ≤ typeMax d.type := by
  decide +kernel
/-- R127 with INT8 lanes 200 and -3: the least E under which 200 fits is 1. -/
theorem wit_BlockScaleIsLeast : deriveScale 1 [200, -3] = 1 ∧ deriveScale 1 [200, -3] < 31 ∧ deriveScale 1 [2 ^ 60] = 31 := by
  decide +kernel
/-- A queue of the Choir's first group (whose one slot is slot 0) and of the PYR, with their rings at 0x10001000, in context 1. -/
def qRegs (q state tail : Nat) (on : Bool) : Chip → Chip :=
  regs [(pgQ q, 0x040, 0x10001000), (pgQ q, 0x048, 4), (pgQ q, 0x04C, 1), (pgQ q, 0x05C, tail), (pgQ q, 0x060, state),
    (pgQ q, 0x00C, on.toNat), (0x030, 0x00C, 1), (0x060, 0x060, 0x10000)]
/-- A command in progress. -/
def cmdOf (w0 w1 w2 w3 : Nat) (descs : List (Option (List DWord)) := []) : Running :=
  { count := 0, cw := [BitVec.ofNat 64 w0, BitVec.ofNat 64 w1, BitVec.ofNat 64 w2, BitVec.ofNat 64 w3], descs := descs }
def runSt (q state : Nat) (r : Running) (cells : List Host.Cell := []) (marks : List (Nat × Mark) := []) : State :=
  clsSt (fun c => (qRegs q state 1 true (withRegion c)).setRunning q (some r)) cells marks
def nop0 : Running := cmdOf 0 0 0 0
/-- A WAIT for counter 5 to reach 3, with a timeout of 9 us. -/
def wait3 : Running := { cmdOf (1 + 5 * 2 ^ 32) 3 9 0 with executed := true }
theorem wit_QueuePages :
    (State.reset.passes .host (pgQ 0) 0x05C ∧ State.reset.passes .host (pgQ 127) 0x05C) ∧
    (let c := (clsSt (qRegs 0 0 0 true)).chip;
      ((c.qtail 0 - c.qhead 0).toNat ≤ ((1 : Word) - c.qhead 0).toNat ∧ ((1 : Word) - c.qhead 0).toNat ≤ c.qslots 0) ∧
      ¬ ((-1 : Word) - c.qhead 0).toNat ≤ c.qslots 0) ∧
    (1024 ≤ (1024 : BitVec 16).toNat ∧ (1020 : BitVec 16).toNat % 8 ≠ 0 ∧ (1016 : BitVec 16).toNat % 8 = 0 ∧ (1016 : BitVec 16).toNat < 1024) ∧
    (State.reset.passes .host (pgQ 0) 0x064 ∧ (clsSt (qRegs 0 3 0 true)).passes .host (pgQ 0) 0x064 ∧
      (clsSt (qRegs 0 3 0 true)).chip.qstate 0 = qError ∧ State.reset.chip.qstate 0 ≠ qError) ∧
    (State.reset.passes .host (pgQ 0) 0x00C ∧ State.reset.chip.qstate 0 = qStopped ∧ State.reset.chip.enabled (pgQ 0) = false) ∧
    (let s := clsSt (qRegs 0 1 0 true);
      s.passes .host (pgQ 0) 0x00C ∧ s.chip.qstate 0 = qRunning ∧ s.chip.enabled (pgQ 0) = true ∧ s.chip.running 0 = none) ∧
    ((clsSt (qRegs 0 3 0 true)).passes .host (pgQ 0) 0x00C ∧ (clsSt (qRegs 0 3 0 true)).chip.running 0 = none ∧
      (clsSt (qRegs 0 3 0 true)).chip.qstate 0 ≠ qRunning) ∧
    ((runSt 0 2 wait3).passes .host (pgQ 0) 0x00C ∧ (runSt 0 2 wait3).chip.running 0 = some wait3 ∧ wait3.op = 0x01 ∧ wait3.finished = false ∧
      (runSt 0 2 wait3).chip.enabled (pgQ 0) = true) ∧
    ((runSt 0 1 nop0).passes .host (pgQ 0) 0x00C ∧ (runSt 0 1 nop0).chip.running 0 = some nop0 ∧ nop0.op ≠ 0x01) := by decide +kernel
/-- A NOP, and a COPY whose handles name nothing, at the head of PYR's first queue. -/
def fetchSt (cells : List Host.Cell) : State := clsSt (qRegs 64 1 1 true) cells
/-- What the fetch reads of the slot at the head of queue 64, and the command it makes of it. -/
def fetchRead (s : State) : Except Nat (List (Option Byte)) × Work :=
  (readVaAs 0x2E (s.chip.qctx 64) (s.chip.unitSrc .pyr) 2 (s.chip.rd64 (pgQ 64) 0x040 + 32 * ((s.chip.qhead 64).toNat % s.chip.qslots 64)) 32).run
    { s.work with chip := { s.chip with queues := { s.chip.queues with last := aput s.chip.queues.last (unitNum .pyr) 64 } } }
def fetchOk (s : State) (bs : List (Option Byte)) : Bool := match (fetchRead s).1 with
  | .ok l => l == bs
  | .error _ => false
def fetchErr (s : State) : Nat := match (fetchRead s).1 with
  | .ok _ => 0
  | .error e => e
theorem wit_CommandFetch :
    (State.reset.chip.unitRuns .pyr = false ∧ State.reset.chip.unitFailed .pyr = false) ∧ State.reset.chip.pickQueue .pyr = none ∧
    (let s := fetchSt [];
      s.chip.unitRuns .pyr = true ∧ s.chip.unitFailed .pyr = false ∧ s.chip.pickQueue .pyr = some 64 ∧
      fetchOk s (List.replicate 32 (some 0)) = true ∧ (fetchRead s).2.chip.queues.torn.contains (64, s.chip.qhead 64) = false ∧
      (fetchRead s).2.chip.unitFailed .pyr = false ∧ (fetchRead s).2.chip.startCheck 64 nop0 = .ok [none, none, none, none] ∧
      s.chip.noStall 64 = false) ∧
    (let s := fetchSt [(0x10001000, 0x10)];
      fetchOk s (some 0x10 :: List.replicate 31 (some 0)) = true ∧ (fetchRead s).2.chip.startCheck 64 (cmdOf 0x10 0 0 0) = .error 0x02) := by
  decide +kernel
theorem wit_CommandFetch_fails :
    (let s := { fetchSt [] with mem := { (fetchSt []).mem with marks := [(0x10001008, .poison)] } };
      fetchOk s (List.replicate 8 (some 0) ++ List.replicate 8 none ++ List.replicate 16 (some 0)) = true ∧
      ((List.range 4).mapM fun i =>
        leNat (((List.replicate 8 (some 0) ++ List.replicate 8 none ++ List.replicate 16 (some (0 : Byte))).drop (8 * i)).take 8)) = none) ∧
    (let s := clsSt (fun c => (qRegs 64 1 1 true c).wr 0x072 (ctxOff 1) 0); s.chip.pickQueue .pyr = some 64 ∧ fetchErr s = 0x2E) ∧
    (let s := clsSt (fun c => (qRegs 64 1 1 true c).wr 0x005 0x060 0x1FF);
      s.chip.unitFailed .pyr = true ∧ s.chip.pickQueue .pyr = some 64 ∧ (fetchRead s).2.chip.unitFailed .pyr = true) ∧
    (let s := clsSt fun c => let d := qRegs 64 1 1 true c; { d with queues := { d.queues with torn := [(64, 0)] } };
      s.chip.pickQueue .pyr = some 64 ∧ (fetchRead s).2.chip.queues.torn.contains (64, s.chip.qhead 64) = true) ∧
    (let s := clsSt fun c => (qRegs 0 1 1 true c).wr 0x060 0x060 0;
      s.chip.unitRuns (.cho 0) = true ∧ s.chip.pickQueue (.cho 0) = some 0 ∧ nop0.op < 4 ∧ s.chip.noStall 0 = true) := by
  decide +kernel
/-- With the clocks stopped by a junction trip. -/
def trippedSt (s : State) : State := { s with chip := regs [(0x002, 0x050, 0x01000000)] s.chip }
theorem wit_WaitingCommands :
    ((runSt 0 1 nop0).fetched 0 0x00 nop0 ∧ (runSt 0 1 nop0).chip.tripped = false ∧ (runSt 0 1 (cmdOf 3 0 0 0)).fetched 0 0x03 (cmdOf 3 0 0 0)) ∧
    (let w := { wait3 with executed := false }; let s := runSt 0 1 w;
      s.fetched 0 0x01 w ∧ s.chip.evt (bits w.param 0 8) < w.w 1 ∧
      w.w 1 ≤ (regs [(0x011, 0x040 + 8 * 5, 3)] s.chip).evt (bits w.param 0 8)) ∧
    (trippedSt (runSt 0 1 nop0)).chip.tripped = true ∧
    ((runSt 0 2 wait3).chip.waiting 0 = some wait3 ∧ (runSt 0 2 wait3).chip.evt (bits wait3.param 0 8) < wait3.w 1 ∧
      bits (wait3.w 2) 0 32 ≠ 0) ∧
    (let s := { (runSt 0 2 wait3) with chip := regs [(0x011, 0x040 + 8 * 5, 3)] (runSt 0 2 wait3).chip };
      s.chip.waiting 0 = some wait3 ∧ wait3.w 1 ≤ s.chip.evt (bits wait3.param 0 8) ∧ s.chip.posted 0 wait3.count = false ∧
      s.chip.tripped = false) := by decide +kernel
theorem wit_SignalCounters :
    (let r := cmdOf (2 + (5 + 7 * 2 ^ 16) * 2 ^ 32) 0 0 0;
      ((runSt 0 1 r).fetched 0 0x02 r ∧ (runSt 0 1 r).chip.tripped = false ∧ (runSt 0 1 r).chip.link.xfers = [] ∧
        ((List.range 8).all fun p => bits (bits r.param 8 8) p 1 != 1 || p == (runSt 0 1 r).chip.chPos) = true) ∧
      (let f := { r with executed := true, finished := true };
        (runSt 0 1 f).chip.running 0 = some f ∧ f.op = 0x02 ∧ f.awaiting = [] ∧ f.status = 0 ∧ (runSt 0 1 f).chip.posted 0 f.count = false ∧
        bits f.param 8 8 = 0)) ∧
    State.reset.passes .host 0x011 0x840 ∧
    (held11.chip.clockStopped 0x011 = false ∧ held11.chip.leaseState 0x011 = 1 ∧ held11.chip.leaseOwner 0x011 ≠ ownerCode .prc0) := by
  decide +kernel
/-- R176: EVT_SIG adds INC to EVT_e. -/
theorem test_evt_sig : (out (.evtSig .host 7 5) State.reset).chip.evt 5 = 7 ∧ (out (.evtSig .host 7 5) State.reset).chip.evt 4 = 0 := by
  decide +kernel
theorem wit_CommandRetirement :
    let r := { nop0 with executed := true, finished := true };
    ((trippedSt (runSt 0 1 r)).chip.tripped = true ∧ State.reset.chip.running 0 = none) ∧
    ((runSt 0 1 nop0).chip.running 0 = some nop0 ∧ nop0.finished = false) ∧
    ((runSt 0 1 r).chip.running 0 = some r ∧ (runSt 0 1 r).chip.tripped = false ∧ r.awaiting = [] ∧ (runSt 0 1 r).chip.posted 0 r.count = false ∧
      r.status = 0 ∧ (runSt 0 1 r).chip.signalsHere r = false) ∧
    (let e := { r with status := 0x27 };
      (runSt 0 1 e).chip.running 0 = some e ∧ (runSt 0 1 e).chip.posted 0 e.count = false ∧ e.status ≠ 0) := by decide +kernel
/-- COPY (op 0x10) of the first vector onto the second, with its descriptors. -/
def copy0 : Running := cmdOf 0x10 0x10021001 0 0 [some srcA, some dstB, none, none]
def gather0 : Running := cmdOf 0x11 0 0 0 [some srcA, some idxC, some dstB, none]
def scatter0 : Running := cmdOf 0x12 0 0 0 [some srcA, some idxC, some dstB, none]
def bgather0 : Running := cmdOf 0x13 0 0 0 [some srcA, some listD, some dstF, none]
def bscatter0 : Running := cmdOf 0x14 0 0 0 [some srcE, some listD, some dstB, none]
def bodyOk (body : Nat → Running → EM Stats) (q : Nat) (r : Running) (cells : List Host.Cell := []) : Option Stats :=
  match (runBody q (body q) r).run (runSt q 1 r cells).work with
  | (.ok st, _) => some st
  | (.error _, _) => none
def bodyErr (body : Nat → Running → EM Stats) (q : Nat) (r : Running) : Nat :=
  match (runBody q (body q) r).run (runSt q 1 r).work with
  | (.ok _, _) => 0
  | (.error e, _) => e
/-- Every bank lock held, and scatters that add into Cloister. -/
def lockedSt (r : Running) : State :=
  let s := runSt 0 1 r
  { s with chip := { s.chip with vrg := { s.chip.vrg with locks := (List.range 64).map fun i => (i, { holder := 0x2E, queue := 64, words := [] }) } } }
theorem wit_MovingCommandsExecute_locks :
    let r := cmdOf (0x12 + 0x10 * 2 ^ 32) 0 0 0 [some srcA, some idxC, some dstB, none]
    let b := cmdOf (0x14 + 0x10 * 2 ^ 32) 0 0 0 [some srcE, some listD, some dstB, none]
    (lockedSt r).chip.running 0 = some r ∧ (lockedSt r).chip.freeLock = none ∧ (takesLocks 0 scatterBody r (lockedSt r).work).1 = true ∧
    (lockedSt b).chip.freeLock = none ∧ (takesLocks 0 bscatterBody b (lockedSt b).work).1 = true := by decide +kernel
theorem wit_MovingCommandsExecute :
    ((runSt 0 1 copy0).fetched 0 0x10 copy0 ∧ (runSt 0 1 gather0).fetched 0 0x11 gather0 ∧ (runSt 0 1 bgather0).fetched 0 0x13 bgather0 ∧
      (runSt 0 1 scatter0).fetched 0 0x12 scatter0 ∧ (runSt 0 1 bscatter0).fetched 0 0x14 bscatter0 ∧ (runSt 0 1 copy0).chip.tripped = false) ∧
    (bodyOk copyBody 0 copy0).isSome ∧ (bodyOk gatherBody 0 gather0).isSome ∧ (bodyOk bgatherBody 0 bgather0).isSome ∧
    (bodyOk scatterBody 0 scatter0).isSome ∧ (bodyOk bscatterBody 0 bscatter0).isSome ∧
    (runSt 0 1 scatter0).chip.freeLock.isSome = true := by decide +kernel
theorem wit_MovingCommandsExecute_codes :
    bodyErr copyBody 0 { copy0 with descs := [some srcA, some dstF, none, none] } = 0x16 ∧
    bodyErr copyBody 0 { copy0 with descs := [some (dsc 0x10200000 2 [2]), some dstB, none, none] } = 0x24 ∧
    bodyErr gatherBody 0 { gather0 with descs := [some srcA, some srcA, some dstB, none] } = 0x10 := by decide +kernel
/-- The copy of a vector whose second element is 9. -/
theorem test_copy :
    (out (.copy 0) (runSt 0 1 copy0 [(0x10000101, 9)])).byte 0x10000201 = 9 ∧
    (out (.copy 0) (runSt 0 1 copy0 [(0x10000101, 9)])).byte 0x10000200 = 0 := by decide +kernel

/-! The illumination sequencer and the Narthex. -/
/-- Sequencer 0 with port 0 and strobe 0, code 0 at chip 1, the LIS running, and one of its sequencers in a state. -/
def lisChip (q : SeqState) (c : Chip) : Chip :=
  let c := regs [(0x027, 0x00C, 1), (0x027, 0x080, 0x101), (0x027, 0x0A4, 0x10)] c
  { c with lis := { c.lis with on := true, seqs := [(0, q)] } }
def step0 (trig stb : Nat) : FireStep := { tag := {}, trigOn := 100, trigOff := 200, stbOn := 150, stbOff := 180, trig := trig, stb := stb }
theorem wit_LisControl :
    (State.reset.passes .host 0x027 0x00C ∧ State.reset.chip.enabled 0x027 = false ∧ State.reset.chip.lisCfgBad = false) ∧
    (let s := regSt [(0x027, 0x080, 0x101), (0x027, 0x0C0, 0x101)];
      s.passes .host 0x027 0x00C ∧ s.chip.enabled 0x027 = false ∧ s.chip.lisCfgBad = true) ∧
    ((chipSt (lisChip {})).passes .host 0x027 0x00C ∧ (chipSt (lisChip {})).chip.enabled 0x027 = true) := by decide +kernel
theorem wit_LisFire :
    State.reset.passes .host 0x027 0x040 ∧ State.reset.chip.lisRuns = false ∧
    (let s := chipSt (lisChip { lastFire := some 0 });
      s.passes .host 0x027 0x040 ∧ s.chip.lisRuns = true ∧
      (s.chip.seq 0).lastFire.any (fun t => decide (s.chip.time.now + 60 < t + 4000000)) = true) ∧
    ((chipSt (lisChip { step := some (step0 0 0) })).chip.seq 0).step ≠ none ∧
    (let s := chipSt (lisChip {});
      s.passes .host 0x027 0x040 ∧ s.chip.lisRuns = true ∧ (s.chip.seq 0).step = none ∧
      (s.chip.seq 0).lastFire.all (fun t => decide (t + 4000000 ≤ s.chip.time.now + 20)) = true ∧ s.chip.seqChip 0 ≠ 0 ∧
      (s.chip.seq 0).restartNext = false) ∧
    (let s := chipSt (lisChip { restartNext := true });
      (s.chip.seq 0).step = none ∧ (s.chip.seq 0).restartNext = true ∧ bits (s.chip.seqPorts 0) 0 1 = 1 ∧
      s.chip.bit 0x027 (seqOff 0 0x10) 31 = false) := by decide +kernel
theorem wit_LisEdges :
    (State.reset.chip.seq 0).step = none ∧
    (let s := chipSt fun c => (lisChip { step := some (step0 0 0) } (regs [(0x020, 0x00C, 1), (0x020, 0x040, 2 ^ 24)] c));
      (s.chip.seq 0).step = some (step0 0 0) ∧ bits (s.chip.seqPorts 0) 0 1 = 1 ∧ s.chip.enabled (pgCam 0) = true ∧
      s.chip.bit (pgCam 0) 0x040 24 = true ∧ s.chip.bit (pgCam 0) 0x010 8 = false ∧ (step0 0 0).trig ≠ 1 ∧ (step0 0 0).stb ≠ 1) ∧
    ((chipSt (lisChip { step := some (step0 1 1) })).chip.seq 0).step = some (step0 1 1) ∧ (step0 1 1).trig ≠ 0 ∧ (step0 1 1).stb ≠ 0 ∧
    (bits ((chipSt (lisChip {})).chip.seqStrobes 0) 0 1 = 1 ∧ ∀ m : Fin 4, m < 0 → bits ((chipSt (lisChip {})).chip.seqStrobes m) 0 1 = 0) ∧
    (∀ m : Fin 4, bits ((chipSt (lisChip {})).chip.seqStrobes m) 7 1 = 0) := by decide +kernel
/-- R192: code 0 of length 4 has the pattern 1100, chip 0 first. -/
theorem test_code0 : (List.range 4).map (codeLit 0) = [true, true, false, false] := by decide
/-- A frame of two pixels and two lines of port 0, in-line (mode 0) or through memory, and its capture. -/
def frame0 (mode : Nat) : Frame :=
  { port := 0, num := 0, tag := {}, time := 0, ctx := 1, w := 2, h := 2, depth := 8, cfa := 0, ctl := 0, black := [0, 0, 0, 0],
    thresh := 0, defMap := 0, shadeMap := 0, sharp := 0, satLevel := 0xFFFF, mode := mode, stripe := 0 }
def cap0 (mode counted : Nat) : Capture := { frame := frame0 mode, lines := counted, counted := counted }
def camSt (f : NtxPort → NtxPort) (l : List (Nat × Nat × Nat) := []) : State :=
  clsSt fun c => let d := regs ([(0x020, 0x00C, 1), (0x020, 0x040, 1), (0x020, 0x044, 0x100010)] ++ l) c; d.setNtxPort 0 (f (d.ntxPort 0))
def line2 : CapLine := { samples := [(1, true), (2, true)], blankBefore := 8, glitchAt := none, fullAt := none }
theorem wit_CameraPorts :
    (let s := clsSt (regs [(0x020, 0x040, 1), (0x020, 0x044, 0x100010)]);
      s.passes .host (pgCam 0) 0x00C ∧ s.chip.enabled (pgCam 0) = false ∧ s.chip.camCheck 0 = 0) ∧
    (State.reset.passes .host (pgCam 3) 0x00C ∧ State.reset.chip.enabled (pgCam 3) = false ∧ State.reset.chip.camCheck 3 ≠ 0) ∧
    ((camSt id).passes .host (pgCam 0) 0x00C ∧ (camSt id).chip.enabled (pgCam 0) = true) ∧
    (State.reset.passes .host (pgCam 0) 0x058 ∧ State.reset.chip.seqOfPort 0 = none) ∧
    ((chipSt (lisChip {})).passes .host (pgCam 0) 0x058 ∧ (chipSt (lisChip {})).chip.seqOfPort 0 ≠ none) ∧
    (((camSt id).chip.ntxPort 0).swTrig = none ∧ ((camSt fun x => { x with swTrig := some 1000 }).chip.ntxPort 0).swTrig = some 1000) ∧
    ((camSt id).chip.ntxPort 0).tags = [] ∧ ((camSt fun x => { x with tags := [({}, 5)] }).chip.ntxPort 0).tags = [({}, 5)] := by
  decide +kernel
/-- R214: frames narrower than 16 pixels fail check 3. -/
theorem test_camCheck_size : (clsSt (regs [(0x020, 0x040, 1), (0x020, 0x044, 0x10000E)])).chip.camCheck 0 = 3 := by decide +kernel
/-- The frame that a port starts next, and a frame without taps, statistics or one before it in the pipeline. -/
def nextFrame (s : State) (p : Nat) : Frame :=
  let x := s.chip.ntxPort p
  s.chip.newFrame p x.next s.chip.time.tb.toNat
    (if s.chip.bit (pgCam p) 0x040 24 then (x.tags.head?.map Prod.fst).getD {} else {})
def plainFrame (s : State) (p : Nat) (g : Frame) : Bool :=
  decide (g.taps = []) && !s.chip.bit 0x025 (0x088 + 0x20 * p) 31 && decide ((s.chip.ntxPort p).errs = []) &&
    !((s.chip.inPipe p).any fun h => !h.is g && h.before g)
theorem wit_Captures_start :
    (State.reset.chip.camRuns 0 = false ∧ ((camSt fun x => { x with cap := some (cap0 0 0) }).chip.ntxPort 0).cap ≠ none) ∧
    (let s := camSt id; let x := s.chip.ntxPort 0;
      s.chip.camRuns 0 = true ∧ x.cap = none ∧ x.tags.all (fun t => decide (s.chip.time.now ≤ s.chip.windowEnd 0 t.2)) = true ∧
      s.chip.bit (pgCam 0) 0x040 24 = false ∧ (nextFrame s 0).mode = 0 ∧ plainFrame s 0 (nextFrame s 0) = true) ∧
    (let s := camSt id [(0x020, 0x040, 0x01000001)]; let x := s.chip.ntxPort 0;
      s.chip.camRuns 0 = true ∧ x.cap = none ∧ s.chip.bit (pgCam 0) 0x040 24 = true ∧ x.tags = [] ∧ (nextFrame s 0).mode = 0 ∧
      plainFrame s 0 (nextFrame s 0) = true) ∧
    (let s := camSt (fun x => { x with tags := [({}, 5)] }) [(0x020, 0x040, 0x01000001)]; let x := s.chip.ntxPort 0;
      s.chip.camRuns 0 = true ∧ x.cap = none ∧ x.tags.all (fun t => decide (s.chip.time.now ≤ s.chip.windowEnd 0 t.2)) = true ∧
      s.chip.bit (pgCam 0) 0x040 24 = true ∧ x.tags ≠ []) := by decide +kernel
theorem wit_Captures_lines :
    (((camSt fun x => { x with cap := some { cap0 0 0 with ended := true } }).chip.ntxPort 0).cap.any fun k => k.ended) = true ∧
    (let s := camSt fun x => { x with cap := some (cap0 0 0) };
      (s.chip.ntxPort 0).cap = some (cap0 0 0) ∧ (cap0 0 0).ended = false ∧ s.chip.tripped = false ∧
      firstError (s.chip.lineErrors (cap0 0 0) line2) = 0 ∧ (cap0 0 0).frame.mode = 0 ∧ (cap0 0 0).frame.vstart ≤ (cap0 0 0).lines) ∧
    (let k := { cap0 0 0 with frame := { frame0 0 with vstart := 3 } }; let s := camSt fun x => { x with cap := some k };
      firstError (s.chip.lineErrors k line2) = 0 ∧ k.lines < k.frame.vstart) ∧
    (let k := { cap0 2 1 with frame := { frame0 2 with stripe := 1, descs := [(4, dsc 0x10000100 2 [2, 2, 2])] } };
      let s := { (camSt fun x => { x with cap := some k }) with chip := withRegion (camSt fun x => { x with cap := some k }).chip };
      firstError (s.chip.lineErrors k line2) = 0 ∧ k.frame.vstart ≤ k.lines ∧ k.frame.mode ≠ 0 ∧
      k.frame.opd 4 (0x2C + 0) ≠ none ∧
      ((k.frame.opd 4 (0x2C + 0)).any fun o =>
        match ((storeLine o (slotOf o k.frame.num) 0 k.counted [some 1, some 2]).run s.work).1 with
        | .ok () => true
        | .error _ => false) = true) := by decide +kernel
theorem wit_Captures_ends :
    (let s := camSt fun x => { x with cap := some (cap0 1 2) };
      (s.chip.ntxPort 0).cap = some (cap0 1 2) ∧ (cap0 1 2).ended = false ∧ (cap0 1 2).frame.h ≤ (cap0 1 2).counted ∧
      (cap0 1 2).frame.mode ≠ 0 ∧ (cap0 1 2).frame.mode ≠ 2) ∧
    (let s := camSt fun x => { x with cap := some (cap0 0 2) };
      (s.chip.ntxPort 0).cap = some (cap0 0 2) ∧ s.chip.ntx.inl.all (fun it => !it.frame.is (cap0 0 2).frame || it.waiting != []) = true) ∧
    (let s := camSt fun x => { x with cap := some (cap0 0 1) };
      (cap0 0 1).frame.port = 0 ∧ plainFrame s 0 (cap0 0 1).frame = true ∧ (cap0 0 1).counted < (cap0 0 1).frame.h ∧
      (2001 : BitVec 16).toNat > 2000 ∧
      (let code := firstError (s.chip.lineErrors (cap0 0 1) { line2 with samples := [] }); code ≠ 0 ∧ code < 10)) ∧
    ((camSt id).chip.ntxPort 0).cap = none := by decide +kernel
/-- Pipeline work of a frame: one line of two that waits. -/
def item0 (mode : Nat) : PipeItem := { wholeFrame (frame0 mode) with waiting := [[1, 2]] }
theorem wit_PipelineWork :
    (regSt [(0x024, 0x010, 1)]).chip.pipeHeld = true ∧
    (State.reset.chip.ntx.inl.all (fun it => it.waiting == []) = true ∧ State.reset.chip.ntx.mem = none ∧ State.reset.chip.ntx.ready = []) ∧
    (let s := chipSt fun c => { c with ntx := { c.ntx with inl := [item0 0] } };
      s.chip.pipeHeld = false ∧ s.chip.tripped = false ∧ s.chip.ntx.inl.find? (fun it => it.waiting != []) = some (item0 0) ∧
      (item0 0).waiting = [1, 2] :: [] ∧ (item0 0).closed = false) ∧
    (let it := { item0 0 with pos := 1, closed := true }; let s := chipSt fun c => { c with ntx := { c.ntx with inl := [it] } };
      s.chip.ntx.inl.find? (fun it => it.waiting != []) = some it ∧ it.waiting = [1, 2] :: [] ∧ it.closed = true ∧ it.pos + 1 = it.frame.h) ∧
    (let s := chipSt fun c => { c with ntx := { c.ntx with ready := [item0 1, item0 2] } };
      s.chip.pipeHeld = false ∧ s.chip.ntx.mem = none ∧ s.chip.ntx.ready = item0 1 :: [item0 2] ∧ (item0 1).frame.port = 0 ∧
      (item0 1).frame.mode = 1 ∧ (item0 2).frame.mode = 2) := by decide +kernel
theorem wit_PipelineWork_raw :
    let it := wholeFrame { frame0 1 with descs := [(4, dsc 0x10000100 2 [2, 2, 2])] }
    let s := clsSt fun c => { withRegion c with ntx := { c.ntx with mem := some it } }
    s.chip.pipeHeld = false ∧ s.chip.tripped = false ∧ s.chip.ntx.inl.all (fun it => it.waiting == []) = true ∧ s.chip.ntx.mem = some it ∧
    (∃ w, (loadRaw it.frame it.pos).run s.work = (.ok [some 0, some 0], w)) ∧ it.pos + 1 ≤ it.inHi :=
  ⟨by decide +kernel, by decide +kernel, by decide +kernel, by decide +kernel, runs (by decide +kernel), by decide +kernel⟩

/-! The engines. -/
/-- Operands of the engines, at four places of Cloister. -/
def opA (type : Nat) (sizes : List Nat) : Option (List DWord) := some (dsc 0x10010000 type sizes)
def opB (type : Nat) (sizes : List Nat) : Option (List DWord) := some (dsc 0x10040000 type sizes)
def opC (type : Nat) (sizes : List Nat) : Option (List DWord) := some (dsc 0x10080000 type sizes)
def opD (type : Nat) (sizes : List Nat) : Option (List DWord) := some (dsc 0x100C0000 type sizes)
def build0 : Running := cmdOf 0x80 0 0 0 [opA 2 [15, 15], opB 2 [8, 8], none, none]
def laplace0 : Running := cmdOf 0x81 0 0 0 [opA 2 [15, 15], opB 2 [8, 8], opC 3 [15, 15], none]
def homog0 : Running := cmdOf 0x90 0 0 0 [opA 2 [8, 8], opB 2 [8, 8], opC 6 [9], none]
def mesh0 : Running := cmdOf 0x91 0 0 0 [opA 2 [8, 8], opB 2 [8, 8], opC 6 [9, 9, 2], none]
def flw0 : Running := cmdOf 0xB0 0 0 0 [opA 2 [16, 16], opB 2 [16, 16], none, opD 3 [16, 16, 3]]
def str0 : Running := cmdOf 0xC0 0 0 0 [opA 2 [16, 16], opB 2 [16, 16], none, opD 4 [16, 16]]
def ftr0 : Running := cmdOf (0xA0 + 0x66000 * 2 ^ 32) 0 0 0 [opA 2 [33, 33], opB 6 [16, 2], none, opD 4 [9]]
def dmdOff0 : Running := cmdOf 0xD1 0 0 0 [opA 3 [2, 2], none, opC 4 [2, 2, 4], none]
/-- The first image all poisoned, so that nothing has to be searched. -/
def poisonA : List (Nat × Mark) := (List.range 32).map fun i => (0x10010000 + 32 * (i / 2) + 8 * (i % 2), Mark.poison)
def ranOk (body : Nat → Running → EM Stats) (q : Nat) (r : Running) : Bool :=
  match (runBody q (body q) r).run (runSt q 1 r [] poisonA).work with
  | (.ok _, _) => true
  | (.error _, _) => false
theorem wit_VisionCommandsExecute :
    (runSt 64 1 build0).fetched 64 0x80 build0 ∧ (runSt 64 1 laplace0).fetched 64 0x81 laplace0 ∧ (runSt 72 1 homog0).fetched 72 0x90 homog0 ∧
    (runSt 72 1 mesh0).fetched 72 0x91 mesh0 ∧ (runSt 80 1 ftr0).fetched 80 0xA0 ftr0 ∧ (runSt 88 1 flw0).fetched 88 0xB0 flw0 ∧
    (runSt 96 1 str0).fetched 96 0xC0 str0 ∧ (runSt 108 1 dmdOff0).fetched 108 0xD1 dmdOff0 := by decide +kernel
theorem wit_VisionCommandsExecute_pyr :
    (bodyOk (pyrBuild []) 64 build0).isSome = true ∧ (bodyOk (pyrLaplace []) 64 laplace0).isSome = true := by decide +kernel
theorem wit_VisionCommandsExecute_wrp :
    (bodyOk (wrpHomog []) 72 homog0).isSome = true ∧ (bodyOk (wrpMesh []) 72 mesh0).isSome = true := by decide +kernel
theorem wit_VisionCommandsExecute_ftr : (bodyOk (ftrDetect []) 80 ftr0).isSome = true := by decide +kernel
theorem wit_VisionCommandsExecute_flw : ranOk (flwLevel []) 88 flw0 = true := by decide +kernel
theorem wit_VisionCommandsExecute_str : ranOk (strLevel []) 96 str0 = true := by decide +kernel
theorem wit_VisionCommandsExecute_dmd :
    ((runBody 108 (dmdOffline 108) dmdOff0).run { (runSt 108 1 dmdOff0).work with chip := regs [(0x026, 0x040, 1)] (runSt 108 1 dmdOff0).chip }).1.isOk = true := by
  decide +kernel
theorem wit_VisionCommandsExecute_codes :
    bodyErr (pyrBuild []) 64 { build0 with descs := [opA 2 [14, 15], opB 2 [7, 8], none, none] } = 0x81 ∧
    bodyErr (pyrBuild []) 64 { build0 with descs := [some (dsc 0x10200000 2 [15, 15]), opB 2 [8, 8], none, none] } = 0x24 := by
  decide +kernel
/-- The demodulator of port 0 under sequencer 0, for frames of 2 by 2. -/
def dmdSt (d : DmdPort) (inbox : List SubFrame) (r : Option Running) : State :=
  clsSt fun c =>
    let c := lisChip {} (regs [(0x020, 0x044, 0x20002), (0x026, 0x040, 1), (pgQ 104, 0x04C, 1)] c)
    { (c.setDmdPort 0 d).setRunning 104 r with dmd := { (c.setDmdPort 0 d).dmd with inbox := inbox } }
def period0 : Running := cmdOf 0xD0 0 0 0 [opA 3 [2, 2], opB 6 [2, 2], none, opD 2 [2, 2]]
def sub0 (chip : Nat) (lost marked : Bool) : SubFrame :=
  { port := 0, tag := .mk 0 chip 7 (some 0) 0, num := 3, lost := lost, plane := [[some 1, some 2], [some 3, some 4]],
    marks := [[marked, marked], [marked, marked]] }
def none? {α : Type} : Except Nat (Option α) → Bool
  | .ok none => true
  | _ => false
theorem wit_DemodulatorCommands :
    ((dmdSt {} [] (some period0)).fetched 104 0xD0 period0 ∧ (dmdSt {} [] (some period0)).chip.tripped = false ∧
      ({} : DmdPort).outs = [] ∧ ({} : DmdPort).held = none) ∧
    ((dmdCheck 0 period0).run (dmdSt {} [] (some period0)).work).1 = .ok () ∧
    ((dmdCheck 0 { period0 with descs := [opA 3 [4, 2], opB 6 [2, 2], none, opD 2 [2, 2]] }).run (dmdSt {} [] none).work).1 = .error 0x81 ∧
    (trippedSt State.reset).chip.tripped = true ∧ State.reset.chip.dmd.inbox.any (fun f => f.port == 0) = false ∧
    (let s := dmdSt {} [sub0 1 true false] none;
      s.chip.dmd.inbox.find? (fun f => f.port == 0) = some (sub0 1 true false) ∧ (s.chip.dmdPort 0).mode = 0 ∧
      (s.chip.dmdPort 0).held = none ∧ (s.chip.dmdPort 0).floodAt = none ∧ s.chip.seqOfPort 0 = some 0 ∧
      (s.chip.seq 0).gapFire ≠ some 7 ∧ codeLen 0 ≠ 0 ∧ s.chip.floodView 0 (sub0 1 true false) = .clear) ∧
    (let r := { period0 with executed := true }; let s := dmdSt {} [sub0 0 false false] (some r);
      s.chip.floodView 0 (sub0 0 false false) = .clear ∧ s.chip.seqSliding 0 = false ∧ s.chip.dmdCmd 0 = some r ∧
      none? ((dmdBlock 0 r (sub0 0 false false) 0).run s.work).1 = true) ∧
    (let s := dmdSt { latches := [(0, { thresh := 3 })] } [sub0 0 false true] none;
      s.chip.floodView 0 (sub0 0 false true) = .flood ∧ ((s.chip.dmdPort 0).latch (sub0 0 false true).tag).thresh < (sub0 0 false true).satCount ∧
      s.chip.dmdCmd 0 = none ∧ (List.range 4).all (fun k => (s.chip.dmdPort k).mode != 1) = true ∧
      firePast (s.chip.fires 0) (fireAdd 7 2) = false ∧ firePast (((s.chip.wr 0x027 0x0A8 9)).fires 0) (fireAdd 7 2) = true) := by
  decide +kernel
/-- An invalid output that is due is written at once, and the decision on a sub-frame waits for another port of its sequencer. -/
theorem wit_DemodulatorCommands_due :
    let o : DmdOut := { dstatus := 1, code := 0, frame := 3, period := none }
    let s := { (dmdSt { outs := [o] } [] (some period0)) with chip := regs [(0x026, 0x080, 0x10002000)] (dmdSt { outs := [o] } [] (some period0)).chip }
    let r := { period0 with executed := true }
    (s.chip.dmdPort 0).outs = o :: [] ∧
    ((do let v ← dmdWrite 0 r o allInvalid; liftM (meetWrites 104 0x28); return v : EM (Stats × AeRec)).run
      { s.work with chip := (s.chip.setRunning 104 (some r)).setDmdPort 0 { s.chip.dmdPort 0 with outs := [] } }).1.isOk = true := by
  decide +kernel
theorem wit_DemodulatorCommands_waits :
    let s := dmdSt {} [sub0 0 false false] none
    ((s.chip.wr 0x027 0x080 0x301).setNtxPort 1 { tags := [({ code := 0, chip := 0, fire := 7 }, 1)] }).floodView 0 (sub0 0 false false) = .waits := by
  decide +kernel
/-- An ACT on one element with a table of zeros, its tiles and the Choir with one of them running on stall 0. -/
def act0 : Running := cmdOf 0x44 0 0 0 [opA 1 [1], none, opC 6 [20], opD 1 [1]]
def choOk (q op : Nat) (r : Running) : Except Nat Nat :=
  match (do return (← choCheck q op r, ← choOpds q r) : EM (List Int × ChoOpds)).run (runSt q 1 r).work with
  | (.ok x, _) => .ok (choTiles op x.2)
  | (.error e, _) => .error e
theorem wit_ChoirCommands :
    ((runSt 0 1 act0).fetched 0 0x44 act0 ∧ (runSt 0 1 act0).chip.tripped = false ∧ (trippedSt (runSt 0 1 act0)).chip.tripped = true ∧
      (trippedSt (runSt 0 1 act0)).fetched 0 0x44 act0) ∧ choOk 0 0x44 act0 = .ok 1 ∧
    choOk 0 0x44 { act0 with descs := [opA 1 [2], none, opC 6 [20], opD 1 [1]] } = .error 0x16 := by decide +kernel
def choCmd0 : ChoCmd := { q := 0, n := 2, next := 1, left := 2, table := List.replicate 20 0 }
def tileSt : State :=
  let s := runSt 0 1 { act0 with executed := true }
  { s with chip := { (regs [(0x060, 0x060, 0x20000)] s.chip) with cho := { s.chip.cho with cmds := [choCmd0], tiles := [(0, .mk 0 0 0 false)] } } }
/-- The stores of the tile that runs on stall 0, as its completion makes them. -/
def tileStores (s : State) (r : Running) : Except Nat Stats :=
  let n := tileTime 0 r choCmd0 0 s.work
  ((do let v ← choTileOut 0 r choCmd0 0 0; liftM (meetWrites 0 0); return v : EM Stats).run
    { s.work with chip := ((s.chip.takeTile 0).count (pgStall 0) 0x040).count (pgStall 0) 0x044 n }).1
/-- The chip once the tile of stall 0 has failed its residue check. -/
def tileBad (s : State) : Chip :=
  (((((s.chip.count (pgStall 0) 0x048).raise (pgStall 0) 0).takeTile 0).setBit (pgStall 0) 0x010 11 true).count (pgStall 0) 0x044
    (tileTime 0 { act0 with executed := true } choCmd0 0 s.work)).refreshStalls
theorem wit_ChoirTiles :
    (tileSt.chip.resetBusy 0x060 = false ∧ tileSt.chip.tripped = false ∧ tileSt.chip.freeStall 0 = some 1 ∧
      (tileSt.chip.cho.cmds.find? fun k => k.q / 8 == 0 && k.deal.isSome) = some choCmd0 ∧
      choCmd0.deal = some (1, { choCmd0 with next := 2 })) ∧
    (regSt [(0x060, 0x060, 0)]).chip.freeStall 0 = none ∧ State.reset.chip.tileOn 0 = none ∧
    tileSt.chip.tileOn 0 = some (.mk 0 0 0 false, choCmd0, { act0 with executed := true }) ∧
    (tileStores tileSt { act0 with executed := true }).isOk = true ∧
    (¬ 0 ∈ choCmd0.reran ∧ (((tileBad tileSt).servedSlots 0).map (tileBad tileSt).slotPhys).any
      (fun y => y != 0 && !(tileBad tileSt).suspect y) = true) := by decide +kernel
theorem wit_ChoirTiles_fails :
    (let r := { act0 with executed := true, descs := [opA 1 [1], none, opC 6 [20], some (dsc 0x10200000 1 [1])] };
      let s := { tileSt with chip := (tileSt.chip.setRunning 0 none).setRunning 0 (some r) };
      s.chip.tileOn 0 = some (.mk 0 0 0 false, choCmd0, r) ∧ (tileStores s r).isOk = false) ∧
    (let k := { choCmd0 with reran := [0] };
      let s := { tileSt with chip := { tileSt.chip with cho := { tileSt.chip.cho with cmds := [k] } } };
      s.chip.tileOn 0 = some (.mk 0 0 0 false, k, { act0 with executed := true }) ∧ k.reran.contains 0 = true) := by decide +kernel
theorem wit_StallRemaps :
    (let s := regSt [(0x040, 0x010, 0x800)];
      s.chip.groupBoundary 0 = true ∧ 0 ∈ s.chip.boundarySlots 0 ∧ s.chip.slotPhys 0 = 0 ∧ s.chip.slotVacant 0 = false ∧
      s.chip.copying 0 = false ∧ s.chip.suspect 0 = true ∧ s.chip.bit 0x060 0x048 0 = false ∧
      (List.range 32).find? s.chip.isSpare = some 30 ∧
      (s.chip.boundarySlots 0).all (fun j => j == 0 || s.chip.slotVacant j || s.chip.copying j ||
        (!s.chip.suspect (s.chip.slotPhys j) && !s.chip.bit 0x060 0x048 (s.chip.slotPhys j) &&
          !s.chip.stallRetired (s.chip.slotPhys j) && s.chip.stallAllowed (s.chip.slotPhys j))) = true) ∧
    (List.range 32).find? (regSt [(0x040, 0x010, 0x800), (0x060, 0x040, 0x3FFFFFFF)]).chip.isSpare = none ∧
    tileSt.chip.groupBoundary 0 = false ∧ State.reset.chip.cho.copies = [] ∧
    (chipSt fun c => { c with cho := { c.cho with copies := [.mk 0 0 30] } }).chip.cho.copies = .mk 0 0 30 :: [] ∧
    State.reset.passes .sac 0x060 0x048 ∧ State.reset.passes .sac (pgStall 31) 0x05C := by decide +kernel

/-! DMA and the Ronsan Link. -/
/-- Channel 0 set to copy 8 bytes of 8-byte elements from 0x10000100 to 0x10000200 in context 1, with its registers. -/
def dmaRegs (l : List (Nat × Nat × Nat)) : Chip → Chip :=
  regs ([(0x091, 0x040, 0x10000100), (0x091, 0x048, 0x10000200), (0x091, 0x050, 8), (0x091, 0x054, 0x31)] ++ l)
theorem wit_DmaChannels :
    (let s := clsSt (dmaRegs []);
      s.passes .host (pgDma 0) 0x100 ∧ s.chip.dmaHalt = false ∧ s.chip.bit 0x091 0x100 0 = false ∧ s.chip.dmaCheck (s.chip.dmaDesc 0 0) = 0 ∧
      s.chip.dmaActive 0 = false) ∧
    (State.reset.passes .host (pgDma 15) 0x100 ∧ State.reset.chip.dmaHalt = false ∧ State.reset.chip.bit (pgDma 15) 0x100 0 = false ∧
      State.reset.chip.dmaCheck (State.reset.chip.dmaDesc 15 0) ≠ 0) ∧
    ((regSt [(0x090, 0x010, 0x100)]).passes .host (pgDma 0) 0x100 ∧ (regSt [(0x090, 0x010, 0x100)]).chip.dmaHalt = true) ∧
    (let s := clsSt (dmaRegs [(0x091, 0x110, 1), (0x091, 0x104, 8), (0x091, 0x100, 1)]);
      s.passes .host (pgDma 0) 0x100 ∧ s.chip.bit 0x091 0x100 0 = true ∧
      s.chip.dmaActive 0 = true ∧ (s.chip.rd 0x091 0x104).toNat = (s.chip.dmaDesc 0 0).total ∧ s.chip.resetBusy 0x091 = false ∧
      s.chip.bit 0x091 0x100 1 = false ∧ s.chip.bit 0x091 0x100 2 = false ∧ (s.chip.dmaDesc 0 0).circular = false) ∧
    (let s := clsSt (dmaRegs [(0x091, 0x054, 0xB1), (0x091, 0x110, 1), (0x091, 0x104, 8), (0x091, 0x100, 1)]);
      (s.chip.rd 0x091 0x104).toNat = (s.chip.dmaDesc 0 0).total ∧ (s.chip.dmaDesc 0 0).circular = true) ∧
    (let s := clsSt (dmaRegs [(0x091, 0x110, 2), (0x091, 0x104, 8), (0x091, 0x100, 3)]);
      s.chip.dmaActive 0 = true ∧ s.chip.bit 0x091 0x100 1 = true) ∧
    (let s := clsSt (dmaRegs [(0x091, 0x010, 1), (0x091, 0x110, 2), (0x091, 0x104, 8), (0x091, 0x100, 3)]);
      s.chip.dmaActive 0 = true ∧ (s.chip.rd 0x091 0x104).toNat = (s.chip.dmaDesc 0 0).total ∧ s.chip.resetBusy 0x091 = true) := by decide +kernel
theorem wit_DmaChannels_shadow :
    let l : List (Nat × Nat × Nat) := [(0x099, 0x0C0, 0x10000100), (0x099, 0x0C8, 0x10000200), (0x099, 0x0D8, 0x31), (0x099, 0x0DC, 8),
      (0x099, 0x0E8, 8), (0x099, 0x110, 1), (0x099, 0x058, 1), (0x099, 0x104, 1), (0x099, 0x100, 5)]
    (let s := clsSt (regs l);
      s.chip.dmaActive 8 = true ∧ (s.chip.rd 0x099 0x104).toNat = (s.chip.dmaDesc 8 0).total ∧ s.chip.bit 0x099 0x100 1 = false ∧
      s.chip.bit 0x099 0x100 2 = true ∧ s.chip.dmaCheck (s.chip.dmaDesc 8 0x080) = 0) ∧
    (let s := clsSt (regs (l ++ [(0x099, 0x0C0, 0x10000101)])); s.chip.dmaActive 8 = true ∧ s.chip.dmaCheck (s.chip.dmaDesc 8 0x080) ≠ 0) := by
  decide +kernel
theorem wit_DmaBursts :
    State.reset.chip.dmaActive 0 = false ∧
    (let s := clsSt (dmaRegs [(0x091, 0x110, 1), (0x091, 0x100, 1)]);
      let d := s.chip.dmaDesc 0 0;
      let first := { s.work with chip := s.chip.dmaPrefetch 0 };
      s.chip.dmaActive 0 = true ∧ (s.chip.rd (pgDma 0) 0x104).toNat < d.total ∧ s.chip.tripped = false ∧ s.chip.pstate ≠ 2 ∧
      (translate d.ctx 0 (d.addr d.src d.ss 0) first).1 = .ok 0x10000100 ∧
      (translate d.ctx 1 (d.addr d.dst d.ds 0) (translate d.ctx 0 (d.addr d.src d.ss 0) first).2).1 = .ok 0x10000200 ∧
      0 < d.esize ∧ d.esize ≤ 8 ∧ 0 < d.elems) := by decide +kernel
theorem wit_DmaBursts_faults :
    (let s := clsSt (dmaRegs [(0x091, 0x110, 1), (0x091, 0x100, 1), (0x091, 0x040, 0x10200000)]); let d := s.chip.dmaDesc 0 0;
      (translate d.ctx 0 (d.addr d.src d.ss 0) { s.work with chip := s.chip.dmaPrefetch 0 }).1 = .error 0x03) ∧
    (let s := clsSt (dmaRegs [(0x091, 0x110, 1), (0x091, 0x100, 1), (0x091, 0x048, 0x10200000)]); let d := s.chip.dmaDesc 0 0;
      (translate d.ctx 1 (d.addr d.dst d.ds 0) (translate d.ctx 0 (d.addr d.src d.ss 0)
        { s.work with chip := s.chip.dmaPrefetch 0 }).2).1 = .error 0x03) := by decide +kernel
/-- A port in a state, with its lane bits, the chapter's control and state words, and its link state. -/
def linkSt (state lanes ctl chap : Nat) (x : LinkPort := {}) : State :=
  chipSt fun c =>
    let c := regs [(0x0B0, 0x044, state), (0x0B0, 0x048, lanes), (0x0B4, 0x040, ctl), (0x0B4, 0x044, chap), (0x0B4, 0x050, 0xFFFFFFFF)] c
    { c with link := { c.link with ports := [(0, x)] } }
def hello0 (port : Fin 4) : Hello := { port := port, head := false, topo := false, pos := 0, expectM1 := 0 }
theorem wit_LinkTraining :
    (State.reset.passes .host (pgRlk 0) 0x040 ∧ State.reset.chip.bit (pgRlk 0) 0x040 0 = false ∧ State.reset.chip.portState 0 ≠ lpQuarantined ∧
      (linkSt 6 0 0 0).passes .host (pgRlk 0) 0x040 ∧ (linkSt 6 0 0 0).chip.portState 0 = lpQuarantined) ∧
    ((linkSt 1 0x100 0 0).chip.portState 0 = lpLocking ∧ (linkSt 1 0x100 0 0).chip.laneBit 0 true 0 = true ∧
      (linkSt 5 0 0 0).chip.portState 0 = lpRetraining ∧ State.reset.chip.portState 0 ≠ lpLocking ∧
      State.reset.chip.portState 0 ≠ lpRetraining) ∧
    ((linkSt 2 0x101 0 0).chip.portState 0 = lpAligning ∧ (linkSt 2 0x101 0 0).chip.laneBit 0 false 0 = true ∧
      (linkSt 2 0x101 0 0).chip.laneBit 0 true 0 = true ∧ (linkSt 2 1 0 0).chip.laneBit 0 true 0 = false) ∧
    (State.reset.chip.portState 0 ≠ lpExchange ∧ (linkSt 3 0 0 0).chip.portState 0 = lpExchange ∧ (hello0 1).port.val = partner 0 ∧
      (hello0 1).topo = (linkSt 3 0 0 0).chip.chTorus ∧ (hello0 1).expectM1.val + 1 = (linkSt 3 0 0 0).chip.chExpect ∧
      ((linkSt 3 0 0 0).chip.lport 0).hellos < 2 ∧ ((linkSt 3 0 0 0 { hellos := 2 }).chip.lport 0).hellos = 2 ∧
      (linkSt 3 0 0 0).chip.chEn = false ∧ (hello0 2).port.val ≠ partner 0) ∧
    (lpAligning ≤ (linkSt 4 0x303 0 0).chip.portState 0 ∧ (linkSt 4 0x303 0 0).chip.portState 0 ≠ lpQuarantined ∧
      (linkSt 4 0x303 0 0).chip.laneBit 0 false 1 = true ∧ (linkSt 4 0x303 0 0).chip.laneBit 0 true 0 = true ∧
      State.reset.chip.laneBit 0 false 1 = false ∧ (linkSt 1 0x303 0 0).chip.portState 0 < lpAligning ∧
      (linkSt 1 0x303 0 0).chip.laneBit 0 true 0 = true ∧ (linkSt 1 0x303 0 0).chip.laneBit 0 true 1 = true) ∧
    (linkSt 5 0 0 0).chip.portState 0 ∉ [lpDown, lpUp, lpQuarantined] ∧ (linkSt 4 0 0 0).chip.portState 0 ∈ [lpDown, lpUp, lpQuarantined] := by
  decide +kernel
def oneFlit : LinkPort := { replay := [{ vc := 4, seq := 0, body := .join 0 }], txNext := 1 }
/-- What is kept of a port's replay buffer once an ACK of the flit 5 has come. -/
def keptOf (x : LinkPort) : List TxFlit :=
  x.replay.drop (((x.replay.findIdx? fun f => f.seq == (hdr 7 0 5).ack.toNat).map (· + 1)).getD 0)
theorem wit_LinkFlits :
    ((linkSt 4 0x303 0 0).chip.portState 0 = lpUp ∧ (linkSt 3 0x303 0 0).chip.portState 0 ≠ lpUp) ∧
    (keptOf oneFlit ≠ [] ∧ oneFlit.resends + 1 < 8 ∧ oneFlit.replay ≠ [] ∧
      ((oneFlit.replay.findIdx? fun f => f.seq == (hdr 7 0 5).ack.toNat).map (· + 1)).getD 0 = 0 ∧
      7 ≤ ({ oneFlit with resends := 7 } : LinkPort).resends) ∧
    (keptOf {} = [] ∧ ({} : LinkPort).txq = [] ∧ ({} : LinkPort).replay = []) ∧
    ((linkSt 4 0x303 0 0).chip.inOrder 0 (hdr 4 0 0) ∧ 5 ≤ (hdr 5 0 0).vc.toNat ∧ (hdr 4 9 0).vc.toNat < 5 ∧
      (hdr 4 9 0).seq.toNat ≠ ((linkSt 4 0x303 0 0).chip.lport 0).rxNext) := by
  decide +kernel
/-- A chip with ports whose link knows since when positions are unreachable. -/
def unreachSt (ctl chap : Nat) : State :=
  let d := (linkSt 4 0 ctl chap).chip
  chipSt fun _ => { d with link := { d.link with unreach := [(0, 9), (1, 9)] } }
theorem wit_ChapterForms :
    (State.reset.passes .host 0x0B4 0x040 ∧ State.reset.chip.chEn = false ∧ (0x03 : Word) &&& 0x77 = 0x03 ∧ (0x13 : Word) &&& 0x03 = 0x03 ∧
      (0x13 : Word) &&& 0x70 ≠ 0 ∧ (0x11 : Word) &&& 0x03 = 0x01 ∧ (0x10 : Word).getLsbD 0 = false) ∧
    ((linkSt 0 0 1 0).passes .host 0x0B4 0x040 ∧ (linkSt 0 0 1 0).chip.chEn = true ∧ (1 : Word).getLsbD 0 = true) ∧
    (let s := linkSt 4 0 0x11 1; s.chip.inOrder 0 (hdr 4 0 0) ∧ s.chip.chEn = true ∧ s.chip.chPosValid = false ∧ s.chip.chTorus = false ∧
      (1 : BitVec 8).toNat < s.chip.chExpect ∧ ¬ (7 : BitVec 8).toNat < s.chip.chExpect) ∧
    (let s := linkSt 4 0 0x11 0x111; s.chip.inOrder 0 (hdr 4 0 0) ∧ s.chip.chPosValid = true ∧ s.chip.chPos = 1 ∧ (0 : Nat) ≠ s.chip.chPos) ∧
    (let s := linkSt 4 0 0x13 0x101; s.chip.inOrder 0 (hdr 4 0 0) ∧ s.chip.chEn = true ∧ s.chip.chHead = true) ∧
    (let d := (linkSt 4 0 0x11 0x111).chip; let c : Chip := { d with link := { d.link with headPort := some 0 } };
      c.inOrder 0 (hdr 4 0 0) ∧ c.link.headPort = some 0 ∧ c.chEn = true ∧ c.chHead = false ∧ d.link.headPort = none) ∧
    (let s := linkSt 4 0 0x11 0x111; s.chip.chEn = true ∧ s.chip.chHead = false ∧ s.chip.chPosValid = true ∧ s.chip.chState = chForming) := by decide +kernel
theorem wit_ChapterForms_later :
    (let s := linkSt 4 0 0x11 0x112; s.chip.inOrder 0 (hdr 4 0 0) ∧ s.chip.chEn = true ∧ s.chip.chHead = false ∧ s.chip.chState = chUp ∧
      (1 : BitVec 8).toNat ≠ s.chip.linkEpoch) ∧
    (let d := (linkSt 4 0 0x13 0x101).chip; let c : Chip := { d with link := { d.link with firstUp := some 5 } };
      c.link.firstUp = some 5 ∧ c.chEn = true ∧ c.chHead = true ∧ c.chState = chForming ∧ d.link.firstUp = none) ∧
    (let c := (unreachSt 0x13 0x03032102).chip; aget c.link.unreach (1 : Fin 8).val = some 9 ∧ aget c.link.unreach (2 : Fin 8).val = none ∧
      c.chEn = true ∧ c.chHead = true ∧ c.chState = chUp ∧ bits c.chLive 1 1 = 1) ∧
    (let c := (unreachSt 0x11 0x112).chip; aget c.link.unreach 0 = some 9 ∧ c.chEn = true ∧ c.chHead = false ∧ c.chState = chUp) ∧
    ((unitQueues .lxe).all (fun q => State.reset.chip.qstate q == qStopped) = true ∧
      112 ∈ unitQueues .lxe ∧ (regSt [(pgQ 112, 0x060, 1)]).chip.qstate 112 ≠ qStopped) := by decide +kernel
/-- A PIECE_SEND of the two bytes of the first vector to a piece of this chip that is bound to the second one. -/
def piece0 : Running := cmdOf 0x18 0 0 0 [some srcA, none, none, none]
def pieceSt : State :=
  clsSt fun c =>
    let c := ({ (regs [(pgQ 112, 0x04C, 1)] (withRegion c)) with desc := { slots := [(0x1002, { qw := dstB, owner := 1 })] } } : Chip)
    let b : Binding := .mk [0, 0, 0, 0, 0] [2, 1, 1, 1, 1] 0x1002 0
    { (c.setRunning 112 (some piece0)) with link := { c.link with bind := [(0, b)] } }
def xferSt (r : Running) : State :=
  chipSt fun _ => let d := (linkSt 4 0 0x11 0x112).chip; { (d.setRunning 112 (some r)) with link := { d.link with xfers := [(5, .mk 112 0 100)] } }
def resp0 (ident status : Nat) : RespMsg := { ident := BitVec.ofNat 16 ident, status := BitVec.ofNat 8 status, pos := 0 }
theorem wit_LinkTransfers :
    (let s := linkSt 4 0 0x11 0x112; s.chip.inOrder 0 (hdr 0 0 0) ∧ (hdr 0 0 0).route = [] ∧ s.chip.inOrder 0 { hdr 0 0 0 with route := [1] } ∧
      s.chip.resetBusy 0x0B4 = false ∧ s.chip.tripped = false ∧ s.chip.link.parked = []) ∧
    ((pieceMsg [] []).nData ≠ 0 ∧ ({ pieceMsg [] [] with nData := 0 } : PieceHeadMsg).nData = 0) ∧
    (let s := { linkSt 4 0 0x11 0x112 with chip := (linkSt 4 0 0x11 0x112).chip.wr 0x0B4 0x010 1 };
      s.chip.inOrder 0 (hdr 0 0 0) ∧ s.chip.resetBusy 0x0B4 = true) ∧
    ((xferSt piece0).chip.inOrder 0 (hdr 3 0 0) ∧ aget (xferSt piece0).chip.link.xfers (resp0 6 0).ident.toNat = none ∧
      aget (xferSt piece0).chip.link.xfers (resp0 5 0).ident.toNat = some (.mk 112 0 100) ∧ (resp0 5 0).status = 0 ∧
      (xferSt piece0).chip.running 112 = some piece0 ∧ piece0.op = 0x18 ∧ (resp0 5 0xF0).status ≠ 0) ∧
    ((xferSt piece0).chip.lastSent (112 : Fin 128) = some 100 ∧ State.reset.chip.lastSent (112 : Fin 128) = none) ∧
    (pieceSt.fetched 112 0x18 piece0 ∧ pieceSt.chip.tripped = false ∧ ((runBody 112 (pieceSendBody 112) piece0).run pieceSt.work).1.isOk = true) ∧
    (let r := { piece0 with descs := [some (dsc 0x10200000 2 [2]), none, none, none] };
      let s := { pieceSt with chip := (pieceSt.chip.setRunning 112 none).setRunning 112 (some r) };
      s.fetched 112 0x18 r ∧ ((runBody 112 (pieceSendBody 112) r).run s.work).1.isOk = false) := by decide +kernel
theorem wit_ChapterTime :
    (let s := linkSt 4 0 0x11 0x112;
      s.chip.chEn = true ∧ s.chip.chHead = false ∧ s.chip.chState = chUp ∧ (s.chip.route 0).isSome = true ∧ s.chip.link.tsLast = none) ∧
    State.reset.chip.chEn = false ∧ State.reset.chip.portState 0 ≠ lpUp ∧
    (linkSt 4 0 0 0).chip.portState 0 = lpUp ∧ (linkSt 4 0 0 0).chip.link.tsT1 ≠ some 9 ∧
    (let d := (linkSt 4 0 0 0).chip;
      let c : Chip := { d with link := { d.link with tsT1 := some 9, tsFirst := false, tsGood := 2, tsBad := 2, tsLast := some 7 } };
      c.portState 0 = lpUp ∧ c.link.tsT1 = some (9 : DWord).toNat ∧ c.link.tsFirst = false ∧ c.time.tbStep = none ∧ 2 ≤ c.link.tsGood ∧
      2 ≤ c.link.tsBad ∧ c.link.tsLast = some 7) := by decide +kernel

/-! The Precentor. -/
/-- An image of one source node of port 0 with one placement on this chip, a slot of it, and a frame. -/
def place0 : GPlace := { alive := 1, units := [0x140], queues := [2 ^ 64], nodePos := [0], tmpl := [0xFFFF] }
def img0 : GImage :=
  { size := 1216, chapter := 1, pacing := 0, depth := 2, nDesc := 1, nEvt := 32, seqMask := 1, edges := [], bufs := [], pieces := [],
    nodes := [.mk 0 0 0xFF 0 0 0 0], places := [place0, place0], templates := [], tmplOff := 0, init := [] }
def gs0 : GSlot := { img := img0, t0 := 1000000 }
def fr0 : GFrame := { a := 0, step := 0, skipped := 0, start := 0 }
/-- Slot 0 in a state with what the firmware holds of it, the firmware running, FREE pacing and the period 1 ms. -/
def gSt (st : Nat) (x : GSlot) (l : List (Nat × Nat × Nat) := []) : State :=
  clsSt fun c =>
    let c := regs ([(0x010, 0x040, 3), (pgSlot 0, 0x080, st), (pgSlot 0, 0x064, 1), (pgSlot 0, 0x068, 1000000)] ++ l) (lisChip {} c)
    c.setGslot 0 (some x)
/-- A graph image of one IN node, one buffer, one descriptor and one placement (R303-R307), with its SHA-384. -/
def imageBytes : List Byte :=
  let le := fun (n v : Nat) => leBytes n v
  let head := le 4 0x49475647 ++ [1, 0, 0xA0, 0xA1] ++ le 4 1216 ++ le 4 5 ++ le 4 0 ++ [1, 1, 0, 1] ++ le 2 1 ++ le 2 0 ++ le 2 1 ++ le 2 1 ++
    [32, 0] ++ le 2 0 ++ List.replicate 28 0
  let sects := le 4 256 ++ le 4 16 ++ le 8 0 ++ le 4 272 ++ le 4 16 ++ le 8 0 ++ le 4 288 ++ le 4 928 ++ List.replicate 24 0
  let node := le 2 0 ++ [3, 0xFF, 0xFF, 0, 0, 0] ++ le 2 0 ++ List.replicate 6 0
  let buf := [0, 2] ++ List.replicate 14 0
  let place := 1 :: List.replicate 927 0
  head ++ imageSha ++ sects ++ List.replicate 80 0 ++ node ++ buf ++ place
where
  imageSha : List Byte :=
    [55, 235, 174, 99, 176, 167, 246, 21, 133, 82, 192, 12, 254, 198, 198, 176] ++
    [240, 154, 211, 210, 76, 48, 187, 94, 103, 138, 142, 54, 142, 202, 162, 85] ++
    [4, 236, 164, 232, 45, 88, 214, 35, 114, 137, 77, 206, 50, 213, 27, 124]
/-- The image at 0x10100000 of Cloister, named by slot 0, with a firmware that accepts its version. -/
def imageSt (f : List Byte → List Byte := id) : State :=
  let cells := ((f imageBytes).zipIdx.filter fun b => b.1 != 0).map fun b => (0x10100000 + b.2, b.1)
  let fw : ImgInfo := { fwVer := 1, secVer := 1, iface := 1, partners := [], clalaMin := 1, clalaMax := 9, keySlot := none }
  clsSt (fun c =>
    let c := regs [(pgSlot 0, 0x040, 0x10100000), (pgSlot 0, 0x080, 1)] c
    { c with pwr := { c.pwr with prc := some fw } }) cells
theorem wit_GraphCommands :
    (State.reset.passes .host (pgSlot 0) 0x078 ∧ State.reset.chip.bit (pgSlot 0) 0x07C 31 = false ∧ State.reset.chip.gstate 0 = 0 ∧
      State.reset.chip.slotLive 0 = false) ∧
    ((regSt [(pgSlot 0, 0x07C, 2 ^ 31)]).passes .host (pgSlot 0) 0x078 ∧ (regSt [(pgSlot 0, 0x07C, 2 ^ 31)]).chip.bit (pgSlot 0) 0x07C 31 = true) ∧
    ((gSt 3 gs0).passes .host (pgSlot 0) 0x078 ∧ (gSt 3 gs0).chip.gstate 0 = 3 ∧ (gSt 3 gs0).chip.slotLive 0 = true ∧
      (gSt 3 gs0).chip.gslot 0 = some gs0) ∧
    ((gSt 2 gs0).chip.gstate 0 = 2 ∧ (gSt 5 gs0).chip.gstate 0 = 5 ∧ (gSt 6 gs0).chip.gstate 0 = 6) ∧
    (gs0.committed = gs0.admitted ∧ (gSt 4 gs0).chip.gstate 0 = 4 ∧ (gSt 4 gs0).chip.prcRuns = true) ∧
    (State.reset.passes .host (pgSlot 0) 0x0A8 ∧ (State.reset.chip.rd (pgSlot 0) 0x0AC).toNat + (0 : BitVec 16).toNat ≤ 0 ∧
      ((gSt 3 { gs0 with admitted := 2 }).chip.rd (pgSlot 0) 0x0AC).toNat + (1 : BitVec 16).toNat ≤ 2 ∧
      0 < (State.reset.chip.rd (pgSlot 0) 0x0AC).toNat + (1 : BitVec 16).toNat) ∧
    (let x := { gs0 with img := { img0 with nodes := [.mk 0 3 0xFF 0xFF 0 0 0] } }; let s := gSt 3 x;
      s.passes .host (pgSlot 0) 0x0B0 ∧ s.chip.gslot 0 = some x ∧ s.chip.slotLive 0 = true ∧
      ((x.nodesAt (s.chip.gPlace 0 x) s.chip.chPos).any fun y => y.1 == 0 && y.2.kind == 3) = true ∧
      (aget x.inPosts 0).getD 0 < x.committed + x.img.depth ∧
      ¬ (aget ({ x with inPosts := [(0, 2)] } : GSlot).inPosts 0).getD 0 < x.committed + x.img.depth) := by decide +kernel
/-- A LOCKSTEP graph of 4 fires to a frame starts, and one whose T_0 has passed does not. -/
theorem wit_GraphCommands_start :
    let x := { gs0 with img := { img0 with pacing := 3 } }
    let s := gSt 2 x [(pgSlot 0, 0x06C, 4000000), (pgSlot 0, 0x068, 400000000), (pgSlot 0, 0x070, 2000000)]
    s.chip.gstate 0 = 2 ∧ ((startSlot 0 (s.chip.rd64 (pgSlot 0) 0x070) none true) s.work).1 = 0 ∧
    ((startSlot 0 ((gSt 2 gs0).chip.rd64 (pgSlot 0) 0x070) none true) (gSt 2 gs0).work).1 ≠ 0 := by decide +kernel
theorem wit_GraphCommands_stop :
    let w := ((do graphRelease 0; chipM fun c => (c.graphLoaded 0).gEnd 0 0 : WM Unit) (gSt 4 gs0).work).2
    let w' := ((do graphRelease 0; chipM fun c => (c.graphLoaded 0).gEnd 0 0 : WM Unit) (gSt 4 gs0 [(pgSlot 0, 0x064, 0x801)]).work).2
    w.chip.bit (pgSlot 0) 0x064 11 = false ∧ w'.chip.bit (pgSlot 0) 0x064 11 = true := by decide +kernel
theorem wit_GraphCommands_image :
    imageSt.chip.gstate 0 = 1 ∧
    (fun (r : Except Nat GImage × Work) => (r.1, r.2.chip.leaseState 0x073)) ((checkImage 0) imageSt.work) = (.ok (parseImage imageBytes), 0) := by decide +kernel
theorem wit_GraphCommands_badImage : ((checkImage 0) (imageSt fun b => 0 :: b.drop 1).work).1 = .error 0x04 := by decide +kernel
theorem wit_GraphCommands_held :
    let s := { imageSt with chip := regs [(0x073, 0x028, 0x01640110)] imageSt.chip }
    (fun (c : Chip) => (c.leaseState 0x073, c.holds .prc0 0x073)) ((checkImage 0) s.work).2.chip = (1, false) := by decide +kernel
/-- What a template makes is open: where it makes a descriptor that CREATE takes, the load goes on. -/
theorem wit_GraphCommands_descs (c : Chip) (h : Config.descTemplate img0.templates 0 (c.bindings 0) = srcA)
    (hc : c.createCheck (c.gctx 0 * 4096 + (c.descSlot0 0 + 0)) srcA = 0) (hs : c.descSlot0 0 < 4096) :
    ∃ d, c.gDescs 0 img0 img0.nDesc c = .ok d := by
  refine ⟨c.storeSlot (c.gctx 0 * 4096 + (c.descSlot0 0 + 0)) { qw := srcA, owner := 3 }, ?_⟩
  have hn : img0.nDesc - (0 + 1) = 0 := rfl
  show c.gDescs 0 img0 (0 + 1) c = _
  unfold Chip.gDescs
  simp only [hn, h, Nat.add_zero] at hc ⊢
  rw [if_neg (Nat.not_le.mpr hs), hc]
  rfl
/-- A slot base of 4096 leaves no descriptor slot, whatever the template makes. -/
theorem wit_GraphCommands_noDescs (c : Chip) (hs : 4096 ≤ c.descSlot0 0) : ∃ e, c.gDescs 0 img0 img0.nDesc c = .error e := by
  refine ⟨0x02, ?_⟩
  show c.gDescs 0 img0 (0 + 1) c = _
  unfold Chip.gDescs
  have hn : img0.nDesc - (0 + 1) = 0 := rfl
  simp only [hn, Nat.add_zero]
  rw [if_pos hs]
  rfl
theorem wit_GraphCommands_slot :
    (let c := (regs [(pgSlot 0, 0x060, 0x10010000)] (withRegion clsChip)).setGslot 0 (some gs0);
      c.createCheck (c.gctx 0 * 4096 + (c.descSlot0 0 + 0)) srcA = 0 ∧ c.descSlot0 0 < 4096 ∧ c.gslot 0 = some gs0) := by decide +kernel
/-- A slot with a TAP source in place of a DMD one: nothing of it is posted before a fire. -/
def tap0 : GSlot := { gs0 with admitted := 1, frames := [fr0], img := { img0 with nodes := [.mk 0 1 0xFF 0 0 0 0] } }
theorem wit_GraphRuns :
    (State.reset.chip.prcRuns = false ∨ State.reset.chip.gslot 0 = none) ∧
    (let s := gSt 3 gs0; let d := s.chip.advanceTb (gs0.t0 + gs0.steps * s.chip.gPeriod 0 - 100000);
      s.chip.gslot 0 = some gs0 ∧ s.chip.prcRuns = true ∧ s.chip.gstate 0 = 3 ∧ s.chip.isHead = true ∧ s.chip.gFree 0 = true ∧
      gs0.full = false ∧ d.hostFull 0 gs0 = false ∧ d.time.tb.toNat ≤ gs0.t0) ∧
    (let s := gSt 5 gs0; s.chip.gstate 0 = 5 ∧ gs0.stopping = false ∧ s.chip.isHead = true ∧ s.chip.gFree 0 = true) ∧
    ({ gs0 with admitted := 2 } : GSlot).full = true ∧
    (let x := { gs0 with admitted := 2, committed := 1 }; let s := gSt 3 x;
      x.full = false ∧ (s.chip.advanceTb (x.t0 - 100000)).hostFull 0 x = true) ∧
    (let x := { gs0 with t0 := 1000 }; let s := { gSt 3 x with chip := { (gSt 3 x).chip with time := { tb := 2000 } } };
      s.chip.gstate 0 = 3 ∧ 1000 < (s.chip.advanceTb (1000 - 100000)).time.tb.toNat) ∧
    (let s := gSt 3 gs0 [(pgSlot 0, 0x064, 0)]; s.chip.isHead = true ∧ s.chip.gstate 0 = 3 ∧ s.chip.gFree 0 = false ∧ gs0.full = false ∧
      s.chip.hostFull 0 gs0 = false) ∧
    ((gSt 2 gs0).chip.prcRuns = true ∧ (gSt 2 gs0).chip.gslot 0 = some gs0 ∧ (gSt 2 gs0).chip.gstate 0 = 2 ∧
      (gSt 2 gs0).chip.slotLive 0 = false ∧ (gs0.frames.find? fun f => !f.voted) = none ∧ ¬ gs0.decided < gs0.admitted ∧
      ¬ gs0.committed < gs0.decided) := by decide +kernel
theorem wit_GraphRuns_fire :
    (let f := { fr0 with fired := 1, dmdPosted := true }; let x := { gs0 with admitted := 1, frames := [f] }; let s := gSt 3 x;
      (x.frames.find? fun f => decide (f.fired < s.chip.graphK x)) = some f ∧ s.chip.slotLive 0 = true ∧
      s.chip.gFrame 0 0 = some f ∧ s.chip.gSources x (s.chip.gPlace 0 x) ≠ [] ∧
      (maskBits 4 x.img.seqMask).all (fun n =>
        s.chip.fireReady n (portsOf ((s.chip.gSources x (s.chip.gPlace 0 x)).filter fun n => n.kind == 0))) = true) ∧
    (let f := { fr0 with dmdPosted := true, todo := [(0, 70, [0, 0, 0, 0])] }; let x := { gs0 with admitted := 1, frames := [f] }; let s := gSt 3 x;
      (x.frames.find? fun f => decide (f.fired < s.chip.graphK x)) = some f ∧ s.chip.gFrame 0 0 = some f ∧ f.fired = 0 ∧ f.todo ≠ []) ∧
    (let s := gSt 3 tap0;
      (tap0.frames.find? fun f => decide (f.fired < s.chip.graphK tap0)) = some fr0 ∧ fr0.dmdPosted = false ∧
      (((postDmd 0 tap0 fr0) s.work).2.chip.gFrame 0 0).any (fun f => f.dmdPosted && (f.fired != 0 || f.todo.isEmpty)) = true) ∧
    (let x := { tap0 with img := { tap0.img with templates := [0] } }; let s := gSt 3 x [(pgSlot 0, 0x040, 0x20000000)];
      (x.frames.find? fun f => decide (f.fired < s.chip.graphK x)) = some fr0 ∧
      (((postDmd 0 x fr0) s.work).2.chip.gFrame 0 0).any (fun f => f.dmdPosted && (f.fired != 0 || f.todo.isEmpty)) = false) := by decide +kernel
theorem wit_GraphRuns_votes :
    (let x := { gs0 with admitted := 1, frames := [fr0], recs := [.mk 0 true 0 0 0 0 0] }; let s := gSt 3 x;
      (x.frames.find? fun f => !f.voted) = some fr0 ∧ s.chip.slotLive 0 = true ∧ s.chip.gSources x (s.chip.gPlace 0 x) ≠ [] ∧
      fr0.a ≤ x.decided ∧ ((s.chip.gSources x (s.chip.gPlace 0 x)).mapM fun n => s.chip.gRec x n fr0) = some [.mk 0 true 0 0 0 0 0] ∧
      ((s.chip.gSources x (s.chip.gPlace 0 x)).mapM fun n => s.chip.gRec { x with recs := [] } n fr0) = none) ∧
    (let x := { gs0 with admitted := 1, frames := [fr0] }; let s := gSt 3 x [(0x011, 0x080, 1), (0x011, 0x0C0, 1)];
      s.chip.isHead = true ∧ s.chip.gstate 0 = 3 ∧ x.decided < x.admitted ∧ s.chip.gcount 0 x (8 + 0) - (aget x.votes 0).getD 0 ≠ 0 ∧
      ((x.img.nodes.zipIdx.filter fun n => n.1.isSrc && (s.chip.gPlace 0 x).pos n.2 != 0xFF).map fun n =>
        (s.chip.gPlace 0 x).pos n.2).eraseDups = [0] ∧
      maskBits 8 (s.chip.gPlace 0 x).alive = [0] ∧ x.committed < ({ x with decided := 1 } : GSlot).decided ∧
      ({ x with decided := 1 } : GSlot).committed + 1 ≤ s.chip.gcount 0 x (16 + 0) - (aget x.doneOff 0).getD 0) := by decide +kernel
theorem wit_GraphRuns_post :
    ((gSt 6 gs0).chip.gstate 0 = 6 ∧ (gSt 5 gs0).chip.gstate 0 ∉ [3, 4, 6]) ∧
    (∀ b, ([{ fr0 with run := some b }].find? fun f => !f.todo.isEmpty && (f.posted || f.run.isNone)) = none ∧
      ([{ fr0 with run := some b }].find? fun f => f.run.isSome && !f.posted) = some { fr0 with run := some b }) ∧
    (let f := { fr0 with todo := [(0, 70, [0, 0, 0, 0])] };
      ([f].find? fun f => !f.todo.isEmpty && (f.posted || f.run.isNone)) = some f) ∧
    (let f := { fr0 with run := some true, posted := true }; let s := gSt 3 { gs0 with frames := [f] };
      ([f].find? fun f => !f.todo.isEmpty && (f.posted || f.run.isNone)) = none ∧ ([f].find? fun f => f.run.isSome && !f.posted) = none ∧
      ([f].find? fun f => !f.done) = some f ∧ ((headersReady 0 0) s.work).2.chip.gFrame 0 0 = some f ∧ f.todo = [] ∧ f.cmds = [] ∧
      ((headersReady 0 0) s.work).2.chip.outNodes 0 { gs0 with frames := [f] } = []) ∧
    (let f := { fr0 with run := some true }; let s := gSt 3 { gs0 with frames := [f] };
      ([f].find? fun f => !f.done) = some f ∧ (((headersReady 0 0) s.work).2.chip.gFrame 0 0).any (fun f => f.posted) = false) := by
  decide +kernel
/-- ENABLE cleared on the queues of the slot's placement, as the switch does it. -/
def quietOff (c : Chip) : Chip :=
  (c.quietQueues (c.gPlace 0 gs0)).foldl (fun (c : Chip) q => c.gated .prc0 (pgQ q) 0x00C fun c => c.queueEnableTo q false) c
/-- Slot 0 of two placements of which the first needs the Choir. -/
def twoPlaces : GSlot := { gs0 with img := { img0 with places := [{ place0 with units := [0x1C0] }, place0] } }
/-- What the LOSS counters tell the head before it looks at its placements. -/
def lossTold (x : GSlot) (c : Chip) : Chip :=
  let delta := fun q => c.gcount 0 x (24 + q) - (aget x.losses q).getD 0
  let lost := (List.range 8).foldl (fun l q => if delta q % 512 = 0 then l else aput l q ((aget l q).getD 0 ||| delta q % 512)) c.prc.lost
  ({ c with prc := { c.prc with lost := lost } }).setGslot 0
    (some { x with losses := (List.range 8).foldl (fun l q => if delta q = 0 then l else aput l q (c.gcount 0 x (24 + q))) x.losses })
theorem wit_GraphSwitches_quiesce :
    (quietOff (gSt 5 gs0).chip).queueRests 64 = true ∧
    (quietOff ((gSt 5 gs0 [(pgQ 64, 0x060, 1), (pgQ 64, 0x00C, 1)]).chip.setRunning 64 (some build0))).queueRests 64 = false := by
  decide +kernel
theorem wit_GraphSwitches_start :
    (let s := gSt 3 gs0; s.chip.gslot 0 = some gs0 ∧ s.chip.prcRuns = true ∧ s.chip.isHead = true ∧ s.chip.gstate 0 = 3 ∧
      (List.range 8).all (fun q => decide (s.chip.gcount 0 gs0 (24 + q) - (aget gs0.losses q).getD 0 < 512)) = true ∧
      (lossTold gs0 s.chip).placeOk (s.chip.gPlace 0 gs0) = true) ∧
    (let s := gSt 3 gs0 [(0x011, 0x100, 256)];
      (lossTold gs0 s.chip).placeOk ((lossTold gs0 s.chip).gPlace 0 gs0) = false ∧ (lossTold gs0 s.chip).pickPlace gs0 = none) ∧
    (let s := gSt 3 twoPlaces [(0x011, 0x100, 128)];
      (lossTold twoPlaces s.chip).placeOk ((lossTold twoPlaces s.chip).gPlace 0 twoPlaces) = false ∧
      (lossTold twoPlaces s.chip).pickPlace twoPlaces = some 1) ∧
    512 ≤ (gSt 3 gs0 [(0x011, 0x100, 512)]).chip.gcount 0 gs0 (24 + 0) := by decide +kernel
theorem wit_GraphSwitches :
    (State.reset.chip.prcRuns = false ∨ State.reset.chip.gslot 0 = none) ∧
    ((gSt 5 gs0).chip.gstate 0 = 5 ∧ gs0.quiet = false ∧ (gSt 5 gs0).chip.quietQueues ((gSt 5 gs0).chip.gPlace 0 gs0) = [64]) ∧
    (let s := gSt 5 gs0 [(0x011, 0x070, 1)];
      s.chip.isHead = true ∧ s.chip.gcount 0 gs0 7 = gs0.resumes ∧
      gs0.quiets + (List.range 8).countP s.chip.alivePos ≤ s.chip.gcount 0 gs0 6) ∧
    ((gSt 3 gs0).chip.gstate 0 ≠ 5 ∧ (gSt 2 gs0).chip.gstate 0 = 2) ∧
    (let x := { gs0 with newPlace := some 1 }; let s := gSt 5 x [(0x011, 0x078, 1)];
      s.chip.gslot 0 = some x ∧ s.chip.prcRuns = true ∧ s.chip.gstate 0 = 5 ∧ x.newPlace = some 1 ∧ s.chip.gcount 0 x 7 ≠ x.resumes) := by
  decide +kernel

/-! The Carillon bus. -/
/-- Chain 0 enabled with a transaction and one device. -/
def carSt (t : Option CarTxn) (d : CarDev) (l : List (Nat × Nat × Nat) := []) : State :=
  chipSt fun c =>
    let c := regs ([(0x0D8, 0x040, 1)] ++ l) c
    { c with car := { c.car with chains := [(0, { txn := t, devs := [(0, d)] })] } }
def txn0 (cmd : Nat) (payload : List Byte) : CarTxn := { addr := 0, cmd := cmd, payload := payload, sent := [0x80] }
theorem wit_CarillonController :
    ((carSt none {}).passes .host (pgCar 0) 0x044 ∧ ((carSt none {}).chip.chain 0).txn = none ∧ ((carSt none {}).chip.chain 0).waiting = [] ∧
      (carSt none {}).chip.fld (pgCar 0) 0x044 16 5 < 17 ∧ (carSt none {}).chip.fld (pgCar 0) 0x044 0 6 < 33 ∧
      (carSt none {}).chip.chainOn 0 = true ∧ (carSt none {}).chip.gatedCommit 0 { addr := 0, cmd := 0, payload := [] } = false ∧
      (carSt none {}).chip.bit (pgCar 0) 0x044 30 = false) ∧
    (carSt none {} [(0x0D8, 0x044, 0x40000000)]).chip.bit (pgCar 0) 0x044 30 = true ∧
    17 ≤ (carSt none {} [(0x0D8, 0x044, 0x110000)]).chip.fld (pgCar 0) 0x044 16 5 ∧
    33 ≤ (carSt none {} [(0x0D8, 0x044, 0x21)]).chip.fld (pgCar 0) 0x044 0 6 ∧ State.reset.chip.chainOn 0 = false ∧
    (carSt none {} [(0x0D8, 0x044, 0x12300)]).chip.gatedCommit 0 { addr := 1, cmd := 0x23, payload := [] } = true ∧
    ((carSt (some (txn0 1 [])) {}).passes .host (pgCar 0) 0x044 ∧ ((carSt (some (txn0 1 [])) {}).chip.chain 0).txn ≠ none) ∧
    (let s := carSt (some (txn0 1 [])) {};
      let s := { s with chip := s.chip.setChain 0 { s.chip.chain 0 with waiting := [(true, true)] } }; (s.chip.chain 0).waiting ≠ []) := by
  decide +kernel
theorem wit_CarillonController_txn :
    (let t := { txn0 1 [] with sent := [], boundary := some 3 }; let s := carSt (some t) {};
      (s.chip.chain 0).txn = some t ∧
      ((s.chip.chain 0).txn.any fun t => t.sent.isEmpty && t.boundary.any fun f => s.chip.fires (s.chip.fld (pgCar 0) 0x044 28 2) != f) = true ∧
      s.chip.seqChip (s.chip.fld (pgCar 0) 0x044 28 2) = 0 ∧ s.chip.gatedCommit 0 t = false ∧ s.passes .host (pgCar 0) 0x048 ∧
      ((s.chip.chain 0).txn.any fun t => t.sent.isEmpty) = true ∧ ((s.chip.chain 0).txn.any fun t => !t.sent.isEmpty) = false) ∧
    (let t := { txn0 0x23 [] with sent := [], boundary := some 3 }; (carSt (some t) {}).chip.gatedCommit 0 t = true) ∧
    (((carSt none {}).chip.chain 0).txn.any fun t => t.sent.isEmpty) = false ∧
    (let t := { txn0 1 [] with reply := some [0, 1, 7] }; let s := carSt (some t) {} [(0x0D8, 0x040, 0x31)];
      (s.chip.chain 0).txn = some t ∧ t.sent ≠ [] ∧ t.boundary = none ∧ t.tries < s.chip.fld (pgCar 0) 0x040 4 4 ∧
      s.chip.gatedCommit 0 t = false) ∧
    (carSt none {} [(0x0D8, 0x040, 0x01)]).chip.fld (pgCar 0) 0x040 4 4 ≤ (txn0 1 []).tries ∧
    State.reset.passes .host (pgCar 1) 0x040 ∧ ((carSt none {}).passes .host (pgCar 0) 0x040 ∧ ((carSt none {}).chip.chain 0).txn = none) ∧
    ((carSt (some (txn0 1 [])) {}).passes .host (pgCar 0) 0x040 ∧ ((carSt (some (txn0 1 [])) {}).chip.chain 0).txn ≠ none) ∧
    aget State.reset.chip.car.goodSince 2 = none ∧ aget ({ goodSince := [(2, 5)] } : CarState).goodSince 2 = some 5 := by decide +kernel
/-- The first sixteen bytes of the SHA-256 of no bytes, as FIPS 180 gives them. -/
def emptyHash : List Byte := [0xE3, 0xB0, 0xC4, 0x42, 0x98, 0xFC, 0x1C, 0x14, 0x9A, 0xFB, 0xF4, 0xC8, 0x99, 0x6F, 0xB9, 0x24]
theorem carAsked_of (t : CarTxn) (d : CarDev) (hs : t.sent ≠ []) (hr : t.reply = none) (ha : t.addr = d.addr) (hd : d.stored = none)
    (hc : d.cls = 0 ∨ cmdClass t.cmd = 0 ∨ d.cls = cmdClass t.cmd)
    (hp : (d.plate.st ≠ 2 ∧ d.plate.st ≠ 3) ∨ t.cmd = 0x01 ∨ t.cmd = 0x20) : (carSt (some t) d).chip.carAsked 0 0 t :=
  ⟨rfl, hs, hr, by rw [Chip.chainOn]; exact (by decide +kernel : (regs [(0x0D8, 0x040, 1)] State.reset.chip).bit 0x0D8 0x040 0 = true),
    rfl, ha, fun _ h => absurd (hd.symm.trans h) (by simp), hc, hp⟩
theorem wit_CarillonDevices (cmd : Nat) (payload : List Byte) :
    (carSt (some (txn0 cmd payload)) {}).chip.carAsked 0 0 (txn0 cmd payload) :=
  carAsked_of _ _ (by simp [txn0]) rfl rfl rfl (.inl rfl) (.inl ⟨by decide, by decide⟩)
theorem wit_CarillonDevices_plate (cmd : Nat) (payload : List Byte) (p : Plate) (hp : p.st ≠ 2 ∧ p.st ≠ 3) :
    (carSt (some (txn0 cmd payload)) { plate := p }).chip.carAsked 0 0 (txn0 cmd payload) :=
  carAsked_of _ _ (by simp [txn0]) rfl rfl rfl (.inl rfl) (.inl hp)
theorem wit_CarillonDevices_hash :
    let p : Plate := { st := 1, hash := emptyHash }
    emptyHash.length = 16 ∧ imageHash p.stagedImage = p.hash ∧ p.total = plateSize (.mk 0 0 1 0) ∧ List.replicate 16 0 ≠ p.hash := by
  decide +kernel
/-- Whether a transaction comes to the device at the head of chain 0. -/
def comesTo (s : State) (t : CarTxn) (cmd : Nat) : Bool :=
  let d := s.chip.carDev 0 0
  !t.sent.isEmpty && t.reply.isNone && t.cmd == cmd && s.chip.chainOn 0 && s.chip.reached 0 0 &&
    (t.addr == d.addr || d.stored.any fun r => r.1 == t.sent)
theorem wit_CarillonDevices_comes :
    comesTo (carSt (some (txn0 4 [])) { cls := 1 }) (txn0 4 []) 4 = true ∧
    ((carSt none {}).chip.chain 0).txn = none ∧
    (let s := carSt (some (txn0 4 [])) { stored := some ([0x80], [0, 1, 0]) };
      comesTo s (txn0 4 []) 4 = true ∧ (s.chip.carDev 0 0).stored.filter (fun r => r.1 == (txn0 4 []).sent) = some ([0x80], [0, 1, 0])) ∧
    (let s := carSt (some (txn0 0x20 [])) { cls := 1 };
      comesTo s (txn0 0x20 []) 0x20 = true ∧ (s.chip.carDev 0 0).stored.filter (fun r => r.1 == (txn0 0x20 []).sent) = none ∧
      (s.chip.carDev 0 0).cls ≠ 0 ∧ cmdClass 0x20 ≠ 0 ∧ (s.chip.carDev 0 0).cls ≠ cmdClass 0x20) ∧
    (let s := carSt (some (txn0 0x25 [])) { plate := { st := 2 } };
      comesTo s (txn0 0x25 []) 0x25 = true ∧ (s.chip.carDev 0 0).cls = 0 ∧ (s.chip.carDev 0 0).plate.st = 2 ∧
      (s.chip.carDev 0 0).stored.filter (fun r => r.1 == (txn0 0x25 []).sent) = none) ∧
    (let s := carSt (some (txn0 0x25 [1])) {};
      comesTo s (txn0 0x25 [1]) 0x25 = true ∧ (txn0 0x25 [1]).payload.length ∉ [0] ∧ (s.chip.carDev 0 0).plate.st ≠ 2 ∧
      (s.chip.carDev 0 0).plate.st ≠ 3) ∧
    (let p : Plate := { st := 2, dirty := some emptyHash }; p.st = 2 ∧ p.dirty = some emptyHash) ∧
    (let p : Plate := { st := 0, dirty := some emptyHash }; p.dirty ≠ none ∧ p.st ≠ 2 ∧ p.st ≠ 3) ∧ ({ st := 3 } : Plate).st = 3 := by
  decide +kernel
/-- R385: the STATUS reply of a device whose pass switch is closed has FLAGS 4. -/
theorem test_status_flags :
    ((out (.status 0 0) (carSt (some (txn0 4 [])) { pass := true })).chip.chain 0).txn = some { txn0 4 [] with reply := some [0, 1, 4] } := by
  decide +kernel

/-! Time, pins, serial ports, power, resets, the Verger and the mailbox. -/
/-- PPS enabled, with the times given. -/
def ppsSt (now : Nat) (last : Option Nat) : State :=
  chipSt fun c => let c := regs [(0x0D0, 0x058, 1)] c; { c with time := { c.time with now := now, ppsLast := last } }
/-- A UART with so many characters in its FIFOs. -/
def uartSt (r t : Nat) : State :=
  chipSt fun c => c.setUart 0 { rx := List.replicate r 0x41, tx := List.replicate t 0x42 }
/-- An I2C transaction asked for: address 0x50, two bytes to write, one to read. -/
def i2cSt (w : Nat) : State := regSt [(pgI2c 0, 0x048, w)]
theorem wit_TimePinsAndPorts :
    (let s := out (.registerWrite .sac 0x0D0048 .b4 7) State.reset;
      s.passes .sac 0x0D0 0x04C ∧ aget s.chip.bus.held (reqKey (regAddr 0x0D0 0x048) .sac) = some 7 ∧
      aget State.reset.chip.bus.held (reqKey (regAddr 0x0D0 0x048) .sac) = none ∧ State.reset.passes .sac 0x0D0 0x04C) ∧
    State.reset.chip.bit 0x0D0 0x058 0 = false ∧ State.reset.chip.time.ppsLast = none ∧
    ((ppsSt 5 (some 0)).chip.bit 0x0D0 0x058 0 = true ∧ (ppsSt 5 (some 0)).chip.time.now < 0 + 900000000) ∧
    (900000000 ≤ (ppsSt 900000000 (some 0)).chip.time.now ∧ (ppsSt 900000000 (some 0)).chip.time.ppsLast = some 0 ∧
      (ppsSt 900000000 (some 0)).chip.bit 0x0D0 0x058 5 = false) ∧
    (State.reset.chip.bit 0x0D5 0x050 0 ≠ true ∧ State.reset.chip.bit 0x0D5 0x054 0 = false ∧
      (regSt [(0x0D5, 0x054, 1)]).chip.bit 0x0D5 0x054 0 = true ∧ State.reset.chip.bit 0x0D0 0x058 1 = false ∧
      (regSt [(0x0D5, 0x054, 1), (0x0D0, 0x058, 2)]).chip.bit 0x0D0 0x058 (1 + 0) = true ∧ State.reset.chip.bit 0x0D5 0x050 0 = false) ∧
    (State.reset.passes .sac 0x0D5 0x048 ∧ State.reset.passes .host 0x0D5 0x04C) ∧ State.reset.passes .sac 0x0C0 0x044 ∧
    (Instr.linkUp 1 1).wellFormed = true ∧ State.reset.chip.dmaHalt = false ∧ (regSt [(0x090, 0x010, 0x100)]).chip.dmaHalt = true ∧
    (State.reset.chip.pcieReset .hot).ownedEntries 1 = [] := by decide +kernel
/-- A PPS edge whose captured time is some 2 ms past a second, and one within 10 ns of a second, with PPS_AUTO and two good edges before:
whatever the capture's jitter, the error is 1 ms or more, or less than 1000 ns. -/
theorem wit_TimePinsAndPorts_error :
    (∀ d : Fin 11, 1000000 ≤ (ppsError ((2002000000 + d.val + 2 ^ 64 - 5) % 2 ^ 64)).natAbs) ∧
    (∀ d : Fin 11, (ppsError ((2000000005 + d.val + 2 ^ 64 - 5) % 2 ^ 64)).natAbs < 1000) ∧
    (let c := regs [(0x0D0, 0x058, 0x21)] State.reset.chip; (c.bit 0x0D0 0x058 5 && (!c.bit 0x0B4 0x040 0 || c.bit 0x0B4 0x040 1)) = true) := by
  decide +kernel
theorem wit_TimePinsAndPorts_uart :
    (uartSt 63 63).passes .sac (pgUart 0) 0x048 ∧ (uartSt 63 63).passes .sac (pgUart 0) 0x050 ∧
    ((uartSt 63 63).chip.uart 0).tx.length < 64 ∧ 64 ≤ ((uartSt 64 64).chip.uart 0).tx.length ∧ ((uartSt 63 63).chip.uart 0).deaf = false ∧
    (uartSt 63 63).chip.pstate ≠ 2 ∧ (regSt [(0x002, 0x06C, 2)]).chip.pstate = 2 ∧
    ((uartSt 63 63).chip.uart 0).rx.length < 64 ∧ 64 ≤ ((uartSt 64 64).chip.uart 0).rx.length ∧
    (uartSt 63 63).chip.fld (pgUart 0) 0x058 0 6 ≤ 63 + 1 ∧ ((uartSt 0 0).chip.uart 0).tx = [] ∧
    ((uartSt 1 1).chip.uart 0).rx ≠ [] ∧ ((uartSt 1 1).chip.uart 0).tx = [0x42] := by decide +kernel
theorem wit_TimePinsAndPorts_i2c :
    ((i2cSt 0x10250).passes .sac (pgI2c 0) 0x048 ∧ (i2cSt 0x10250).passes .sac (pgI2c 0) 0x040 ∧ (i2cSt 0x10250).chip.i2cBusy 0 = false ∧
      8 ≤ (i2cSt 0x10250).chip.fld (pgI2c 0) 0x048 0 7 ∧ (i2cSt 0x10250).chip.fld (pgI2c 0) 0x048 0 7 < 0x78 ∧
      (i2cSt 0x10250).chip.fld (pgI2c 0) 0x048 8 6 = 2 ∧ (i2cSt 0x10250).chip.fld (pgI2c 0) 0x048 16 6 = 1) ∧
    (i2cSt 0x78).chip.i2cBusy 0 = false ∧ 0x78 ≤ (i2cSt 0x78).chip.fld (pgI2c 0) 0x048 0 7 ∧
    32 < (i2cSt 0x210250).chip.fld (pgI2c 0) 0x048 16 6 ∧
    ((i2cSt 0x80010250).passes .sac (pgI2c 0) 0x048 ∧ (i2cSt 0x80010250).chip.i2cBusy 0 = true) ∧
    (let b : I2cBus := { addrAck := true, acked := 2, read := [9], busError := false, stuck := false };
      b.stuck = false ∧ b.busError = false ∧ b.addrAck = true ∧ (i2cSt 0x80010250).chip.fld (pgI2c 0) 0x048 8 6 ≤ b.acked ∧
      b.read[0]? = some 9) := by decide +kernel
/-- A protection case that is on, by its reason, with the trip temperature given. -/
def protSt (reason trip : Nat) : State := regSt [(0x002, 0x050, 2 ^ (23 + reason)), (0x003, 0x068, trip)]
def pwrSt (f : PwrState → PwrState) (l : List (Nat × Nat × Nat) := []) : State :=
  chipSt fun c => let c := regs l c; { c with pwr := f c.pwr }
theorem wit_PowerLoops :
    (sense (List.replicate 8 0x0140)).temps.length = 8 ∧ (regSt [(0x002, 0x06C, 2)]).chip.pstate = 2 ∧ State.reset.chip.pstate ≠ 2 ∧
    ((regSt [(0x003, 0x068, 0)]).chip.tTrip ≤ (regSt [(0x003, 0x068, 0)]).chip.tjMax ∧ (regSt [(0x003, 0x068, 0)]).chip.protOn 1 = false) ∧
    (regSt [(0x003, 0x068, 0x7FF)]).chip.tjMax < (regSt [(0x003, 0x068, 0x7FF)]).chip.tTrip ∧
    (State.reset.chip.vcore ≤ (1000 : BitVec 10).toNat + 50 ∧ (619 : BitVec 10).toNat < 620 ∧ 620 ≤ (1000 : BitVec 10).toNat) ∧
    (State.reset.passes .sac 0x002 0x054 ∧ State.reset.chip.protOn 3 = false ∧ (protSt 3 0).passes .sac 0x002 0x054) ∧
    ((protSt 1 0x7FF).chip.protOn 1 = true ∧ (protSt 1 0x7FF).chip.tjMax ≤ (protSt 1 0x7FF).chip.tTrip - 50) ∧
    (let s := pwrSt (fun p => { p with uvOkSince := some 3 }) [(0x002, 0x050, 2 ^ 25)]; s.chip.pwr.uvOkSince = some 3 ∧ s.chip.protOn 2 = true) ∧
    State.reset.chip.protOn 2 = false ∧ ((protSt 3 0).chip.protOn 3 = true ∧ (protSt 3 0).chip.lampsCool = true) ∧
    ((protSt 3 0).chip.setDev 0 0 { dark := true }).lampsCool = false ∧
    State.reset.chip.bit 0x003 0x070 0 = false ∧ (regSt [(0x003, 0x070, 1)]).chip.bit 0x003 0x070 0 = true := by decide +kernel
theorem wit_PowerLoops_clock :
    (let s := pwrSt fun p => { p with vidAt := some 5, choNext := some 700 };
      s.chip.pwr.vidAt = some 5 ∧ s.chip.pwr.choNext = some 700 ∧ s.chip.protOn 1 = false ∧ s.chip.protOn 2 = false ∧
      ¬ min 700 s.chip.choMax < s.chip.choMhz) ∧
    (pwrSt (fun p => { p with vidAt := some 5, choNext := some 700 }) [(0x002, 0x050, 2 ^ 24)]).chip.protOn 1 = true ∧
    ((pwrSt fun p => { p with vidAt := some 5 }).chip.pwr.choNext = none ∧ State.reset.chip.pwr.vidAt = none) ∧
    ((regSt [(0x002, 0x06C, 2), (0x002, 0x070, 15)]).chip.pstate ≠ 0 ∧
      [WakeSrc.uart0, .gpio, .pcie, .alarm].all (fun w => (regSt [(0x002, 0x06C, 2), (0x002, 0x070, 15)]).chip.bit 0x002 0x070 (wakeBit w)) = true) ∧
    State.reset.chip.pstate = 0 ∧ (regSt [(0x002, 0x078, 5), (0x002, 0x07C, 0)]).chip.time.tb.toNat < 5 ∧
    (let s := regSt [(0x002, 0x070, 15), (0x002, 0x06C, 2), (0x002, 0x078, 0), (0x002, 0x07C, 0)];
      s.chip.rd64 0x002 0x078 ≤ 0 ∧ s.chip.pstate ≠ 0 ∧ s.chip.bit 0x002 0x070 3 = true) ∧
    (regSt [(0x010, 0x044, 1)]).chip.debugChip = true := by
  decide +kernel
/-- The sequencer in a state, with supplies that are high. -/
def railSt (st high : Nat) (porst : Bool := true) : State :=
  pwrSt (fun p => { p with railOk := high, porstN := porst }) [(0x002, 0x080, st)]
/-- Page 0x008 held by the SAC, in LIMITED mode with reason 1, two override writes made. -/
def ovrSt (n : Nat) : State :=
  pwrSt (fun p => { p with ovrCount := n }) [(0x008, 0x028, 0x01640210), (0x008, 0x0C4, 0x210), (0x008, 0x0CC, 77)]
theorem wit_SuppliesBootAndResets :
    (∃ g1 g2 g3 : RailGroup, railNum g1 = 1 ∧ railNum g2 = 2 ∧ railNum g3 = 3 ∧
      (((railSt 1 0).chip.setRail (railNum g1) true).seqRun 3).psState ≠ psDone ∧
      ((railSt 3 0).chip.psState ≠ psDone ∧ (((railSt 3 0).chip.setRail (railNum g3) true).seqRun 3).psState = psDone ∧
        (((railSt 3 0).chip.setRail (railNum g3) true).seqRun 3).pwr.porstN = true) ∧
      ((railSt 2 0).chip.psState = railNum g2 ∧ (railSt 2 0).chip.railHigh (railNum g2) = false) ∧
      ((railSt 4 14).chip.railHigh (railNum g3) = true ∧ railNum g3 ≤ (railSt 4 14).chip.psState ∧ (railSt 4 14).chip.psState ≤ psDone)) ∧
    ((regSt [(0x003, 0x06C, 0)]).chip.tShut ≤ (regSt [(0x003, 0x06C, 0)]).chip.tjMax ∧ (regSt [(0x003, 0x06C, 0)]).chip.psState ≠ psDown) ∧
    (State.reset.chip.tjMax < State.reset.chip.tShut ∧ (railSt 2 0).chip.psState ≠ psDone ∧ (railSt 4 14).chip.psState = psDone) ∧
    (State.reset.passes .sac 0x008 0x0D4 ∧ State.reset.chip.pwr.romWait = false ∧
      (pwrSt fun p => { p with romWait := true }).passes .host 0x008 0x0D4) ∧
    (State.reset.passes .host 0x005 0x068 ∧ State.reset.passes .sac 0x005 0x068 ∧ State.reset.chip.vrg.resetting = 0 ∧
      (1 : BitVec 2).toNat < (if Requester.host = .host then 2 else 1)) := by
  refine ⟨⟨.core, .hs, .io, ?_⟩, ?_⟩ <;> decide +kernel
/-- The watchdog armed, with earlier fires. -/
def wdtSt (fires : List Nat) : State :=
  let s := regSt [(0x008, 0x100, 2 ^ 31 + 3)]
  { s with chip := { s.chip with vrg := { s.chip.vrg with fires := fires } } }
/-- The fires within 60 s that the next one makes. -/
def firesOf (c : Chip) : List Nat :=
  let d := c.advance c.wdtDue
  (c.vrg.fires.filter fun t => decide (d.time.now < t + 60000000000)) ++ [d.time.now]
theorem wit_SuppliesBootAndResets_wdt :
    (State.reset.passes .sac 0x008 0x104 ∧ State.reset.passes .host 0x008 0x104 ∧ State.reset.chip.time.now < State.reset.chip.wdtDue) ∧
    (regSt [(0x008, 0x100, 0)]).chip.bit 0x008 0x100 31 = false ∧
    ((wdtSt []).passes .sac 0x008 0x104 ∧ (wdtSt []).chip.bit 0x008 0x100 31 = true ∧
      (let c := ({ (wdtSt []).chip with time := { (wdtSt []).chip.time with now := 10 ^ 12 } } : Chip); c.wdtDue ≤ c.time.now)) ∧
    (firesOf (wdtSt []).chip).length < 3 ∧ 3 ≤ (firesOf (wdtSt [1, 2]).chip).length ∧
    (let c := (regSt [(0x008, 0x100, 0)]).chip;
      c.prc.slots = [] ∧ c.vrg.leases = [] ∧ c.leasePages = [] ∧ c.bit 0x008 0x100 31 = false ∧ c.vrg.resetting = 0 ∧
      c.mbReady = false ∧ c.link = {} ∧ c.pwr.porstN = false) ∧
    (let s := regSt [(0x011, 0x028, 0x01010110), (0x008, 0x100, 0)]; let c := { s.chip with pwr := { s.chip.pwr with porstN := true } };
      c.selState (0x011 : Fin 4096).val = 1 ∧ c.leaseOwner (0x011 : Fin 4096).val = 1 ∧
      c.leaseDue (0x011 : Fin 4096).val ≤ tickAt (c.time.now + 1) ∧ c.vrg.resetting = 0 ∧ c.bit 0x008 0x100 31 = false) := by decide +kernel
theorem wit_SuppliesBootAndResets_ovr :
    ((ovrSt 0).passes .sac 0x008 0x0D8 ∧ (ovrSt 0).chip.holds .sac 0x008 = true ∧ (ovrSt 0).chip.pwr.ovrCount = 0) ∧
    ((ovrSt 1).passes .sac 0x008 0x0D8 ∧ (ovrSt 1).chip.holds .sac 0x008 = true ∧ (ovrSt 1).chip.time.now ≤ (ovrSt 1).chip.pwr.ovrAt + 10000000) ∧
    ((ovrSt 2).passes .sac 0x008 0x0D8 ∧ (ovrSt 2).chip.holds .sac 0x008 = true ∧ (77 : Word) = (ovrSt 2).chip.ovrWant ∧
      (ovrSt 2).chip.mode = 2 ∧ (ovrSt 2).chip.fld 0x008 0x0C4 4 4 = 1) ∧
    (State.reset.passes .sac 0x008 0x0D8 ∧ State.reset.chip.holds .sac 0x008 = false) := by decide +kernel
/-- An entry of the Verger in a state (1 HELD, 2 QUARANTINED). -/
def entrySt (sel st : Nat) : State := chipSt fun c => { c with vrg := { c.vrg with leases := [(sel, { state := st })] } }
theorem wit_VergerActs :
    (held11.chip.selState (0x011 : Fin 4096) = 1 ∧ held11.chip.prcHeld 0x011 = false) ∧
    ((regSt [(0x101, 0x028, 0x01640410)]).chip.selState (0x101 : Fin 4096) = 1 ∧ (regSt [(0x101, 0x028, 0x01640410)]).chip.prcHeld 0x101 = true) ∧
    (entrySt (lockSel 3) 1).chip.selState (lockSel 3) = 1 ∧
    (entrySt (creditSel 2) 1).chip.selState (creditSel 2) = 1 ∧ held11.chip.selState (0x011 : BitVec 17).toNat = 1 ∧
    State.reset.chip.selState (0x011 : BitVec 17).toNat ≠ 1 ∧ State.reset.passes .sac 0x004 0x04C ∧
    (let s := regSt [(0x011, 0x028, 0x01640110), (0x004, 0x040, 0x011)]; s.passes .sac 0x004 0x04C ∧ s.chip.selState s.chip.lvSel = 1) ∧
    (let s := regSt [(0x011, 0x028, 0x01640F20), (0x004, 0x040, 0x011)];
      s.passes .sac 0x004 0x04C ∧ s.chip.selState s.chip.lvSel = 2 ∧ s.chip.selExists s.chip.lvSel = true ∧
      s.chip.quarFree (0x011 : BitVec 17).toNat = true ∧ s.chip.selState (0x011 : BitVec 17).toNat = 2) ∧
    State.reset.chip.quarFree (0x011 : BitVec 17).toNat = false ∧ State.reset.chip.selState State.reset.chip.lvSel ≠ 1 ∧
    (let s := entrySt 0x1000 3; let c := regs [(0x004, 0x040, 0x1000)] s.chip; c.selState c.lvSel = 3) ∧
    State.reset.passes .sac 0x005 0x054 ∧
    (State.reset.passes .sac 0x005 0x064 ∧
      ((List.range 9).filter fun b => (1 : BitVec 9).getLsbD b && !State.reset.chip.bit 0x005 0x060 b) ≠ [] ∧
      ((List.range 9).filter fun b => (0 : BitVec 9).getLsbD b && !State.reset.chip.bit 0x005 0x060 b) = []) ∧
    ((runSt 80 1 nop0).chip.unitActive (failBit .ftr) = true ∧ State.reset.chip.unitActive (failBit .ftr) = false ∧
      (runSt 80 1 nop0).chip.bit 0x005 0x060 (failBit .ftr) = false) ∧
    (0 : Fin 8).val ∉ State.reset.chip.memc.failed := by
  decide +kernel
/-- A request that waits in the mailbox: its opcode, its length and the words of its payload. -/
def mbSt (op len : Nat) (pay : List Nat := []) (l : List (Nat × Nat × Nat) := []) : State :=
  regSt ([(0x008, 0x0C0, 1), (0x008, 0x0C4, 2 ^ 31), (0x008, 0x040, op + 2 ^ 16 * len)] ++
    ((List.range pay.length).map fun i => (0x008, 0x048 + 4 * i, pay.getD i 0)) ++ l)
def mbAsked (s : State) (op len : Nat) : Bool := s.chip.mbWaits op && decide (s.chip.mbNum 2 2 = len)
/-- A window of 600 to 1400 MHz, duties 1 to 16, every stall allowed. -/
def winPay : List Nat := [0x05780258, 0x1001, 0xFFFFFFFF]
theorem wit_MailboxRows :
    State.reset.chip.mbWaits 0x01 = false ∧ ((mbSt 0x01 4).chip.mbWaits 0x01 = true ∧ (mbSt 0x01 4).chip.mbNum 2 2 ≠ 0) ∧
    ((mbSt 0x99 0).chip.mbReady = true ∧ (mbSt 0x99 0).chip.bit 0x008 0x0C0 0 = true ∧ (mbSt 0x99 0).chip.pwr.mbDone = false ∧
      mbOps.all (fun o => o.1 != (mbSt 0x99 0).chip.mbNum 0 2) = true) ∧
    (mbOps.any fun o => o.1 == (mbSt 0x01 0).chip.mbNum 0 2) = true ∧ mbAsked (mbSt 0x01 0) 0x01 0 = true ∧
    (mbAsked (mbSt 0x10 30 winPay) 0x10 30 = true ∧ (mbSt 0x10 30 winPay).chip.windowStatus = mbOk ∧
      (mbSt 0x10 30).chip.windowStatus ≠ mbOk ∧
      (mbSt 0x10 30 [0x02580578]).chip.mbNum 10 2 < (mbSt 0x10 30 [0x02580578]).chip.mbNum 8 2) ∧ mbAsked (mbSt 0x11 0) 0x11 0 = true ∧
    (mbAsked (mbSt 0x20 16 [0x100]) 0x20 16 = true ∧ (mbSt 0x20 16 [0x100]).chip.mbByte 8 = 0 ∧ (mbSt 0x20 16 [0x100]).chip.mbByte 9 = 1 ∧
      (mbSt 0x20 16 [0x100]).chip.mbNum 16 8 = 0 ∧ (mbSt 0x20 16 [0x100]).chip.ctxEnabled (1 : Fin 16) = false ∧
      15 < (mbSt 0x20 16 [0x110]).chip.mbByte 8 ∧ (mbSt 0x20 16 [0x102]).chip.mbByte 8 = 2 ∧
      (mbSt 0x20 16 [0x102]).chip.ctxEnabled 2 = false ∧ (mbSt 0x20 16 [0x102] [(0x072, 0x080, 1)]).chip.ctxEnabled 2 = true ∧
      (List.range 16).all (fun n => n == 0 ||
        (mbSt 0x20 16 [0x100] ((List.range 16).map fun i => (0x072, ctxOff i, 1))).chip.ctxEnabled n) = true) ∧
    (mbAsked (mbSt 0x21 1 [15]) 0x21 1 = true ∧ (mbSt 0x21 1 [15]).chip.mbByte 8 ≤ 15 ∧ 15 < (mbSt 0x21 1 [16]).chip.mbByte 8) ∧
    (mbAsked (mbSt 0x30 36 [0x00020000]) 0x30 36 = true ∧ (mbSt 0x30 36 [0x00020000]).chip.pwr.mbCar = none ∧
      (mbSt 0x30 36 [0x00020000]).chip.mbByte 8 ≤ 1 ∧ (mbSt 0x30 36 [0x00020000]).chip.mbByte 9 ≤ 16 ∧
      (mbSt 0x30 36 [0x00020000]).chip.mbByte 11 ≤ 32 ∧ (mbSt 0x30 36 [0x00020000]).chip.mbByte 10 = 0x02 ∧
      1 < (mbSt 0x30 36 [2]).chip.mbByte 8 ∧
      (mbSt 0x30 36).chip.mbByte 10 ∉ [0x02, 0x03, 0x10] ∧ ((mbSt 0x30 36).chip.chain 0).txn = none) ∧
    mbAsked (mbSt 0x31 8) 0x31 8 = true := by decide +kernel
theorem wit_MailboxRows_power :
    (mbAsked (mbSt 0x40 1) 0x40 1 = true ∧ (mbSt 0x40 1).chip.mbByte 8 = 0 ∧ (mbSt 0x40 1 [1]).chip.mbByte 8 = 1 ∧
      (mbSt 0x40 1 [1]).chip.mayIdle = true ∧ (mbSt 0x40 1 [2]).chip.mbByte 8 = 2 ∧ (mbSt 0x40 1 [2]).chip.maySleep = false ∧
      2 < (mbSt 0x40 1 [3]).chip.mbByte 8 ∧ (mbSt 0x40 1 [1] [(0x027, 0x00C, 1)]).chip.mayIdle = false) ∧
    (let s := mbSt 0x40 1 [2]; ({ s.chip with pcie := { s.chip.pcie with d3hot := true } } : Chip).maySleep = true) ∧
    (let c := (mbSt 0x10 30 [0x05780258, 0x1001, 0xFFFFFFFF, 500, 500]).chip;
      ({ c with fw := { c.fw with lamps := [(0, 200)] } } : Chip).fw.lamps = [(0, 200)]) := by decide +kernel
theorem wit_MailboxRows_car :
    (let s := mbSt 0x30 36; let c : Chip := { s.chip with pwr := { s.chip.pwr with mbCar := some 0 } };
      c.mbWaits 0x30 = true ∧ c.pwr.mbCar = some 0 ∧ (c.chain 0).txn = none) ∧
    (let c := (carSt (some (txn0 5 [])) {}).chip;
      let c := regs [(0x008, 0x0C0, 1), (0x008, 0x0C4, 2 ^ 31), (0x008, 0x040, 0x240030), (0x008, 0x048, 0x50000)] c;
      c.mbWaits 0x30 = true ∧ c.mbNum 2 2 = 36 ∧ c.pwr.mbCar = none ∧ c.mbByte 10 ∉ [0x02, 0x03, 0x10] ∧ (c.chain (c.mbByte 8)).txn ≠ none ∧
      ({ c with pwr := { c.pwr with mbCar := some 0 } } : Chip).pwr.mbCar = some 0) := by decide +kernel
theorem wit_MailboxRows_fuses :
    mbAsked (mbSt 0x50 0) 0x50 0 = true ∧ (mbSt 0x50 0).chip.mode ≠ 2 ∧ mbAsked (mbSt 0x51 1 [3]) 0x51 1 = true ∧
    (mbSt 0x51 1 [3]).chip.mode ≠ 2 ∧ (mbSt 0x51 1 [3]).chip.mbByte 8 ≤ 3 ∧ (mbSt 0x51 1 [3]).chip.pwr.sac = none ∧
    (mbSt 0x51 1 [3]).chip.pwr.prc = none ∧ 3 < (mbSt 0x51 1 [4]).chip.mbByte 8 ∧
    (mbSt 0x50 0 [] [(0x008, 0x0C4, 0x80000200)]).chip.mode = 2 ∧ mbAsked (mbSt 0x50 0 [] [(0x008, 0x0C4, 0x80000200)]) 0x50 0 = true ∧
    (let i : ImgInfo := { fwVer := 1, secVer := 1, iface := 1, partners := [], clalaMin := 0, clalaMax := 9, keySlot := some 3 };
      ((some i).bind ImgInfo.keySlot) = some 3) := by decide +kernel
/-- A step that programs a fuse. -/
theorem wit_FusesOnlyRise :
    ∃ t, step { (mbSt 0x51 1 [3]) with pending := [.keyRevoke true] } = .next t ∧ t.fuses ≠ State.reset.fuses :=
  ⟨out (.keyRevoke true) (mbSt 0x51 1 [3]), rfl, by decide +kernel⟩
/-- R449: KEY_REVOKE of slot 3 burns bit 3 and no other. -/
theorem test_key_revoke : (out (.keyRevoke true) (mbSt 0x51 1 [3])).fuses = { State.reset.fuses with keyRevoke := 8 } := by decide +kernel
end Sys2Proof.Tests
end

section
/-! The register bus as its requesters see it (R64, R66, R76, R77): what one 32-bit read answers, and the reads and unanswered
accesses built of it. -/

namespace Sys2Proof.Machine

theorem exec_loRead (req : Requester) (a : ReadAt) (s : State) : exec (.loRead req a) s = execLoRead req a s := by
  rfl

theorem exec_busTimeout (req : Requester) (addr : BitVec 24) (read : Bool) (s : State) :
    exec (.busTimeout req addr read) s = execBusTimeout req addr read s := by
  rfl

/-! One 32-bit read. -/

/-- A bus address lies in the word at an offset of an allocated page whose clock runs. -/
structure Chip.Reaches (c : Chip) (addr p off : Nat) : Prop where
  page : addr / 0x1000 = p
  word : addr % 0x1000 / 4 * 4 = off
  mapped : pageClass p ≠ none
  runs : c.clockStopped p = false

/-- The chip once the HI word of a pair stands in its requester's shadow (R76); the offset is LO's. -/
def Chip.shadowHi (c : Chip) (req : Requester) (p off : Nat) : Chip :=
  { c with bus := { c.bus with shadows := aput c.bus.shadows (reqKey (regAddr p off) req) (c.answer p (off + 4)) } }

/-- The shadow just taken is what the requester finds there. -/
@[simp] theorem Chip.shadowHi_shadow (c : Chip) (req : Requester) (p off : Nat) :
    aget (c.shadowHi req p off).bus.shadows (reqKey (regAddr p off) req) = some (c.answer p (off + 4)) :=
  aget_aput_same _ _ _

/-- The upper word of an aligned eight-byte access lies in the same page. -/
theorem Chip.Reaches.next {c : Chip} {addr p off : Nat} (h : c.Reaches addr p off) (h8 : addr % 8 = 0) :
    c.Reaches (addr + 4) p (off + 4) := by
  obtain ⟨hp, ho, hm, hr⟩ := h
  exact ⟨by omega, by omega, hm, hr⟩

theorem Chip.Reaches.shadowHi {c : Chip} {addr p off : Nat} (h : c.Reaches addr p off) (req : Requester) (q o : Nat) :
    (c.shadowHi req q o).Reaches addr p off := ⟨h.page, h.word, h.mapped, h.runs⟩

theorem pairHi_add_four (p off : Nat) : pairHi p (off + 4) = pairLo p off := by simp [pairHi]

theorem Chip.busRead_unmapped (c : Chip) (req : Requester) (addr : Nat) (h : pageClass (addr / 0x1000) = none) :
    c.busRead req addr = (0, c.logUse 0x000 0x02 req addr) := by
  simp [Chip.busRead, h]

section
variable {c : Chip} {addr p off : Nat} (h : c.Reaches addr p off) (req : Requester)
include h

/-- On a page that is there and runs, only the place of the word in a pair matters. -/
theorem Chip.busRead_of_reaches : c.busRead req addr =
    if (pairLo p off).isSome then (c.answer p off, c.shadowHi req p off)
    else if (pairHi p off).isSome then ((aget c.bus.shadows (reqKey (regAddr p (off - 4)) req)).getD 0, c)
    else (c.answer p off, c) := by
  obtain ⟨rfl, rfl, hm, hr⟩ := h
  simp [Chip.busRead, Chip.shadowHi, hm, hr]

theorem Chip.busRead_lo (hl : pairLo p off ≠ none) : c.busRead req addr = (c.answer p off, c.shadowHi req p off) := by
  rw [Chip.busRead_of_reaches h, if_pos (Option.isSome_iff_ne_none.mpr hl)]

theorem Chip.busRead_hi (hl : pairLo p off = none) (hh : pairHi p off ≠ none) :
    c.busRead req addr = ((aget c.bus.shadows (reqKey (regAddr p (off - 4)) req)).getD 0, c) := by
  rw [Chip.busRead_of_reaches h, if_neg (by simp [hl]), if_pos (Option.isSome_iff_ne_none.mpr hh)]

theorem Chip.busRead_single (hl : pairLo p off = none) (hh : pairHi p off = none) : c.busRead req addr = (c.answer p off, c) := by
  rw [Chip.busRead_of_reaches h, if_neg (by simp [hl]), if_neg (by simp [hh])]

/-- The HI word read right after the LO word of its pair is the one that was there at the LO read. -/
theorem Chip.busRead_hi_after_lo (h8 : addr % 8 = 0) (hl : pairLo p off ≠ none) (hn : pairLo p (off + 4) = none) :
    (c.shadowHi req p off).busRead req (addr + 4) = (c.answer p (off + 4), c.shadowHi req p off) := by
  rw [Chip.busRead_hi ((h.next h8).shadowHi req p off) req hn (by rwa [pairHi_add_four])]
  simp

end

/-! Reads of every size. -/

/-- A read of at most four bytes answers the bytes addressed of one 32-bit read (R64). -/
theorem exec_loRead_of_busRead {req : Requester} {addr : BitVec 24} {size : AccSize} {s : State} {v : Word} (f : Chip → Chip)
    (hs : size ≠ .b8) (h : s.chip.busRead req addr.toNat = (v, f s.chip)) :
    exec (.loRead req ⟨addr, size⟩) s = .next (s.onChip fun c => (f c).reply (ownerCode req - 1)
      (.data (BitVec.ofNat 64 (v.toNat / 256 ^ (addr.toNat % 4) % 256 ^ size.bytes)))) := by
  rw [exec_loRead, execLoRead]
  exact congrArg _ (s.onChip_congr _ _ (by simp [Chip.busLoad, h, hs]))

/-- A read of eight bytes answers two 32-bit reads in ascending order (R64). -/
theorem exec_loRead_of_busRead_two {req : Requester} {addr : BitVec 24} {s : State} {lo hi : Word} (f g : Chip → Chip)
    (hlo : s.chip.busRead req addr.toNat = (lo, f s.chip)) (hhi : (f s.chip).busRead req (addr.toNat + 4) = (hi, g s.chip)) :
    exec (.loRead req ⟨addr, .b8⟩) s = .next (s.onChip fun c => (g c).reply (ownerCode req - 1)
      (.data (BitVec.ofNat 64 ((lo.toNat + 2 ^ 32 * hi.toNat) / 256 ^ (addr.toNat % 4) % 256 ^ AccSize.b8.bytes)))) := by
  rw [exec_loRead, execLoRead]
  exact congrArg _ (s.onChip_congr _ _ (by simp [Chip.busLoad, hlo, hhi]))

/-! Accesses without an answer (R77). -/

theorem exec_busTimeout_unmapped (req : Requester) (addr : BitVec 24) (read : Bool) (s : State)
    (h : pageClass (addr.toNat / 0x1000) = none) : exec (.busTimeout req addr read) s = .next (s.onChip id) := by
  rw [exec_busTimeout, execBusTimeout]
  exact congrArg _ (s.onChip_congr _ _ (by simp [h]))

/-- 10.24 us pass, the access is logged, and only a read has an answer. -/
theorem exec_busTimeout_mapped (req : Requester) (addr : BitVec 24) (read : Bool) (s : State)
    (h : pageClass (addr.toNat / 0x1000) ≠ none) :
    exec (.busTimeout req addr read) s = .next (s.onChip fun c =>
      let d := (c.advance (c.time.now + 10240)).logErr 0x000 clsAccess 0x20 (ownerCode req) (word addr.toNat)
      if read then d.reply (ownerCode req - 1) (.data 0xFFFFFFFF) else d) := by
  rw [exec_busTimeout, execBusTimeout]
  exact congrArg _ (s.onChip_congr _ _ (by simp [h]))

/-- Only SLEEP stops any page's clock, and IDLE the clocks of the Choir's and the vision pages. -/
theorem Chip.pstate_of_clockStopped (c : Chip) (p : Nat) (h : c.clockStopped p = true) :
    c.pstate = 2 ∨ c.pstate = 1 ∧ (0x020 ≤ p ∧ p ≤ 0x034 ∨ 0x040 ≤ p ∧ p ≤ 0x060) := by
  simp only [Chip.clockStopped, Bool.or_eq_true, Bool.and_eq_true, beq_iff_eq, decide_eq_true_eq] at h
  rcases h with ⟨hi, hc | hv⟩ | ⟨hs, -⟩
  · exact .inr ⟨hi, .inr hc⟩
  · exact .inr ⟨hi, .inl hv⟩
  · exact .inl hs

/-- Settles O13: each kind of word in turn for one 32-bit read, and for eight bytes the two reads one after the other. The
unanswered access is that of log entry 21. -/
theorem registerReads : Obligations.RegisterReads := by
  unfold Obligations.RegisterReads
  refine ⟨?_, ?_, Chip.pstate_of_clockStopped⟩
  · intro req addr size s p off c answers shadow
    refine ⟨fun hp hs => ?unmapped, fun hp hr => ?mapped⟩
    case unmapped =>
      exact exec_loRead_of_busRead (fun c => c.logUse 0x000 0x02 req addr.toNat) hs (c.busRead_unmapped req _ hp)
    case mapped =>
      have h : c.Reaches addr.toNat p off := ⟨rfl, rfl, hp, hr⟩
      refine ⟨fun hl hs => ?lo, fun hl hn h8 => ?pair, fun hl hh hs => ?hi, fun hl hh hs => ?single,
        fun hl hh hl' hh' h8 => ?two⟩
      case lo => exact exec_loRead_of_busRead shadow hs (Chip.busRead_lo h req hl)
      case pair =>
        exact exec_loRead_of_busRead_two shadow shadow (Chip.busRead_lo h req hl) (Chip.busRead_hi_after_lo h req h8 hl hn)
      case hi => exact exec_loRead_of_busRead id hs (Chip.busRead_hi h req hl hh)
      case single => exact exec_loRead_of_busRead id hs (Chip.busRead_single h req hl hh)
      case two =>
        exact exec_loRead_of_busRead_two id id (Chip.busRead_single h req hl hh) (Chip.busRead_single (h.next h8) req hl' hh')
  · intro req addr s
    exact ⟨exec_busTimeout_mapped req addr true s, exec_busTimeout_mapped req addr false s,
      fun hp read => exec_busTimeout_unmapped req addr read s hp⟩

end Sys2Proof.Machine
end

section
/-! Page leases (R79-R82): what a write to LEASE does, and how the lease commands and REGISTER_WRITE come to it. -/

namespace Sys2Proof.Machine

theorem exec_registerWrite_b4 (req : Requester) (addr : BitVec 24) (v : Word) (s : State) :
    exec (.registerWrite req addr .b4 v) s = s.onMem (regWriteAll req addr.toNat .b4 v) := by
  rfl

theorem exec_acquire (req : Requester) (page : Fin 4096) (ms : BitVec 8) (s : State) :
    exec (.acquire req page ms) s = execAcquire req page ms s := by
  rfl

theorem exec_renew (req : Requester) (page : Fin 4096) (ms : BitVec 8) (s : State) :
    exec (.renew req page ms) s = execRenew req page ms s := by
  rfl

theorem exec_leaseRelease (req : Requester) (page : Fin 4096) (s : State) :
    exec (.leaseRelease req page) s = execLeaseRelease req page s := by
  rfl

/-! The rule of LEASE, case by case (R81). -/

/-- A page that its holder lets go: the LEASE word is the epoch alone, and the Verger's entry is FREE. -/
def Chip.released (c : Chip) (p : Nat) : Chip := (c.wr p 0x028 (word (c.fld p 0x028 24 8 * 2 ^ 24))).leaseFree p

theorem Chip.holds_iff (c : Chip) (req : Requester) (p : Nat) :
    c.holds req p = true ↔ c.leaseState p = 1 ∧ c.leaseOwner p = ownerCode req := by
  simp [Chip.holds]

section
variable (c : Chip) (req : Requester) {p : Nat} (hv : isVrgPage p = false)
include hv

theorem Chip.leaseWrite_several (a r n : Bool) (ms : Nat) (h : 1 < a.toNat + r.toNat + n.toNat) :
    c.leaseWrite req p a r n ms = c.logUse p 0x05 req (regAddr p 0x028) := by
  simp [Chip.leaseWrite, hv, h]

theorem Chip.leaseWrite_acquire_zero : c.leaseWrite req p true false false 0 = c := by
  simp [Chip.leaseWrite, hv]

theorem Chip.leaseWrite_acquire_free (ms : Nat) (hms : ms ≠ 0) (h : c.leaseState p = 0) :
    c.leaseWrite req p true false false ms =
      (c.wr p 0x028 (word ((c.fld p 0x028 24 8 + 1) % 256 * 2 ^ 24 + ms * 2 ^ 16 + ownerCode req * 2 ^ 8 + 2 ^ 4))).leaseGrant p := by
  have hh : c.holds req p = false := by simp [Chip.holds, h]
  simp [Chip.leaseWrite, hv, hms, h, hh]

theorem Chip.leaseWrite_acquire_taken (ms : Nat) (h : c.leaseState p ≠ 0) (hh : c.holds req p = false) :
    c.leaseWrite req p true false false ms = c := by
  simp [Chip.leaseWrite, hv, h, hh]

/-- ACQUIRE by the holder is a renewal. -/
theorem Chip.leaseWrite_acquire_held (ms : Nat) (hms : ms ≠ 0) (hh : c.holds req p = true) :
    c.leaseWrite req p true false false ms = (c.setFld p 0x028 16 8 ms).leaseGrant p := by
  simp [Chip.leaseWrite, hv, hms, hh]

theorem Chip.leaseWrite_renew_zero (hh : c.holds req p = true) : c.leaseWrite req p false false true 0 = c := by
  simp [Chip.leaseWrite, hv, hh]

theorem Chip.leaseWrite_renew_held (ms : Nat) (hms : ms ≠ 0) (hh : c.holds req p = true) :
    c.leaseWrite req p false false true ms = (c.setFld p 0x028 16 8 ms).leaseGrant p := by
  simp [Chip.leaseWrite, hv, hms, hh]

theorem Chip.leaseWrite_renew_denied (ms : Nat) (hh : c.holds req p = false) :
    c.leaseWrite req p false false true ms = c.raise p 29 := by
  simp [Chip.leaseWrite, hv, hh]

theorem Chip.leaseWrite_release_held (hh : c.holds req p = true) :
    c.leaseWrite req p false true false 0 = c.released p := by
  simp [Chip.leaseWrite, Chip.released, hv, hh]

theorem Chip.leaseWrite_release_denied (hh : c.holds req p = false) :
    c.leaseWrite req p false true false 0 = c.raise p 29 := by
  simp [Chip.leaseWrite, hv, hh]

end

/-! A released page. -/

theorem Chip.released_wordAt (c : Chip) (p a : Nat) (h : a ≠ regAddr p 0x028) : (c.released p).wordAt a = c.wordAt a := by
  simp [Chip.released, Chip.leaseFree, Chip.setLeaseAux, Chip.wordAt, Chip.wr, aget_aput_ne _ _ _ _ h.symm]

/-- A field of the word that holds a byte in its highest bits and nothing else. -/
theorem bits_word_high_byte {n : Nat} (hn : n < 256) (lo w : Nat) :
    bits (word (n * 2 ^ 24)).toNat lo w = bits (n * 2 ^ 24) lo w := by
  rw [word, BitVec.toNat_ofNat, Nat.mod_eq_of_lt (by omega)]

theorem Chip.released_fld (c : Chip) (p lo w : Nat) :
    (c.released p).fld p 0x028 lo w = bits (c.fld p 0x028 24 8 * 2 ^ 24) lo w := by
  have hrd : (c.released p).rd p 0x028 = word (c.fld p 0x028 24 8 * 2 ^ 24) := Chip.rd_wr_same ..
  rw [Chip.fld, hrd, bits_word_high_byte (bits_lt _ _ _)]

theorem Chip.released_state (c : Chip) (p : Nat) : (c.released p).leaseState p = 0 := by
  have h : (c.released p).fld p 0x028 4 4 = 0 := by rw [c.released_fld, bits]; omega
  simp [Chip.leaseState, h]

theorem Chip.released_owner (c : Chip) (p : Nat) : (c.released p).leaseOwner p = 0 := by
  rw [Chip.leaseOwner, c.released_fld, bits]; omega

theorem Chip.released_epoch (c : Chip) (p : Nat) : (c.released p).fld p 0x028 24 8 = c.fld p 0x028 24 8 := by
  have hlt : c.fld p 0x028 24 8 < 2 ^ 8 := bits_lt _ _ _
  rw [c.released_fld, bits]; omega

/-! From a command to the rule. -/

/-- Without an override sequence in progress a write to page 0x008 cuts nothing short (R444). -/
theorem Chip.ovrCut_idle (c : Chip) (p : Nat) (h : p = 0x008 → c.pwr.ovrCount = 0) : c.ovrCut p = c := by
  by_cases hp : p = 0x008
  · simp [Chip.ovrCut, Chip.ovrBreak, hp, h hp]
  · simp [Chip.ovrCut, hp]

/-- A header write that passes the checks leaves what its rule makes of this chip. -/
theorem State.onChip_ovrCut_gated {s : State} {req : Requester} {p off : Nat} {f g : Chip → Chip} (hp : s.passes req p off)
    (ho : p = 0x008 → s.chip.pwr.ovrCount = 0) (h : f s.chip = g s.chip) :
    s.onChip (fun c => (c.ovrCut p).gated req p off f) = s.onChip g :=
  s.onChip_congr _ _ (by rw [Chip.ovrCut_idle _ _ ho, Chip.gated_pass _ _ _ _ _ hp, h])

/-- A whole register write that passes the checks is what the register makes of it. -/
theorem regWriteWith_pass (take : WM Unit) (req : Requester) (addr : Nat) (size : RegSize) (w : Work)
    (hg : w.chip.gate req addr size = .pass) (ho : addr / 0x1000 = 0x008 → w.chip.pwr.ovrCount = 0) :
    regWriteWith take req addr size w = take w := by
  have hc : w.chip.ovrCut (addr / 0x1000) = w.chip := Chip.ovrCut_idle _ _ ho
  by_cases ha : addr % 0x1000 = 0x0D8 <;> simp [regWriteWith, ha, hc, hg]

/-- Every pair that can be written lies above the header. -/
theorem classPairs_above_header : ∀ k, ∀ q ∈ classPairs k, 0x040 ≤ q.1 := by
  intro k; cases k <;> decide

theorem pairLo_header (p : Nat) {off : Nat} (h : off < 0x040) : pairLo p off ≠ some true := by
  unfold pairLo
  cases pageClass p with
  | none => simp
  | some k =>
    have hf : (classPairs k).find? (fun q => decide (q.1 ≤ off) && decide ((off - q.1) % q.2.2.1 = 0) &&
        decide ((off - q.1) / q.2.2.1 < q.2.1)) = none := by
      rw [List.find?_eq_none]
      intro q hq
      have := classPairs_above_header k q hq
      simp; omega
    by_cases he : off = 0x020 <;> simp [he, hf]

theorem pairHi_header (p : Nat) {off : Nat} (h : off < 0x040) : pairHi p off ≠ some true := by
  unfold pairHi
  split
  · exact pairLo_header p (by omega)
  · simp

theorem inst_below {off base : Nat} (h : off < base) (stride n : Nat) (at? : List Nat) : inst off base stride n at? = none := by
  simp [inst, Nat.not_le.mpr h]

/-- No header register is ever locked. -/
theorem Chip.locked_header (c : Chip) (p : Nat) {off : Nat} (h : off < 0x040) : c.locked p off = none := by
  have hle : ∀ n, 0x040 ≤ n → ¬ n ≤ off := by omega
  have hne : ∀ n, 0x040 ≤ n → off ≠ n := by omega
  have hi : ∀ base stride n at?, 0x040 ≤ base → inst off base stride n at? = none := fun _ _ _ _ _ =>
    inst_below (by omega) _ _ _
  unfold Chip.locked
  split
  · rfl
  · cases pageClass p with
    | none => rfl
    | some k => cases k <;> simp [hle, hne, hi]

theorem Chip.lockedPair_header (c : Chip) (p : Nat) {off : Nat} (h : off < 0x040) : c.lockedPair p off = none := by
  simp [Chip.lockedPair, c.locked_header p h, pairHi_header p h]

/-- A header register that is written takes the header's rule on every page, the slots' among them. -/
theorem regTakeAll_header (req : Requester) (p : Nat) {off : Nat} (v : Word) (w : Work) (h : off < 0x040) :
    regTakeAll req p off v w = headerWrite req p off v w := by
  have h1 : off ≠ 0x078 := by omega
  have h2 : off ≠ 0x0A8 := by omega
  have h3 : off ≠ 0x0B0 := by omega
  simp [regTakeAll, h1, h2, h3, regTake, pairLo_header p h, Chip.lockedPair_header _ p h, h]

section
variable {req : Requester} {page : Fin 4096} {s : State} (hp : s.passes req page 0x028)
  (ho : page.val = 0x008 → s.chip.pwr.ovrCount = 0)
include hp ho

/-! A lease command leaves what the rule of LEASE makes of this chip. -/

theorem exec_acquire_eq (ms : BitVec 8) (f : Chip → Chip) (h : s.chip.leaseWrite req page true false false ms.toNat = f s.chip) :
    exec (.acquire req page ms) s = .next (s.onChip f) := by
  rw [exec_acquire, execAcquire, State.onChip_ovrCut_gated hp ho h]

theorem exec_renew_eq (ms : BitVec 8) (f : Chip → Chip) (h : s.chip.leaseWrite req page false false true ms.toNat = f s.chip) :
    exec (.renew req page ms) s = .next (s.onChip f) := by
  rw [exec_renew, execRenew, State.onChip_ovrCut_gated hp ho h]

theorem exec_leaseRelease_eq (f : Chip → Chip) (h : s.chip.leaseWrite req page false true false 0 = f s.chip) :
    exec (.leaseRelease req page) s = .next (s.onChip f) := by
  rw [exec_leaseRelease, execLeaseRelease, State.onChip_ovrCut_gated hp ho h]

theorem regWriteAll_lease (v : Word) : (regWriteAll req (regAddr page 0x028) .b4 v s.work).2 =
    { s.work with chip := s.chip.leaseWord req page v } := by
  have hpage : regAddr page 0x028 / 0x1000 = page := by unfold regAddr; omega
  have hoff : regAddr page 0x028 % 0x1000 / 4 * 4 = 0x028 := by unfold regAddr; omega
  rw [regWriteAll, regWriteWith_pass _ req (regAddr page 0x028) .b4 s.work hp (by rwa [hpage]), hpage, hoff,
    regTakeAll_header req page v s.work (by omega)]
  rfl

theorem exec_registerWrite_lease (v : Word) : exec (.registerWrite req (BitVec.ofNat 24 (regAddr page 0x028)) .b4 v) s =
    .next (s.onChip fun c => c.leaseWord req page v) := by
  have haddr : (BitVec.ofNat 24 (regAddr page 0x028)).toNat = regAddr page 0x028 := by
    rw [BitVec.toNat_ofNat]; unfold regAddr; omega
  rw [exec_registerWrite_b4, haddr]
  exact s.onMem_of_chip _ (fun c => c.leaseWord req page v) (regWriteAll_lease hp ho v)

end

/-- Settles O16: the lease commands and the register write come to the one rule of LEASE, whose case the lease's state, its holder
and the timeout pick. That a released page is nobody's and keeps its epoch is log entry 17. -/
theorem pageLeases : Obligations.PageLeases := by
  unfold Obligations.PageLeases
  intro req page ms s hp hv ho c
  have hms : ms ≠ 0 → ms.toNat ≠ 0 := fun h hn => h (BitVec.eq_of_toNat_eq hn)
  have held : c.leaseState page = 1 → c.leaseOwner page = ownerCode req → c.holds req page = true :=
    fun hs hw => (c.holds_iff req page).mpr ⟨hs, hw⟩
  refine ⟨fun hs hm => ?free, fun hs hw hm => ?renewal, fun hs hw => ?release, fun hs hh => ?taken, fun hh => ?denied,
    ?acquireZero, fun hs hw => ?renewZero, fun v h => ?several⟩
  case free => exact exec_acquire_eq hp ho ms _ (c.leaseWrite_acquire_free req hv _ (hms hm) hs)
  case renewal =>
    rintro i (rfl | rfl)
    · exact exec_acquire_eq hp ho ms _ (c.leaseWrite_acquire_held req hv _ (hms hm) (held hs hw))
    · exact exec_renew_eq hp ho ms _ (c.leaseWrite_renew_held req hv _ (hms hm) (held hs hw))
  case release =>
    exact ⟨_, exec_leaseRelease_eq hp ho (·.released page) (c.leaseWrite_release_held req hv (held hs hw)), ⟨rfl, rfl, rfl⟩,
      c.released_state page, c.released_owner page, c.released_epoch page, c.released_wordAt page⟩
  case taken => exact exec_acquire_eq hp ho ms id (c.leaseWrite_acquire_taken req hv _ hs hh)
  case denied =>
    rintro i (rfl | rfl)
    · exact exec_renew_eq hp ho ms _ (c.leaseWrite_renew_denied req hv _ hh)
    · exact exec_leaseRelease_eq hp ho _ (c.leaseWrite_release_denied req hv hh)
  case acquireZero => exact exec_acquire_eq hp ho 0 id (c.leaseWrite_acquire_zero req hv)
  case renewZero => exact exec_renew_eq hp ho 0 id (c.leaseWrite_renew_zero req hv (held hs hw))
  case several =>
    rw [exec_registerWrite_lease hp ho v]
    exact congrArg _ (s.onChip_congr _ _ (c.leaseWrite_several req hv _ _ _ _ h))

end Sys2Proof.Machine
end

section
/-! Computations by what they answer: one step after another, a choice, a loop that changes nothing, and the same for computations
that may end with an error. -/

namespace Sys2Proof.Machine

theorem WM.bind_of_eq {α β : Type} {m : WM α} {k : α → WM β} {w v : Work} {a : α} {x : β × Work} (hm : m w = (a, v))
    (hk : k a v = x) : (m >>= k) w = x := by
  rw [WM.bind_apply, hm, hk]

theorem WM.ite_of_eq {α : Type} {p : Prop} [Decidable p] {a b : WM α} {w : Work} {x : α × Work} (ha : p → a w = x)
    (hb : ¬p → b w = x) : (if p then a else b) w = x := by
  split
  · next hp => exact ha hp
  · next hp => exact hb hp

/-- A loop whose every pass leaves the work in hand as it is. -/
theorem WM.forIn_of_idle {α : Type} (f : α → PUnit → WM (ForInStep PUnit)) (w : Work) :
    ∀ l : List α, (∀ a ∈ l, f a ⟨⟩ w = (.yield ⟨⟩, w)) → (forIn l ⟨⟩ f : WM PUnit) w = (⟨⟩, w)
  | [], _ => by simp
  | a :: l, h => by
    rw [List.forIn_cons]
    exact WM.bind_of_eq (h a List.mem_cons_self) (WM.forIn_of_idle f w l fun b hb => h b (List.mem_cons_of_mem _ hb))

theorem WM.bind_chipM_apply (m : WM Unit) (f : Chip → Chip) (w : Work) : (m >>= fun _ => chipM f) w = ((), (m w).2.onChip f) := rfl

theorem useChip_apply {α : Type} (f : Chip → α × Chip) (w : Work) :
    (modifyGet fun w => w.useChip f : WM α) w = ((f w.chip).1, { w with chip := (f w.chip).2 }) := rfl

theorem EM.bind_of_ok {α β : Type} {m : EM α} {k : α → EM β} {w v : Work} {a : α} {x : Except Nat β × Work}
    (hm : m.run w = (.ok a, v)) (hk : (k a).run v = x) : (m >>= k).run w = x := by
  rw [ExceptT.run_bind]
  exact WM.bind_of_eq hm hk

theorem EM.liftM_apply {α : Type} {m : WM α} {w v : Work} {a : α} (h : m w = (a, v)) : (liftM m : EM α).run w = (.ok a, v) :=
  (WM.map_apply Except.ok m w).trans (by rw [h])

/-! A whole command. -/

/-- A computation that leaves the work in hand but for the chip is a command that only changes the chip. -/
theorem State.onMem_of_eq (s : State) {m : WM Unit} {f : Chip → Chip} (h : m s.work = ((), s.work.onChip f)) :
    s.onMem m = .next (s.onChip f) := s.onMem_of_chip m f (congrArg Prod.snd h)

/-- The state after a command that touches memory, by the work that its computation leaves. -/
theorem State.after_onWork (s : State) (m : WM Unit) {w : Work} {f : Chip → Chip} (h : m s.work = ((), w.onChip f)) :
    s.after (s.onWork fun w => (m w).2) w f := by
  have h2 : (m { chip := s.chip, mem := s.mem, fuses := s.fuses, ops := [] }).2 = w.onChip f := congrArg Prod.snd h
  refine ⟨rfl, rfl, ?_, ?_⟩
  · rw [s.onWork_mem, h2]; rfl
  · rw [s.onWork_chip, h2]; rfl

end Sys2Proof.Machine
end

section
/-! Event counters (R176, R177): a counter read and set, and what the scoreboard and the graph slots make of an increase: it reaches
no other counter, and no frame posts a command by it. -/

namespace Sys2Proof.Machine

/-! A counter read and set. -/

/-- The number that a pair of registers was set to. -/
theorem Chip.rd64_wr64_same (c : Chip) (p off v : Nat) (h : v < 2 ^ 64) : (c.wr64 p off v).rd64 p off = v := by
  have hne : regAddr p (off + 4) ≠ regAddr p off := regAddr_off_ne _ _ _ (by omega)
  simp only [Chip.rd64, Chip.wr64, Chip.rd_wr_same, Chip.rd_wr_ne _ _ _ _ _ _ hne, word, BitVec.toNat_ofNat]
  omega

theorem Chip.evt_lt (c : Chip) (e : Nat) : c.evt e < 2 ^ 64 := by
  have hlo := (c.rd 0x011 (0x040 + 8 * e)).isLt
  have hhi := (c.rd 0x011 (0x040 + 8 * e + 4)).isLt
  unfold Chip.evt Chip.rd64
  omega

theorem Chip.evt_congr {c d : Chip} (h : d.regs = c.regs) (x : Nat) : d.evt x = c.evt x := by
  simp [Chip.evt, Chip.rd64, Chip.rd, h]

/-- A register that is no half of a pair changes nothing of it. -/
theorem Chip.rd64_wr_ne (c : Chip) {p off p' off' : Nat} (v : Word) (h0 : regAddr p off ≠ regAddr p' off')
    (h4 : regAddr p off ≠ regAddr p' (off' + 4)) : (c.wr p off v).rd64 p' off' = c.rd64 p' off' := by
  rw [Chip.rd64, c.rd_wr_ne _ _ _ _ _ h0, c.rd_wr_ne _ _ _ _ _ h4, Chip.rd64]

theorem Chip.evt_wr64_same (c : Chip) (e v : Nat) (h : v < 2 ^ 64) : (c.wr64 0x011 (0x040 + 8 * e) v).evt e = v :=
  c.rd64_wr64_same _ _ _ h

theorem Chip.evt_wr64_ne (c : Chip) {e x : Nat} (v : Nat) (h : x ≠ e) : (c.wr64 0x011 (0x040 + 8 * e) v).evt x = c.evt x := by
  have hne : ∀ a b, a < 8 → b < 8 → regAddr 0x011 (0x040 + 8 * e + a) ≠ regAddr 0x011 (0x040 + 8 * x + b) :=
    fun a b _ _ => regAddr_off_ne _ _ _ (by omega)
  calc (c.wr64 0x011 (0x040 + 8 * e) v).evt x = (c.wr 0x011 (0x040 + 8 * e) (word v)).evt x :=
        Chip.rd64_wr_ne _ _ (hne 4 0 (by omega) (by omega)) (hne 4 4 (by omega) (by omega))
    _ = c.evt x := Chip.rd64_wr_ne _ _ (hne 0 0 (by omega) (by omega)) (hne 0 4 (by omega) (by omega))

/-- A register of another page is part of no counter. -/
theorem Chip.evt_wr_page_ne (c : Chip) {p off x : Nat} (v : Word) (hp : p ≠ 0x011) (ho : off < 0x1000) (hx : x < 256) :
    (c.wr p off v).evt x = c.evt x :=
  c.rd64_wr_ne v (regAddr_page_ne _ _ _ _ hp ho (by omega)) (regAddr_page_ne _ _ _ _ hp ho (by omega))

/-! What the scoreboard and the graph slots leave of an increase (R302, R309). -/

/-- A frame of the slot has posted the command of a queue at a count. -/
def GSlot.posts (s : GSlot) (q : Nat) (n : Word) : Bool := s.frames.any fun f => f.cmds.any fun k => k.q == q && k.count == n

theorem Chip.posted_eq (c : Chip) (q : Nat) (n : Word) : c.posted q n = c.prc.slots.any fun g => g.2.posts q n := rfl

theorem Chip.posted_congr {c d : Chip} (h : d.prc = c.prc) (q : Nat) (n : Word) : d.posted q n = c.posted q n := by
  simp [Chip.posted, h]

theorem mem_of_aget {β : Type} {l : List (Nat × β)} {x : Nat} {v : β} (h : aget l x = some v) : (x, v) ∈ l := by
  induction l with
  | nil => simp [aget] at h
  | cons p l ih =>
    obtain ⟨k, w⟩ := p
    by_cases hk : k = x
    · simp_all [aget]
    · exact List.mem_cons_of_mem _ (ih (by rwa [aget_cons_ne hk] at h))

/-- The graph slots' pages are not the counters'. -/
theorem pgSlot_ne_evtPage (g : Nat) : pgSlot g ≠ 0x011 := by unfold pgSlot; omega

theorem Chip.stepTime_gslot (c : Chip) (g : Nat) (s : GSlot) : (c.stepTime g s).2.gslot g = c.gslot g := by
  unfold Chip.stepTime
  split
  · rfl
  · split <;> rfl

/-- From one chip to the next every counter stands, and no command counts as posted by a frame that did not before. -/
structure Chip.KeepsCounts (c d : Chip) : Prop where
  evt : ∀ x, x < 256 → d.evt x = c.evt x
  posted : ∀ q n, c.posted q n = false → d.posted q n = false

namespace Chip.KeepsCounts

theorem refl (c : Chip) : c.KeepsCounts c := ⟨fun _ _ => rfl, fun _ _ h => h⟩

theorem trans {a b c : Chip} (h : a.KeepsCounts b) (k : b.KeepsCounts c) : a.KeepsCounts c :=
  ⟨fun x hx => (k.evt x hx).trans (h.evt x hx), fun q n hn => k.posted q n (h.posted q n hn)⟩

theorem of_eq {c d : Chip} (hr : d.regs = c.regs) (hp : d.prc = c.prc) : c.KeepsCounts d :=
  ⟨fun x _ => Chip.evt_congr hr x, fun q n h => (Chip.posted_congr hp q n).trans h⟩

theorem wr (c : Chip) {p off : Nat} (v : Word) (hp : p ≠ 0x011) (ho : off < 0x1000) : c.KeepsCounts (c.wr p off v) :=
  ⟨fun _ hx => c.evt_wr_page_ne v hp ho hx, fun _ _ h => h⟩

theorem foldl {α : Type} (c : Chip) (l : List α) (f : Chip → α → Chip) (h : ∀ d : Chip, ∀ a ∈ l, d.KeepsCounts (f d a)) :
    c.KeepsCounts (l.foldl f c) :=
  List.foldlRecOn l f (motive := c.KeepsCounts) (refl c) fun d hd a ha => hd.trans (h d a ha)

/-- A slot replaced by one whose frames have posted no more than those of the slot that was there. -/
theorem setGslot {c : Chip} {g : Nat} {s t : GSlot} (hs : c.gslot g = some s)
    (ht : ∀ q n, s.posts q n = false → t.posts q n = false) : c.KeepsCounts (c.setGslot g (some t)) := by
  refine ⟨fun _ _ => rfl, fun q n h => ?_⟩
  rw [Chip.posted_eq, List.any_eq_false] at h ⊢
  intro r hr
  rcases mem_aput hr with rfl | hr
  · simpa using ht q n (by simpa using h _ (mem_of_aget hs))
  · exact h r hr

/-! A register of a graph slot's page. -/

theorem wrSlot (c : Chip) (g : Nat) {off : Nat} (v : Word) (ho : off < 0x1000) : c.KeepsCounts (c.wr (pgSlot g) off v) :=
  wr c v (pgSlot_ne_evtPage g) ho

theorem countSlot (c : Chip) (g off n : Nat) (ho : off < 0x1000) : c.KeepsCounts (c.count (pgSlot g) off n) := wrSlot c g _ ho

theorem raiseSlot (c : Chip) (g b : Nat) : c.KeepsCounts (c.raise (pgSlot g) b) := wrSlot c g _ (by decide)

theorem setGstate (c : Chip) (g s : Nat) : c.KeepsCounts (c.setGstate g s) := wrSlot c g _ (by decide)

/-- A scoreboard entry that is hit lies on the page before the counters'. -/
theorem sbHit (c : Chip) (e : Nat) : c.KeepsCounts (c.sbHit e) := by
  refine foldl c _ _ fun d n hn => ?_
  have hoff : 0x100 + 16 * n + 8 < 0x1000 := by have := List.mem_range.mp hn; omega
  dsimp only
  split
  · exact wr d _ (by decide) hoff
  · exact refl d

theorem stepTime (c : Chip) (g : Nat) (s : GSlot) : c.KeepsCounts (c.stepTime g s).2 := by
  unfold Chip.stepTime
  split
  · exact refl c
  · split
    · exact refl c
    · exact of_eq rfl rfl

theorem noteAdmit (c : Chip) (g : Nat) : c.KeepsCounts (c.noteAdmit g) := by
  unfold Chip.noteAdmit
  split
  · exact refl c
  · next s hs =>
    have hslot : (c.stepTime g s).2.gslot g = some s := (c.stepTime_gslot g s).trans hs
    have hcount := (countSlot (c.stepTime g s).2 g 0x084 1 (by decide)).trans (countSlot _ g 0x088 1 (by decide))
    exact (stepTime c g s).trans (hcount.trans (setGslot hslot fun q n h => by simpa [GSlot.posts] using h))

theorem noteRun (c : Chip) (g : Nat) (run : Bool) : c.KeepsCounts (c.noteRun g run) := by
  unfold Chip.noteRun
  split
  · exact refl c
  · next s hs =>
    have hset := setGslot (t := { s with decided := s.decided + 1, frames := s.frames.map fun (f : GFrame) =>
      if f.a = s.decided then { f with run := some run } else f }) hs fun q n h => by
        simp only [GSlot.posts, List.any_map, List.any_eq_false] at h ⊢
        intro f hf
        simpa [apply_ite GFrame.cmds] using h f hf
    dsimp only
    split
    · exact hset
    · exact hset.trans ((countSlot _ g 0x090 1 (by decide)).trans (raiseSlot _ g 2))

section
variable {c : Chip} {g : Nat} {s : GSlot} (hs : c.gslot g = some s)
include hs

theorem noteCommit (inc : Nat) : c.KeepsCounts (c.noteCommit g s inc) := by
  refine (setGslot hs fun q n h => ?_).trans (wrSlot _ g _ (by decide))
  simp only [GSlot.posts, List.any_eq_false] at h ⊢
  exact fun f hf => h f (List.mem_filter.mp hf).1

theorem noteSwitch (inc : Nat) : c.KeepsCounts (c.noteSwitch g s inc) := by
  refine (setGslot hs fun q n h => ?_).trans (setGstate _ g 5)
  exact h

end

theorem gFailed (c : Chip) (g : Nat) : c.KeepsCounts (c.gFailed g) := (setGstate c g 6).trans (raiseSlot _ g 4)

theorem slotNote (c : Chip) (g e inc : Nat) : c.KeepsCounts (c.slotNote g e inc) := by
  unfold Chip.slotNote
  split
  · exact refl c
  · next s hs =>
    dsimp only
    split
    · exact refl c
    split
    · exact gFailed c g
    split
    · exact foldl c _ _ fun d _ _ => noteAdmit d g
    · refine (setGslot hs fun q n h => ?_).trans (countSlot _ g 0x084 inc (by decide))
      exact h
    · exact foldl c _ _ fun d _ _ => noteRun d g true
    · exact foldl c _ _ fun d _ _ => noteRun d g false
    · exact noteCommit hs inc
    · exact noteSwitch hs inc
    · exact refl c

theorem prcNote (c : Chip) (e inc : Nat) : c.KeepsCounts (c.prcNote e inc) := foldl c _ _ fun d g _ => slotNote d g e inc

end Chip.KeepsCounts

/-! A SIGNAL on a counter of this chip (R177). -/

/-- After the counter itself is set, only the scoreboard and the graph slots learn of it. -/
theorem Chip.signal_keepsCounts (c : Chip) (e inc : Nat) :
    (c.wr64 0x011 (0x040 + 8 * e) (min (c.evt e + inc) (2 ^ 64 - 1))).KeepsCounts (c.signal e inc).2 := by
  simp only [Chip.signal]
  exact (Chip.KeepsCounts.sbHit _ e).trans (Chip.KeepsCounts.prcNote _ e inc)

theorem Chip.signal_evt_same (c : Chip) (e inc : Nat) (h : e < 256) :
    (c.signal e inc).2.evt e = min (c.evt e + inc) (2 ^ 64 - 1) := by
  have hlt : min (c.evt e + inc) (2 ^ 64 - 1) < 2 ^ 64 := lt_of_le_of_lt (Nat.min_le_right _ _) (by decide)
  rw [(c.signal_keepsCounts e inc).evt e h, c.evt_wr64_same _ _ hlt]

theorem Chip.signal_evt_ne (c : Chip) {e x : Nat} (inc : Nat) (hx : x < 256) (hne : x ≠ e) : (c.signal e inc).2.evt x = c.evt x := by
  rw [(c.signal_keepsCounts e inc).evt x hx, c.evt_wr64_ne _ hne]

theorem Chip.signal_posted (c : Chip) (e inc q : Nat) (n : Word) (h : c.posted q n = false) : (c.signal e inc).2.posted q n = false :=
  (c.signal_keepsCounts e inc).posted q n h

theorem Chip.settle_evt (c : Chip) (x : Nat) : c.settle.evt x = c.evt x := Chip.evt_congr c.settle_regs x

/-- The answer of a SIGNAL says whether the sum passes 2^64 - 1. -/
theorem Chip.signal_eq (c : Chip) (e inc : Nat) : c.signal e inc = (decide (2 ^ 64 ≤ c.evt e + inc), (c.signal e inc).2) := by
  simp only [Chip.signal]

end Sys2Proof.Machine
end

section
/-! What a memory access leaves of the Precentor: a completion record (R173) is written through the Rood, whose faults, waits and
window copies reach neither the graph slots nor the frames in flight. -/

namespace Sys2Proof.Machine

/-! Changes of the chip that an access makes. -/

@[simp] theorem Chip.draw_prc (c : Chip) : c.draw.2.prc = c.prc := rfl
@[simp] theorem Chip.stamp_prc (c : Chip) (bound : Nat) : (c.stamp bound).2.prc = c.prc := rfl
@[simp] theorem Chip.countSat_prc (c : Chip) (p off w n : Nat) : (c.countSat p off w n).prc = c.prc := rfl
@[simp] theorem Chip.dropWb_prc (c : Chip) (g : Nat) : (c.dropWb g).prc = c.prc := rfl
@[simp] theorem Chip.retireDone_prc (c : Chip) (s : Nat) : (c.retireDone s).prc = c.prc := rfl
@[simp] theorem Chip.setRunning_prc (c : Chip) (q : Nat) (r : Option Running) : (c.setRunning q r).prc = c.prc := rfl
@[simp] theorem Chip.setQstate_prc (c : Chip) (q s : Nat) : (c.setQstate q s).prc = c.prc := rfl

@[simp] theorem Chip.ticks_prc (c : Chip) (n : Nat) : (c.ticks n).prc = c.prc := by
  unfold Chip.ticks
  dsimp only
  split <;> rfl

@[simp] theorem Chip.stepTb_prc (c : Chip) (v : DWord) : (c.stepTb v).prc = c.prc := rfl

@[simp] theorem Chip.advance_prc (c : Chip) (t : Nat) : (c.advance t).prc = c.prc := by
  unfold Chip.advance
  dsimp only
  split
  · rfl
  · split <;> simp

/-- Changes that each leave the Precentor as it is leave it so together. -/
theorem Chip.foldl_prc {α : Type} (c : Chip) (l : List α) (f : Chip → α → Chip) (h : ∀ d a, (f d a).prc = d.prc) :
    (l.foldl f c).prc = c.prc :=
  List.foldlRecOn l f (motive := fun d => d.prc = c.prc) rfl fun d hd a _ => (h d a).trans hd

@[simp] theorem Chip.dropLocks_prc (c : Chip) (ns : List Nat) : (c.dropLocks ns).prc = c.prc :=
  c.foldl_prc ns _ fun _ _ => rfl

@[simp] theorem Chip.freeLocks_prc (c : Chip) (q : Nat) : (c.freeLocks q).prc = c.prc := c.dropLocks_prc _

theorem Chip.memc_prc (c : Chip) (m : MemCtl) : { c with memc := m }.prc = c.prc := rfl

@[simp] theorem Chip.clsWait_prc (c : Chip) : c.clsWait.prc = c.prc := by
  unfold Chip.clsWait
  split
  · exact (Chip.memc_prc _ _).trans ((Chip.setBit_prc _ _ _ _ _).trans (c.advance_prc _))
  · rfl

@[simp] theorem Chip.noteCe_prc (c : Chip) (pa : Nat) : (c.noteCe pa).prc = c.prc := by
  unfold Chip.noteCe
  split <;> simp

@[simp] theorem Chip.noteUe_prc (c : Chip) (pa src : Nat) : (c.noteUe pa src).prc = c.prc := by
  unfold Chip.noteUe
  split <;> simp

@[simp] theorem Chip.notePoison_prc (c : Chip) (pa : Nat) : (c.notePoison pa).prc = c.prc := by
  unfold Chip.notePoison
  split <;> simp

@[simp] theorem Chip.pendWb_prc (c : Chip) (g : Nat) : (c.pendWb g).prc = c.prc := by
  unfold Chip.pendWb
  split <;> rfl

@[simp] theorem Chip.refreshStalls_prc (c : Chip) : c.refreshStalls.prc = c.prc := by
  rw [Chip.refreshStalls, Chip.wr_prc]
  exact c.foldl_prc _ _ fun _ _ => rfl

@[simp] theorem Chip.roodFault_prc (c : Chip) (ctx : Nat) (k : AccType) (va code src : Nat) :
    (c.roodFault ctx k va code src).prc = c.prc := by
  unfold Chip.roodFault
  split
  next t d hd =>
    have h : d.prc = c.prc := by rw [← c.stamp_prc 5, hd]
    dsimp only
    split <;> simpa using h

/-! Computations. -/

/-- The computation leaves the Precentor's slots, frames and losses as it finds them. -/
def KeepsPrc {α : Type} (m : WM α) : Prop := ∀ w, (m w).2.chip.prc = w.chip.prc

theorem KeepsPrc.pure {α : Type} (a : α) : KeepsPrc (pure a) := fun _ => rfl

theorem KeepsPrc.bind {α β : Type} {m : WM α} {k : α → WM β} (hm : KeepsPrc m) (hk : ∀ a, KeepsPrc (k a)) : KeepsPrc (m >>= k) :=
  fun w => (hk (m w).1 (m w).2).trans (hm w)

theorem KeepsPrc.map {α β : Type} {m : WM α} (f : α → β) (hm : KeepsPrc m) : KeepsPrc (f <$> m) := fun w => hm w

theorem KeepsPrc.get : KeepsPrc get := fun _ => rfl
theorem KeepsPrc.getChip : KeepsPrc getChip := fun _ => rfl
theorem KeepsPrc.emit (op : MemOp) : KeepsPrc (emit op) := fun _ => rfl
theorem KeepsPrc.drawM : KeepsPrc drawM := fun _ => rfl

theorem KeepsPrc.onChip {f : Chip → Chip} (h : ∀ c, (f c).prc = c.prc) : KeepsPrc (chipM f) := fun w => h w.chip

theorem KeepsPrc.ite {α : Type} {p : Prop} [Decidable p] {a b : WM α} (ha : KeepsPrc a) (hb : KeepsPrc b) :
    KeepsPrc (if p then a else b) := by
  split
  · exact ha
  · exact hb

theorem KeepsPrc.mapM {α β : Type} {f : α → WM β} (h : ∀ a, KeepsPrc (f a)) : ∀ l : List α, KeepsPrc (l.mapM f)
  | [] => by simpa using pure _
  | a :: l => by
    rw [List.mapM_cons]
    exact bind (h a) fun _ => bind (mapM h l) fun _ => pure _

theorem KeepsPrc.loop {α β : Type} {f : α → β → WM (ForInStep β)} (h : ∀ a b, KeepsPrc (f a b)) :
    ∀ (l : List α) (b : β), KeepsPrc (forIn l b f)
  | [], b => by simpa using pure _
  | a :: l, b => by
    rw [List.forIn_cons]
    refine bind (h a b) fun x => ?_
    cases x with
    | done b => exact pure b
    | yield b => exact loop h l b

/-! The same for computations that may end with an error. -/

theorem KeepsPrc.bindE {α β : Type} {m : EM α} {k : α → EM β} (hm : KeepsPrc m.run) (hk : ∀ a, KeepsPrc (k a).run) :
    KeepsPrc (m >>= k).run := by
  rw [ExceptT.run_bind]
  refine bind hm fun x => ?_
  cases x with
  | ok a => exact hk a
  | error e => exact pure _

theorem KeepsPrc.loopE {α β : Type} {f : α → β → EM (ForInStep β)} (h : ∀ a b, KeepsPrc (f a b).run) :
    ∀ (l : List α) (b : β), KeepsPrc (forIn l b f : EM β).run
  | [], b => by simpa using pure _
  | a :: l, b => by
    rw [List.forIn_cons]
    refine bindE (h a b) fun x => ?_
    cases x with
    | done b => exact pure _
    | yield b => exact loopE h l b

/-! Memory. -/

theorem readGranule_keepsPrc (src pa n : Nat) : KeepsPrc (readGranule src pa n) := by
  refine .bind .get fun w => ?_
  split
  · exact .pure _
  · exact .bind (.onChip fun c => by simp) fun _ => .bind (.emit _) fun _ => .pure _
  · exact .bind (.onChip fun c => by simp) fun _ => .bind (.emit _) fun _ => .pure _
  · exact .bind (.onChip fun c => by simp) fun _ => .pure _

theorem storeGranule_keepsPrc (pa : Nat) (bytes : List Byte) (m : Option Mark) : KeepsPrc (storeGranule pa bytes m) := by
  refine .bind .getChip fun c => .bind (.loop (fun _ _ => .bind (.emit _) fun _ => .pure _) _ _) fun _ => .ite ?_ (.pure _)
  exact .bind (.emit _) fun _ => .onChip fun c => by simp

theorem writeGranule_keepsPrc (src pa n off : Nat) (new : List (Option Byte)) : KeepsPrc (writeGranule src pa n off new) := by
  refine .bind .get fun w => .ite (storeGranule_keepsPrc _ _ _) ?_
  dsimp only
  split
  · exact storeGranule_keepsPrc _ _ _
  · exact .bind (.onChip fun c => by simp) fun _ => storeGranule_keepsPrc _ _ _
  · exact .bind (.onChip fun c => by simp) fun _ => storeGranule_keepsPrc _ _ _
  · exact storeGranule_keepsPrc _ _ _

theorem hostRead_keepsPrc (pa n : Nat) : KeepsPrc (hostRead pa n) := by
  refine .bind .get fun w => .ite (.bind (.onChip fun c => by simp) fun _ => .pure _) ?_
  refine .ite (.bind (.onChip fun c => rfl) fun _ => .pure _) ?_
  split
  · exact .bind (.onChip fun c => by simp) fun _ => .pure _
  · exact .pure _

theorem hostWrite_keepsPrc (pa : Nat) (bytes : List (Option Byte)) : KeepsPrc (hostWrite pa bytes) := by
  refine .bind .getChip fun c => .ite (.pure _) ?_
  split
  · exact .onChip fun c => by simp
  · exact .bind (.loop (fun _ _ => .bind (.emit _) fun _ => .pure _) _ _) fun _ => .pure _

theorem waitAccess_keepsPrc (src pa n : Nat) : KeepsPrc (waitAccess src pa n) :=
  .ite (.bind (.onChip fun c => by simp) fun _ => .onChip fun c => by simp) (.pure _)

theorem readPhys_keepsPrc (src pa n : Nat) : KeepsPrc (readPhys src pa n) := by
  refine .ite (.bind (hostRead_keepsPrc pa n) fun _ => .pure _) ?_
  refine .bind (waitAccess_keepsPrc src pa n) fun _ => .bind .getChip fun c => .bind (.mapM (fun a => ?_) _) fun _ => .pure _
  refine .bind (readGranule_keepsPrc _ _ _) fun x => ?_
  cases x <;> exact .pure _

theorem writePhys_keepsPrc (src pa : Nat) (bytes : List (Option Byte)) : KeepsPrc (writePhys src pa bytes) := by
  refine .bind (waitAccess_keepsPrc _ _ _) fun _ => .bind .getChip fun c => ?_
  split
  · exact .bind (hostWrite_keepsPrc _ _) fun _ => .pure _
  · refine .ite (.bind (.onChip fun c => by simp) fun _ => .pure _) ?_
    exact .bind (.loop (fun _ _ => .bind (writeGranule_keepsPrc _ _ _ _ _) fun _ => .pure _) _ _) fun _ => .pure _

/-! The windows' copies that an access waits for (R296, R298). -/

theorem copyWindow_keepsPrc (k : ChoCopy) : KeepsPrc (copyWindow k) := by
  refine .bind (.loop (fun g _ => .bind .get fun w => ?_) _ _) fun _ => .pure _
  refine .ite (.bind (readGranule_keepsPrc _ _ _) fun x => ?_) (.pure _)
  cases x with
  | some bs => exact .bind (storeGranule_keepsPrc _ _ _) fun _ => .pure _
  | none => exact .bind (.onChip fun c => by simp) fun _ => .pure _

theorem copyDone_keepsPrc : KeepsPrc copyDone := by
  refine .bind .getChip fun c => ?_
  split
  · exact .pure _
  · exact .bind (copyWindow_keepsPrc _) fun _ => .onChip fun c => by simp

theorem copiesTo_keepsPrc (i : Nat) : ∀ n, KeepsPrc (copiesTo n i)
  | 0 => .pure _
  | n + 1 => .bind .getChip fun _ => .ite (.bind copyDone_keepsPrc fun _ => copiesTo_keepsPrc i n) (.pure _)

theorem windowWait_keepsPrc (pa : Nat) : KeepsPrc (windowWait pa) := .ite (.bind .getChip fun _ => copiesTo_keepsPrc _ _) (.pure _)

/-! The Rood (R98-R101, R111). -/

theorem readEntry_keepsPrc (table idx : Nat) : KeepsPrc (readEntry table idx) := by
  refine .bind .getChip fun c => .ite (.pure _) (.ite (.pure _) (.bind (readPhys_keepsPrc _ _ _) fun bs => ?_))
  cases leNat bs <;> exact .pure _

theorem walk_keepsPrc (ctx va : Nat) : KeepsPrc (walk ctx va) := by
  refine .bind .getChip fun c => .bind (readEntry_keepsPrc _ _) fun x => ?_
  cases x with
  | error e => exact .pure _
  | ok e1 =>
    refine .ite (.pure _) (.bind (readEntry_keepsPrc _ _) fun x => ?_)
    cases x with
    | error e => exact .pure _
    | ok e2 =>
      refine .ite (.pure _) (.ite (.pure _) (.bind (readEntry_keepsPrc _ _) fun x => ?_))
      cases x with
      | error e => exact .pure _
      | ok e3 => exact .ite (.pure _) (.pure _)

theorem walkAndCache_keepsPrc (ctx va : Nat) : KeepsPrc (walkAndCache ctx va) := by
  refine .bind (walk_keepsPrc ctx va) fun r => ?_
  cases r with
  | ok l => exact .bind (.onChip fun c => rfl) fun _ => .pure _
  | error e => exact .pure _

theorem lookup_keepsPrc (ctx va : Nat) : KeepsPrc (lookup ctx va) := by
  refine .bind .get fun w => ?_
  cases w.chip.cachedLeaf ctx va with
  | none => exact walkAndCache_keepsPrc ctx va
  | some l => exact .ite (.pure _) (.bind .drawM fun _ => .ite (.pure _) (walk_keepsPrc ctx va))

theorem translate_keepsPrc (ctx : Nat) (k : AccType) (va : Nat) : KeepsPrc (translate ctx k va) := by
  refine .bind .getChip fun c => .ite (.pure _) (.ite (.pure _) (.bind (lookup_keepsPrc ctx va) fun x => ?_))
  cases x with
  | error e => exact .pure _
  | ok l => exact .ite (.pure _) (.bind (windowWait_keepsPrc _) fun _ => .bind .getChip fun _ => .ite (.pure _) (.pure _))

theorem burstPa_keepsPrc (ctx src : Nat) (k : AccType) (va : Nat) : KeepsPrc (burstPa ctx src k va) := by
  refine .bind (translate_keepsPrc ctx k va) fun x => ?_
  cases x with
  | ok pa => exact .pure _
  | error e => exact .bind (.onChip fun c => by simp) fun _ => .pure _

theorem writeVa_keepsPrc (ctx src va : Nat) (bytes : List (Option Byte)) : KeepsPrc (writeVa ctx src va bytes).run := by
  refine .bindE (.loopE (fun a _ => ?_) _ _) fun _ => .pure _
  refine .bindE (.map _ (burstPa_keepsPrc _ _ _ _)) fun x => ?_
  cases x with
  | none => exact .pure _
  | some pa =>
    refine .bindE (.map _ (writePhys_keepsPrc _ _ _)) fun b => ?_
    dsimp only
    split
    · exact fun _ => rfl
    · exact fun _ => rfl

theorem writeRecord_keepsPrc (q : Nat) (r : Running) : KeepsPrc (writeRecord q r) := by
  refine .bind (fun w => ?_) fun x => .bind (writeVa_keepsPrc _ _ _ _) fun _ => .pure _
  exact w.chip.stamp_prc 5

end Sys2Proof.Machine
end

section
/-! How a command executes and retires (R167, R173, R175, R184): one that writes no memory, the chip and memory that a retirement
leaves, and the graph slots that hear of it. -/

namespace Sys2Proof.Machine

/-! An execution. -/

theorem noteWrites_of_unwritten {w : Work} (h : w.wrote = []) : noteWrites w = ([], w) := by
  obtain ⟨c, m, f, ops, wrote⟩ := w
  subst h
  rfl

/-- Without writes there is none to meet another's. -/
theorem meetWrites_of_unwritten (key src : Nat) {w : Work} (h : w.wrote = []) : meetWrites key src w = ((), w) := by
  refine WM.bind_of_eq (noteWrites_of_unwritten h) ?_
  obtain ⟨c, m, f, ops, wrote⟩ := w
  subst h
  rfl

theorem runBody_of_unwritten {q : Nat} {body : Running → EM Stats} {r : Running} {w v : Work} {st : Stats}
    (hb : (body r).run w = (.ok st, v)) (hv : v.wrote = []) : (runBody q body r).run w = (.ok st, v) := by
  refine EM.bind_of_ok (EM.liftM_apply hb) ?_
  refine EM.bind_of_ok (EM.liftM_apply (getChip_apply v)) ?_
  exact EM.bind_of_ok (EM.liftM_apply (meetWrites_of_unwritten _ _ hv)) rfl

/-- A fetched command whose body ends without error is finished by its execution. -/
theorem execOp_of_ok {q op : Nat} {body : Running → EM Stats} (dests : Running → Nat → List (Nat × Opd)) {s : State} {r : Running}
    {v : Work} {st : Stats} (hr : s.fetched q op r) (ht : s.chip.tripped = false) (hb : (runBody q body r).run s.work = (.ok st, v)) :
    execOp q op body dests s.work = ((), v.onChip (·.setRunning q (some (r.ended s.chip q st)))) := by
  obtain ⟨hrun, hop, hex, hfin, -, -⟩ := hr
  have hrun' : s.work.chip.running q = some r := hrun
  have ht' : s.work.chip.tripped = false := ht
  refine WM.bind_of_eq (getChip_apply _) ?_
  rw [hrun']
  dsimp only
  rw [if_neg (by simp [hop, hex, hfin, ht'])]
  exact WM.bind_of_eq hb rfl

theorem Chip.running_setRunning_same (c : Chip) (q : Nat) (r : Option Running) : (c.setRunning q r).running q = r := by
  simp [Chip.running, Chip.setRunning, aget_aset]

/-! What a retirement leaves of the chip. -/

/-- The chip after a successful retirement (R167), by whether the command stops its queue. -/
def Chip.retiredOk (c : Chip) (q : Nat) (r : Running) (stop : Bool) : Chip :=
  let d := (c.wr (pgQ q) 0x058 (r.count + 1)).count (pgQ q) 0x068
  let d := if bits (r.w 0) 8 1 = 1 then d.raise (pgQ q) 0 else d
  ((d.freeLocks q).setRunning q none).boundary q stop

/-- The chip after a command has ended in error (R184). -/
def Chip.retiredErr (c : Chip) (q : Nat) (r : Running) : Chip :=
  let d := (c.setFld (pgQ q) 0x060 8 8 r.status).count (pgQ q) 0x06C
  let d := (d.raise (pgQ q) 1).logErr (pgQ q) clsCmd r.status (if c.leaseState (pgQ q) = 1 then c.leaseOwner (pgQ q) else 0) r.count
  ((d.freeLocks q).setRunning q none).setQstate q qError

@[simp] theorem Chip.boundary_prc (c : Chip) (q : Nat) (stop : Bool) : (c.boundary q stop).prc = c.prc := by
  unfold Chip.boundary
  split <;> simp

@[simp] theorem Chip.retiredOk_prc (c : Chip) (q : Nat) (r : Running) (stop : Bool) : (c.retiredOk q r stop).prc = c.prc := by
  simp [Chip.retiredOk, apply_ite Chip.prc]

@[simp] theorem Chip.retiredErr_prc (c : Chip) (q : Nat) (r : Running) : (c.retiredErr q r).prc = c.prc := by
  simp [Chip.retiredErr]

/-- The work in hand after the record that a retiring command writes: always one of a command that ended in error. -/
def Work.recorded (w : Work) (q : Nat) (r : Running) : Work :=
  if bits (r.w 0) 9 1 = 1 ∨ r.status ≠ 0 then (writeRecord q r w).2 else w

/-- The chip after a command has retired, by its status. -/
def Chip.retired (c : Chip) (q : Nat) (r : Running) : Chip :=
  if r.status ≠ 0 then c.retiredErr q r else c.retiredOk q r (r.op == 0x03)

theorem Work.recorded_prc (w : Work) (q : Nat) (r : Running) : (w.recorded q r).chip.prc = w.chip.prc := by
  unfold Work.recorded
  split
  · exact writeRecord_keepsPrc q r w
  · rfl

@[simp] theorem Chip.retired_prc (c : Chip) (q : Nat) (r : Running) : (c.retired q r).prc = c.prc := by
  unfold Chip.retired
  split <;> simp

theorem retireOk_apply {r : Running} (h : r.status = 0) (q : Nat) (w : Work) :
    retireOk q r w = ((), (w.recorded q r).onChip (·.retired q r)) := by
  simp only [Work.recorded, Chip.retired, h, ne_eq, not_true, or_false, if_false]
  refine WM.ite_of_eq (fun hrec => ?_) fun hrec => ?_
  · rw [if_pos hrec]
    exact WM.bind_chipM_apply (writeRecord q r) (·.retiredOk q r (r.op == 0x03)) w
  · rw [if_neg hrec]
    rfl

theorem retireErr_apply {r : Running} (h : r.status ≠ 0) (q : Nat) (w : Work) :
    retireErr q r w = ((), (w.recorded q r).onChip (·.retired q r)) := by
  simp only [Work.recorded, Chip.retired, h, ne_eq, not_false_eq_true, or_true, if_true]
  exact WM.bind_chipM_apply (writeRecord q r) (·.retiredErr q r) w

/-! A retirement told to the graph slots (R167, R321). -/

/-- A command that no frame has posted concerns no slot as it retires. -/
theorem graphRetired_of_not_posted (q : Nat) (r : Running) (w : Work) (h : w.chip.posted q r.count = false) :
    graphRetired q r w = ((), w) := by
  simp only [Chip.posted, List.any_eq_false] at h
  refine WM.forIn_of_idle _ w _ fun g hg => ?_
  obtain ⟨g, s⟩ := g
  have hfind : ∀ f ∈ s.frames, (f.cmds.find? fun k => k.q == q && k.count == r.count) = none := fun f hf => by
    have hs := h (g, s) hg
    simp only [List.any_eq_true, not_exists, not_and] at hs
    exact List.find?_eq_none.mpr (hs f hf)
  refine WM.bind_of_eq (getChip_apply w) <| WM.bind_of_eq (getChip_apply w) <|
    WM.ite_of_eq (fun _ => WM.bind_of_eq (WM.forIn_of_idle _ w _ fun f hf => ?_) rfl) fun _ => rfl
  rw [hfind f hf]
  rfl

end Sys2Proof.Machine
end

section
/-! SIGNAL and EVT_SIG (R177, R179, R187). -/

namespace Sys2Proof.Machine

theorem exec_signal (q : Fin 128) (s : State) : exec (.signal q) s = execSignal q s := by
  rfl

theorem exec_commandRetire (q : Fin 128) (s : State) : exec (.commandRetire q) s = execCommandRetire q s := by
  rfl

theorem exec_evtSig (req : Requester) (inc : BitVec 16) (evt : BitVec 8) (s : State) :
    exec (.evtSig req inc evt) s = execEvtSig req inc evt s := by
  rfl

/-! The command executes. -/

/-- A SIGNAL that names no other chip sends nothing. -/
theorem signalBody_of_local {r : Running} {w : Work} (q : Nat)
    (h : ((List.range 8).all fun p => bits (bits r.param 8 8) p 1 != 1 || p == w.chip.chPos) = true) :
    (signalBody q r).run w = (.ok {}, w) := by
  have hfar : ((List.range 8).filter fun p => bits (bits r.param 8 8) p 1 == 1 && p != w.chip.chPos) = [] := by
    rw [List.filter_eq_nil_iff]
    intro p hp
    have := List.all_eq_true.mp h p hp
    simp only [Bool.or_eq_true, bne_iff_ne, beq_iff_eq] at this
    simp only [Bool.and_eq_true, bne_iff_ne, beq_iff_eq, not_and, not_not]
    exact fun hb => this.resolve_left (not_not.mpr hb)
  refine EM.bind_of_ok (EM.liftM_apply (getChip_apply w)) ?_
  rw [hfar]
  exact EM.bind_of_ok (EM.liftM_apply (chipM_apply _ w)) rfl

/-- Without a RESP outstanding a command that has not failed awaits none. -/
theorem Chip.awaitXfers_of_none {c : Chip} {q : Nat} {r : Running} (hr : c.running q = some r) (hs : r.status = 0)
    (hx : c.link.xfers = []) : c.awaitXfers q = c.setRunning q (some { r with awaiting := [] }) := by
  simp [Chip.awaitXfers, hr, hs, hx]

theorem exec_signal_of_local {q : Fin 128} {s : State} {r : Running} (hr : s.fetched q 0x02 r) (ht : s.chip.tripped = false)
    (hl : ((List.range 8).all fun p => bits (bits r.param 8 8) p 1 != 1 || p == s.chip.chPos) = true) :
    exec (.signal q) s = .next (s.onChip fun c => (c.setRunning q (some (r.ended c q {}))).awaitXfers q) := by
  have hfresh : ((s.chip.running q).any fun r => r.op == 0x02 && !r.executed && !r.finished) = true := by
    obtain ⟨hrun, hop, hex, hfin, -, -⟩ := hr
    simp [hrun, hop, hex, hfin]
  have hexec := execOp_of_ok (fun _ _ => []) hr ht (runBody_of_unwritten (signalBody_of_local (w := s.work) q hl) rfl)
  rw [exec_signal]
  refine s.onMem_of_eq (WM.bind_of_eq (getChip_apply _) (WM.bind_of_eq hexec ?_))
  exact WM.ite_of_eq (fun _ => rfl) fun h => absurd hfresh h

/-! The command retires. -/

/-- The command as it retires: one whose SIGNAL would have passed the counter's end has ended EVT_OVERFLOW (R177). -/
def Running.signalled (r : Running) (past : Bool) : Running := { r with status := if past then 0x27 else 0 }

theorem Running.signalled_status_ne_zero (r : Running) (past : Bool) : (r.signalled past).status ≠ 0 ↔ past = true := by
  cases past <;> simp [Running.signalled]

theorem Work.recorded_signalled (w : Work) (q : Nat) (r : Running) (past : Bool) : w.recorded q (r.signalled past) =
    if bits (r.w 0) 9 1 = 1 ∨ past = true then (writeRecord q (r.signalled past) w).2 else w := by
  simp only [Work.recorded, r.signalled_status_ne_zero past]
  rfl

/-- A SIGNAL that does not overflow retires as every command that is no STOP. -/
theorem Chip.retired_signalled_false (c : Chip) (q : Nat) {r : Running} (h : r.op = 0x02) :
    c.retired q (r.signalled false) = c.retiredOk q r false := by
  have hop : ((r.signalled false).op == 0x03) = false := by
    show (r.op == 0x03) = false
    simp [h]
  rw [Chip.retired, if_neg (by simp [Running.signalled]), hop]
  rfl

/-- A command that is ready to retire and whose SIGNAL acts on this chip. -/
structure Chip.SignalReady (c : Chip) (q : Nat) (r : Running) : Prop where
  running : c.running q = some r
  finished : r.finished = true
  awaiting : r.awaiting = []
  runs : c.tripped = false
  status : r.status = 0
  here : c.signalsHere r = true

/-- The counter takes the increase first, and the command then retires with what came of it. -/
theorem retireCommand_signal {q : Nat} {r : Running} {w : Work} (h : w.chip.SignalReady q r) {past : Bool} {d : Chip}
    (hd : w.chip.signal (bits r.param 0 8) (bits r.param 16 16) = (past, d)) :
    retireCommand q w =
      (some (r.signalled past), ({ w with chip := d }.recorded q (r.signalled past)).onChip (·.retired q (r.signalled past))) := by
  refine WM.bind_of_eq (getChip_apply w) ?_
  rw [h.running]
  dsimp only
  rw [if_pos (by simp [h.finished, h.awaiting, h.runs]), if_pos ⟨h.status, h.here⟩]
  refine WM.bind_of_eq (useChip_apply _ w) ?_
  rw [hd]
  refine WM.bind_of_eq (WM.pure_apply (r.signalled past) _) ?_
  exact WM.ite_of_eq (fun hs => WM.bind_of_eq (retireErr_apply hs q _) rfl)
    fun hs => WM.bind_of_eq (retireOk_apply (not_not.mp hs) q _) rfl

/-- A SIGNAL on this chip's counter that no frame of a graph posted: nothing follows its retirement. -/
theorem commandRetire_of_signalReady {q : Fin 128} {s : State} {r : Running} (h : s.chip.SignalReady q r)
    (hp : s.chip.posted q r.count = false) {past : Bool} {d : Chip}
    (hd : s.chip.signal (bits r.param 0 8) (bits r.param 16 16) = (past, d)) :
    Answers (.commandRetire q) s fun t =>
      s.after t ({ s.work with chip := d }.recorded q (r.signalled past)) (·.retired q (r.signalled past)) := by
  have hpost : d.posted q r.count = false := by
    have hsig := s.chip.signal_posted (bits r.param 0 8) (bits r.param 16 16) q r.count hp
    rwa [hd] at hsig
  refine ⟨_, exec_commandRetire q s, s.after_onWork _ (WM.bind_of_eq (retireCommand_signal h hd) ?_)⟩
  refine graphRetired_of_not_posted q _ _ ?_
  exact (Chip.posted_congr ((Chip.retired_prc _ _ _).trans (Work.recorded_prc _ _ _)) q r.count).trans hpost

/-! EVT_SIG. -/

theorem exec_evtSig_of_pass {req : Requester} {s : State} (inc : BitVec 16) (evt : BitVec 8) (h : s.passes req 0x011 0x840) :
    exec (.evtSig req inc evt) s = .next (s.onChip fun c => if inc = 0 then c else (c.signal evt.toNat inc.toNat).2) := by
  rw [exec_evtSig, execEvtSig, State.onChip_gated s req 0x011 0x840 _ h]
  rfl

/-- A write to EVT_SIG by another than the lease's holder only sets WR_DENIED (R82). -/
theorem Chip.gated_evtSig_denied (c : Chip) (req : Requester) (f : Chip → Chip) (hc : c.clockStopped 0x011 = false)
    (hl : c.leaseState 0x011 = 1) (ho : c.leaseOwner 0x011 ≠ ownerCode req) : c.gated req 0x011 0x840 f = c.raise 0x011 29 := by
  have hg : c.gate req (regAddr 0x011 0x840) .b4 = .stop (c.raise 0x011 29) := by
    have hv : isVrgPage 0x011 = false := by decide
    have hk : pageClass 0x011 = some .prcE := by decide
    simp [Chip.gate, regAddr, hk, hv, hc, hl, ho]
  rw [Chip.gated, hg]

/-- EVT_SIG acts at once; an increase of 0 is one that changes nothing. -/
theorem Chip.evtSig_evt (c : Chip) (inc : BitVec 16) (evt : BitVec 8) :
    let d := if inc = 0 then c else (c.signal evt.toNat inc.toNat).2
    d.evt evt.toNat = min (c.evt evt.toNat + inc.toNat) (2 ^ 64 - 1) ∧
      ∀ x, x < 256 → x ≠ evt.toNat → d.evt x = c.evt x := by
  dsimp only
  split
  · next hi =>
    subst hi
    have hlt := c.evt_lt evt.toNat
    have hmin : c.evt evt.toNat = min (c.evt evt.toNat + 0) (2 ^ 64 - 1) := by omega
    exact ⟨hmin, fun _ _ _ => rfl⟩
  · exact ⟨c.signal_evt_same _ _ evt.isLt, fun x hx hne => c.signal_evt_ne _ hx hne⟩

/-- Settles O30: a counter that is set is told to the scoreboard and the graph slots, which touch no counter; the execution of a local
SIGNAL only ends the command, and its retirement sets the counter first and then retires as the sum decides. The owner in the error's
record is that of log entry 25, and that no SIGNAL retires while the clocks are stopped is entry 103. -/
theorem signalCounters : Obligations.SignalCounters := by
  unfold Obligations.SignalCounters
  refine ⟨fun e n s he => ⟨s.chip.signal_evt_same e n he, fun x hx hne => s.chip.signal_evt_ne n hx hne⟩,
    fun q s r ht => ⟨fun hr hl hx => ?executes, fun hr hop hf ha hs hp hh => ?retires⟩,
    fun req inc evt s => ⟨fun h => ?acts, fun h hi => ?zero, fun hc hl ho => ?denied⟩⟩
  case executes =>
    obtain ⟨-, -, -, -, hstatus, -⟩ := id hr
    have hrun := s.chip.running_setRunning_same q (some (r.ended s.chip q {}))
    have hchip := Chip.awaitXfers_of_none hrun hstatus hx
    refine ⟨_, exec_signal_of_local hr ht hl, rfl, fun x _ => ?_, ?_⟩
    · rw [State.onChip_chip, hchip]
      rfl
    · rw [State.onChip_chip, hchip]
      exact Chip.running_setRunning_same _ _ _
  case retires =>
    have hready : s.chip.SignalReady q r := ⟨hr, hf, ha, ht, hs, by simpa [Chip.signalsHere, hop] using hh⟩
    have hsig := s.chip.signal_eq (bits r.param 0 8) (bits r.param 16 16)
    dsimp only
    generalize decide (2 ^ 64 ≤ s.chip.evt (bits r.param 0 8) + bits r.param 16 16) = past at hsig ⊢
    have hend := commandRetire_of_signalReady hready hp hsig
    rw [Work.recorded_signalled] at hend
    cases past with
    | true => exact hend
    | false =>
      simp only [Chip.retired_signalled_false _ _ hop] at hend
      exact hend
  case acts =>
    refine ⟨_, exec_evtSig_of_pass inc evt h, rfl, ?_⟩
    simp only [State.onChip_chip, Chip.settle_evt]
    exact s.chip.evtSig_evt inc evt
  case zero =>
    rw [exec_evtSig_of_pass inc evt h]
    exact congrArg _ (s.onChip_congr _ _ (if_pos hi))
  case denied =>
    rw [exec_evtSig, execEvtSig]
    exact congrArg _ (s.onChip_congr _ _ (s.chip.gated_evtSig_denied req _ hc hl ho))

end Sys2Proof.Machine
end

section
/-! Every command as the whole machine sees it: a change of the chip, a computation over memory, or a fuse command; what a step
therefore leaves of the queue, the fuses and memory. -/

namespace Sys2Proof.Machine

/-! The three shapes of a meaning. -/

/-- The command changes the chip, and memory by a list of elementary changes. -/
def Works (o : Host.Outcome State Fault Refusal) (s : State) : Prop :=
  ∃ t, o = .next t ∧ t.pending = s.pending ∧ t.fuses = s.fuses ∧ ∃ ops, t.mem = s.mem.applyAll ops

theorem works_onChip (s : State) (f : Chip → Chip) : Works (.next (s.onChip f)) s := ⟨_, rfl, rfl, rfl, [], rfl⟩

theorem works_onWork (s : State) (f : Work → Work) : Works (.next (s.onWork f)) s := ⟨_, rfl, rfl, rfl, _, rfl⟩

theorem works_onMem (s : State) (m : WM Unit) : Works (s.onMem m) s := ⟨_, rfl, rfl, rfl, _, rfl⟩

/-- The two commands that program fuses. -/
def Programs (i : Instr) : Prop := ∃ b, i = .arbCommit b ∨ i = .keyRevoke b

theorem exec_works (i : Instr) : ∀ s, Programs i ∨ Works (exec i s) s := by
  induction i with
  | arbCommit b => exact fun _ => .inl ⟨b, .inl rfl⟩
  | keyRevoke b => exact fun _ => .inl ⟨b, .inr rfl⟩
  | loRead | busTimeout | irqForce | irqRawClear | snapTake | snapRelease | acquire | renew | leaseRelease | clsInitDone |
  clsSkewWrite | lp5xEnable | lp5xDisable | inval | invalDone | ctxDisable | rgnRegister | rgnFree | fltPop | create | destroy |
  descRead | descDone | qtailWrite | doorbell | wait | waitTimeout | skip | drain | queueEnable | queueDisable | evtSig |
  tileDeal | remap | retireReq | suspectClr | lisEnable | lisDisable | lisFire | triggerAssert | triggerDeassert | strobeRise |
  strobeFall | stbFault | portEnable | trigWindowExpiry | memFrameStart | stripeStart | trigSw | trigSwEnd | rstAssert |
  stepDecision | vote | runDecision | commit | inPost | outAck | switchResume | dmaStart | dmaStop | shadowArm | passEnd |
  dmaBusError | portEn | cdrLock | markerLock | markerLoss | cdrLoss | hello | trainTimeout | flitCrcError | nak | idleFlit |
  replayTimeout | enum | join | chapterUp | chapterUpTimeout | linkMap | fenceLift | tsyncExchange | tsync | linkTimeout |
  memberLost | headLost | chapterEn | carGo | boundarySend | carTxnDone | txCancel | longReset | shortReset | chainEn |
  pwrGoodChange | pgStable | ident | setAddr | pass | status | readReg | writeReg | lampSet | lampStatus | podStatus |
  ledgerInfo | ledgerBegin | ledgerData | ledgerCommit | ledgerDrawDone | ledgerAbort | ledgerAck | ledgerRecovery |
  lampOverTemperature | lampCooled | podPowerDown | tbSet | ppsEdge | ppsLost | tbAlarm | gpioEdge | gpioSet | gpioClr | txdata
  | rxPop | uartChar | rxIdle | txEmpty | speed | i2cGo | i2cDone | stretchTimeout | irqEoi | cplTimeout | aerError | linkUp |
  d3hot | mbPost | getInfo | setPolicy | getPolicy | ctxGrant | ctxRelease | carTxn | pdNotice | powerState | ovr | wakeEvent |
  loopPeriod | junctionTrip | coreUv | policyRaise | protectionRelease | sensorFail | vrSettled | vrSettleTimeout | vrDrop |
  shutdown | railTimeout | railDrop | tapReset | tapInstruction | debugHalt | quarantineEnd | quarStuck | jrnPop | wdtKick |
  chanFail | pclkReturns =>
    exact fun s => .inr (works_onChip s _)
  | registerWrite | hiWrite | softReset | softResetDone | leaseTimeout | coreAccess | bar2Access | ceWriteBack |
  scrubAccess | clsEnable | clsDisable | lp5xInitDone | lockLeaseTimeout | commandFetch | nop | waitRetire | signal |
  stop | pieceSend | commandRetire | conv | matmul | eltwise | pool | act | tileComplete | tileTimeout | remapCopyDone
  | dmdPeriod | dmdSubframe | portDisable | frameStart | lineEnd | frameEnd | clkLost | pclkFast | pipelineLine |
  graphLoad | graphLoadDone | graphStart | graphStop | stopComplete | graphAbort | unload | graphFire | framePost |
  doneSignal | switchStart | switchQuiesce | switchRepost | dmaBurst | pieceHead | piecePmap | pieceData | signalFlit
  | resp | creditTimeout | pcieReset | porstNRise | porstNFall | bootGo | controlTick | aonPorRelease | railOk |
  revokeEntry | revokeOwner | vrgRelease | holdSet | holdClr | entryParity | unitFailSet | unitFailed | resetReq |
  wdtFire =>
    exact fun s => .inr (works_onMem s _)
  | rgnDone | copy | gather | scatter | bgather | bscatter | pyrBuild | pyrLaplace | wrpHomog | wrpMesh | ftrDetect |
  flwLevel | strLevel | dmdOffline =>
    exact fun s => .inr (works_onWork s _)

/-! The fuse commands (R437, R438, R449). -/

theorem and_or_self {n : Nat} (v x : BitVec n) : v &&& (v ||| x) = v := by
  ext k
  simpa using Or.inl

theorem foldl_or_keeps {n : Nat} (f : Nat → BitVec n) (l : List Nat) : ∀ v : BitVec n,
    v &&& l.foldl (fun v i => v ||| f i) v = v := by
  induction l with
  | nil => exact fun v => BitVec.and_self
  | cons i l ih =>
    intro v
    calc v &&& l.foldl (fun v i => v ||| f i) (v ||| f i)
        = v &&& ((v ||| f i) &&& l.foldl (fun v i => v ||| f i) (v ||| f i)) := by rw [← BitVec.and_assoc, and_or_self]
      _ = v := by rw [ih, and_or_self]

theorem fuseTo_keeps (v : DWord) (n : Nat) : v &&& fuseTo v n = v := foldl_or_keeps _ _ v

theorem Fuses.le_refl (a : Fuses) : a.le a := ⟨rfl, rfl, rfl, BitVec.and_self, BitVec.and_self, BitVec.and_self⟩

theorem Fuses.le_ite {p : Prop} [Decidable p] {a b : Fuses} (h : a.le b) : a.le (if p then b else a) := by
  split
  · exact h
  · exact a.le_refl

theorem Fuses.le_arb (a : Fuses) (m n : Nat) : a.le { a with arbSac := fuseTo a.arbSac m, arbPrc := fuseTo a.arbPrc n } := by
  have h := fuseTo_keeps a.arbSac m
  have k := fuseTo_keeps a.arbPrc n
  generalize fuseTo a.arbSac m = x at h ⊢
  generalize fuseTo a.arbPrc n = y at k ⊢
  exact ⟨rfl, rfl, rfl, BitVec.and_self, h, k⟩

theorem Fuses.le_revoke (a : Fuses) (v : BitVec 4) : a.le { a with keyRevoke := a.keyRevoke ||| v } :=
  ⟨rfl, rfl, rfl, and_or_self _ _, BitVec.and_self, BitVec.and_self⟩

/-- A fuse command leaves the queue and memory, and its fuses only rise. -/
def Fuses.Rise (o : Host.Outcome State Fault Refusal) (s : State) : Prop :=
  ∃ t, o = .next t ∧ t.pending = s.pending ∧ t.mem = s.mem ∧ s.fuses.le t.fuses

theorem Fuses.rise_same (s : State) : Fuses.Rise (.next s) s := ⟨_, rfl, rfl, rfl, s.fuses.le_refl⟩

theorem Fuses.rise_onChip (s : State) (f : Chip → Chip) : Fuses.Rise (.next (s.onChip f)) s := ⟨_, rfl, rfl, rfl, s.fuses.le_refl⟩

theorem Fuses.rise_onChip_fuses {s : State} {x : Fuses} (f : Chip → Chip) (h : s.fuses.le x) :
    Fuses.Rise (.next { s.onChip f with fuses := x }) s := ⟨_, rfl, rfl, rfl, h⟩

theorem arbCommit_rises (b : Bool) (s : State) : Fuses.Rise (exec (.arbCommit b) s) s := by
  show Fuses.Rise (execArbCommit b s) s
  unfold execArbCommit
  dsimp only
  split
  · exact Fuses.rise_same s
  · split
    · exact Fuses.rise_onChip s _
    · exact Fuses.rise_onChip_fuses _ (Fuses.le_ite (s.fuses.le_arb _ _))

theorem keyRevoke_rises (b : Bool) (s : State) : Fuses.Rise (exec (.keyRevoke b) s) s := by
  show Fuses.Rise (execKeyRevoke b s) s
  unfold execKeyRevoke
  dsimp only
  split
  · exact Fuses.rise_same s
  · split
    · exact Fuses.rise_onChip s _
    · exact Fuses.rise_onChip_fuses _ (Fuses.le_ite (s.fuses.le_revoke _))

/-! Every command, and a step. -/

/-- A command is one of the two that program fuses, or leaves them as they are. -/
theorem exec_answers (i : Instr) (s : State) : ∃ t, exec i s = .next t ∧ t.pending = s.pending ∧ s.fuses.le t.fuses ∧
    ∃ ops, t.mem = s.mem.applyAll ops := by
  obtain ⟨b, rfl | rfl⟩ | ⟨t, ht, hp, hf, hm⟩ := exec_works i s
  · obtain ⟨t, ht, hp, hm, hf⟩ := arbCommit_rises b s
    exact ⟨t, ht, hp, hf, [], hm⟩
  · obtain ⟨t, ht, hp, hm, hf⟩ := keyRevoke_rises b s
    exact ⟨t, ht, hp, hf, [], hm⟩
  · exact ⟨t, ht, hp, hf ▸ s.fuses.le_refl, hm⟩

/-- A step that goes on is an idle tick or the front command's meaning, with the rest of the queue. -/
theorem step_cases {s t : State} (h : step s = .next t) :
    s.pending = [] ∧ t = s.idle ∨ ∃ i rest, s.pending = i :: rest ∧ exec i { s with pending := rest } = .next t := by
  unfold step at h
  split at h
  next hp => exact .inl ⟨hp, by simpa using h.symm⟩
  next i rest hp =>
    split at h
    · exact .inr ⟨i, rest, hp, h⟩
    · nomatch h

/-- What every step keeps: the queue but for its front, fuses that are set, and memory but for elementary changes. -/
theorem step_keeps {s t : State} (h : step s = .next t) :
    t.pending = s.pending.tail ∧ s.fuses.le t.fuses ∧ ∃ ops, t.mem = s.mem.applyAll ops := by
  obtain ⟨hp, rfl⟩ | ⟨i, rest, hp, ht⟩ := step_cases h
  · exact ⟨by rw [hp]; exact hp, s.fuses.le_refl, [], rfl⟩
  · obtain ⟨u, hu, hq, hf, hm⟩ := exec_answers i { s with pending := rest }
    obtain rfl : u = t := by simpa [hu] using ht
    exact ⟨by rw [hp]; exact hq, hf, hm⟩

/-- Settles O6: whatever a step does to memory is a list of elementary changes, each of which keeps the canonical form. -/
theorem memoryStaysCanonical : Obligations.MemoryStaysCanonical := by
  intro s t hwf h
  obtain ⟨-, -, ops, hm⟩ := step_keeps h
  exact hm ▸ Memory.applyAll_wf ops s.mem hwf

/-- Settles O7: the two fuse commands only set bits, and every other step leaves the fuses. -/
theorem fusesOnlyRise : Obligations.FusesOnlyRise := fun _ _ h => (step_keeps h).2.1

/-- Settles O8, by the shape that every other command has. -/
theorem onlyMailboxProgramsFuses : Obligations.OnlyMailboxProgramsFuses := by
  intro i s t ha hk h
  obtain ⟨u, hu, -, hf, -⟩ := (exec_works i s).resolve_left fun ⟨b, hb⟩ => hb.elim (ha b) (hk b)
  obtain rfl : u = t := by simpa [hu] using h
  exact hf

/-- Settles O1. -/
theorem stepRunsFrontCommand : Obligations.StepRunsFrontCommand := fun _ _ _ hc => if_pos hc

/-- Settles O4, by the shape of every command's meaning. -/
theorem everyCommandAnswers : Obligations.EveryCommandAnswers := by
  intro i s
  obtain ⟨t, ht, hp, -⟩ := exec_answers i s
  exact ⟨t, ht, hp⟩

/-- Settles O5. -/
theorem queueIsFirstInFirstOut : Obligations.QueueIsFirstInFirstOut := fun _ _ h => (step_keeps h).1

end Sys2Proof.Machine
end

section
/-! Which operands make a command, and what the machine holds after reset. -/

namespace Sys2Proof.Machine

/-! Addresses of registers. -/

theorem digit_lt {m n q r : Nat} (hq : q < m) (hr : r < n) : q * n + r < m * n :=
  Nat.lt_of_lt_of_le (Nat.add_lt_add_left hr _) (Nat.succ_mul q n ▸ Nat.mul_le_mul_right n hq)

theorem add_le_of_dvd {k m x : Nat} (hk : k ∣ x) (hm : k ∣ m) (h : x < m) : x + k ≤ m := by
  obtain ⟨q, rfl⟩ := hk
  obtain ⟨r, rfl⟩ := hm
  exact Nat.mul_le_mul_left k (Nat.lt_of_mul_lt_mul_left h)

theorem regAddr_div (p : Nat) {off : Nat} (h : off < 0x1000) : regAddr p off / 0x1000 = p := by
  rw [regAddr, Nat.mul_comm, Nat.mul_add_div (by decide), Nat.div_eq_of_lt h, Nat.add_zero]

theorem regAddr_mod (p : Nat) {off : Nat} (h : off < 0x1000) : regAddr p off % 0x1000 = off := by
  rw [regAddr, Nat.mul_add_mod', Nat.mod_eq_of_lt h]

theorem toNat_regAddr {p off : Nat} (hp : p < 4096) (ho : off < 0x1000) :
    (BitVec.ofNat 24 (regAddr p off)).toNat = regAddr p off := by
  rw [BitVec.toNat_ofNat]
  exact Nat.mod_eq_of_lt (digit_lt hp ho)

/-- A command whose operands the spec limits. -/
def Limited (i : Instr) : Prop := (∃ w r, i = .linkUp w r) ∨ (∃ m, i = .loopPeriod m) ∨ ∃ p h m, i = .pieceHead p h m

theorem wellFormed_or_limited (i : Instr) : i.wellFormed = true ∨ Limited i := by
  induction i with
  | linkUp w r => exact .inr (.inl ⟨w, r, rfl⟩)
  | loopPeriod m => exact .inr (.inr (.inl ⟨m, rfl⟩))
  | pieceHead p h m => exact .inr (.inr (.inr ⟨p, h, m, rfl⟩))
  | _ => exact .inl rfl

theorem wellFormed_linkUp (w r : BitVec 3) :
    (Instr.linkUp w r).wellFormed = ((w == 1 || w == 2 || w == 4) && decide (1 ≤ r.toNat ∧ r.toNat ≤ 4)) := rfl

theorem wellFormed_pieceHead (p h m) :
    (Instr.pieceHead p h m).wellFormed = (m.origin.length == 5 && m.extent.length == 5) := rfl

/-- Settles O3: the three conditions are spelled out in the definition, and every other command meets none. -/
theorem wellFormedOperands : Obligations.WellFormedOperands := by
  refine ⟨fun w r => ?_, fun m => beq_iff_eq, fun p h m => ?_, fun i hi => ?_⟩
  · simp only [wellFormed_linkUp, Bool.and_eq_true, Bool.or_eq_true, beq_iff_eq, decide_eq_true_eq, or_assoc]
  · simp only [wellFormed_pieceHead, Bool.and_eq_true, beq_iff_eq]
  · exact (wellFormed_or_limited i).resolve_left fun h => nomatch hi.symm.trans h

/-! Reset. -/

/-- No page's LEASE has a reset value of its own: it is FREE without an owner (R80). -/
theorem instanceReset_lease (k : PageClass) (p : Nat) : instanceReset k p 0x028 = none := by
  cases k <;> rfl

theorem find_lease_row : rowsHdr.find? (fun r => r.covers 0x028) = some ⟨0x028, 1, 4,
    "EPOCH/TIMEOUT_MS/OWNER/STATE/RENEW_RELEASE_ACQUIRE", 0x00FF0000, 0, 0, 0, 7, 0⟩ := by decide

theorem resetWord_lease (p : Nat) : resetWord (regAddr p 0x028) = 0 := by
  unfold resetWord
  rw [regAddr_div p (by decide), regAddr_mod p (by decide)]
  cases h : pageRow p with
  | none => simp [h]
  | some r =>
    obtain ⟨a, b, block, k⟩ := r
    simp [instanceReset_lease, regRow, pageClass, h, find_lease_row]

theorem reset_rd (p off : Nat) : State.reset.chip.rd p off = resetWord (regAddr p off) := rfl

theorem reset_lease_fld (p lo w : Nat) : State.reset.chip.fld p 0x028 lo w = 0 := by
  rw [Chip.fld, reset_rd, resetWord_lease]
  simp [bits]

theorem reset_leaseState (p : Nat) : State.reset.chip.leaseState p = 0 := by
  unfold Chip.leaseState
  split
  · rfl
  · exact reset_lease_fld _ _ _

theorem reset_selState (sel : Nat) : State.reset.chip.selState sel = 0 := by
  have ha : (State.reset.chip.leaseAux sel).state = 0 := rfl
  simp [Chip.selState, ha, reset_leaseState]

/-- Settles O9: nothing is listed, so every register reads its reset value, and LEASE resets to 0 on every page. -/
theorem resetState : Obligations.ResetState :=
  ⟨rfl, rfl, rfl, reset_rd, fun p => ⟨reset_leaseState p, reset_lease_fld _ _ _⟩, reset_selState, rfl⟩

/-- The window of every stall presents the stall's own slot after reset (R282). -/
theorem reset_redirect (k : Fin 32) : State.reset.chip.fld (pgStall k) 0x058 0 5 = k := by
  decide +revert

/-- Settles O10: each is the value of the register tables. -/
theorem resetRegisterValues : Obligations.ResetRegisterValues :=
  ⟨by decide, by decide, by decide, reset_redirect, by decide, by decide, by decide, by decide, by decide, by decide, rfl⟩

end Sys2Proof.Machine
end

section
/-! The checks before a register write (R64-R70, R77, R82, R443, R486): what each check that stops a write makes of the chip, and
how REGISTER_WRITE comes to it. -/

namespace Sys2Proof.Machine

/-! Each check that ends a write. -/

/-- The checks of an allocated page that is not the Verger's, once the size is right and the clock runs. -/
def Chip.pageGate (c : Chip) (req : Requester) (addr p : Nat) : Gate :=
  if c.leaseState p = 2 then .stop (c.raise p 29)
  else if c.leaseState p = 1 ∧ c.leaseOwner p ≠ ownerCode req then .stop (c.raise p 29)
  else if c.pwr.held && heldBlock p then .stop c
  else if 0x040 ≤ addr % 0x1000 ∧ c.resetBusy p then .stop (c.logUse p 0x03 req addr)
  else .pass

/-- The checks of an allocated page. -/
theorem Chip.gate_mapped (c : Chip) (req : Requester) {addr : Nat} (size : RegSize) (hk : pageClass (addr / 0x1000) ≠ none) :
    c.gate req addr size = if size ≠ .b4 then .stop (c.logUse 0x000 0x01 req addr)
      else if c.clockStopped (addr / 0x1000) then .stop (c.logErr 0x000 clsAccess 0x20 (ownerCode req) (word (addr % 2 ^ 24)))
      else if isVrgPage (addr / 0x1000) then
        if req = .sac ∨ (req = .host ∧ addr / 0x1000 = 0x005 ∧ addr % 0x1000 = 0x068) then
          (if 0x040 ≤ addr % 0x1000 ∧ c.resetBusy (addr / 0x1000) then .stop (c.logUse (addr / 0x1000) 0x03 req addr) else .pass)
        else .stop (c.raise (addr / 0x1000) 29)
      else if addr % 0x1000 = 0x028 ∨ addr % 0x1000 = 0x030 then .pass
      else c.pageGate req addr (addr / 0x1000) := by
  obtain ⟨k, hk⟩ := Option.ne_none_iff_exists'.mp hk
  rw [Chip.gate, hk]
  rfl

section
variable (c : Chip) (req : Requester) (addr : Nat) (size : RegSize)

theorem Chip.gate_unmapped (h : pageClass (addr / 0x1000) = none) : c.gate req addr size = .stop (c.logUse 0x000 0x02 req addr) := by
  rw [Chip.gate, h]

variable {addr} (hk : pageClass (addr / 0x1000) ≠ none)
include hk

theorem Chip.gate_size (h : size ≠ .b4) : c.gate req addr size = .stop (c.logUse 0x000 0x01 req addr) :=
  (c.gate_mapped req size hk).trans (if_pos h)

theorem Chip.gate_clock (h : c.clockStopped (addr / 0x1000) = true) :
    c.gate req addr .b4 = .stop (c.logErr 0x000 clsAccess 0x20 (ownerCode req) (word (addr % 2 ^ 24))) :=
  (c.gate_mapped req .b4 hk).trans ((if_neg (not_not.mpr rfl)).trans (if_pos h))

variable (hc : c.clockStopped (addr / 0x1000) = false)
include hc

theorem Chip.gate_running : c.gate req addr .b4 = if isVrgPage (addr / 0x1000) then
        if req = .sac ∨ (req = .host ∧ addr / 0x1000 = 0x005 ∧ addr % 0x1000 = 0x068) then
          (if 0x040 ≤ addr % 0x1000 ∧ c.resetBusy (addr / 0x1000) then .stop (c.logUse (addr / 0x1000) 0x03 req addr) else .pass)
        else .stop (c.raise (addr / 0x1000) 29)
      else if addr % 0x1000 = 0x028 ∨ addr % 0x1000 = 0x030 then .pass
      else c.pageGate req addr (addr / 0x1000) :=
  (c.gate_mapped req .b4 hk).trans ((if_neg (not_not.mpr rfl)).trans (if_neg (Bool.eq_false_iff.mp hc)))

theorem Chip.gate_verger (hv : isVrgPage (addr / 0x1000) = true) (hs : req ≠ .sac)
    (hr : ¬(req = .host ∧ addr / 0x1000 = 0x005 ∧ addr % 0x1000 = 0x068)) :
    c.gate req addr .b4 = .stop (c.raise (addr / 0x1000) 29) :=
  (c.gate_running req hk hc).trans ((if_pos hv).trans (if_neg (not_or.mpr ⟨hs, hr⟩)))

variable (hv : isVrgPage (addr / 0x1000) = false) (hl : addr % 0x1000 ≠ 0x028) (hs : addr % 0x1000 ≠ 0x030)
include hv hl hs

theorem Chip.gate_page : c.gate req addr .b4 = c.pageGate req addr (addr / 0x1000) :=
  (c.gate_running req hk hc).trans ((if_neg (Bool.eq_false_iff.mp hv)).trans (if_neg (not_or.mpr ⟨hl, hs⟩)))

theorem Chip.gate_quarantined (h : c.leaseState (addr / 0x1000) = 2) :
    c.gate req addr .b4 = .stop (c.raise (addr / 0x1000) 29) :=
  (c.gate_page req hk hc hv hl hs).trans (if_pos h)

theorem Chip.gate_held (h : c.leaseState (addr / 0x1000) = 1) (ho : c.leaseOwner (addr / 0x1000) ≠ ownerCode req) :
    c.gate req addr .b4 = .stop (c.raise (addr / 0x1000) 29) :=
  (c.gate_page req hk hc hv hl hs).trans ((if_neg (h ▸ by decide)).trans (if_pos ⟨h, ho⟩))

variable (hq : c.leaseState (addr / 0x1000) ≠ 2)
  (hh : c.leaseState (addr / 0x1000) = 1 → c.leaseOwner (addr / 0x1000) = ownerCode req)
include hq hh

theorem Chip.gate_limited (h : c.pwr.held = true) (hb : heldBlock (addr / 0x1000) = true) : c.gate req addr .b4 = .stop c :=
  (c.gate_page req hk hc hv hl hs).trans ((if_neg hq).trans ((if_neg fun x => x.2 (hh x.1)).trans
    (if_pos ((Bool.and_eq_true _ _).mpr ⟨h, hb⟩))))

theorem Chip.gate_reset (h : c.pwr.held = false ∨ heldBlock (addr / 0x1000) = false) (ho : 0x040 ≤ addr % 0x1000)
    (hb : c.resetBusy (addr / 0x1000) = true) : c.gate req addr .b4 = .stop (c.logUse (addr / 0x1000) 0x03 req addr) :=
  (c.gate_page req hk hc hv hl hs).trans ((if_neg hq).trans ((if_neg fun x => x.2 (hh x.1)).trans
    ((if_neg (Bool.eq_false_iff.mp (Bool.and_eq_false_iff.mpr h))).trans (if_pos ⟨ho, hb⟩))))

end

/-! A whole write that a check ends. -/

/-- The check's effect is all there is, where no override sequence is in progress. -/
theorem regWriteWith_stop (take : WM Unit) {req : Requester} {addr : Nat} {size : RegSize} {w : Work} {d : Chip}
    (hg : w.chip.gate req addr size = .stop d) (ho : addr / 0x1000 = 0x008 → w.chip.pwr.ovrCount = 0) (hd : d.pwr = w.chip.pwr) :
    regWriteWith take req addr size w = ((), w.onChip fun _ => d) := by
  have hc : w.chip.ovrCut (addr / 0x1000) = w.chip := Chip.ovrCut_idle _ _ ho
  have hb : (if addr = regAddr 0x008 0x0D8 then d.ovrBreak else d) = d := by
    split
    next ha =>
      have h0 : d.pwr.ovrCount = 0 := by rw [hd]; exact ho (by rw [ha]; rfl)
      simp [Chip.ovrBreak, h0]
    next => rfl
  by_cases ha : addr % 0x1000 = 0x0D8 <;> simp [regWriteWith, ha, hc, hg, hb, Work.onChip]

/-- A register write of at most four bytes is one access. -/
theorem exec_registerWrite_single (req : Requester) (addr : BitVec 24) {size : RegSize} (h : size = .b1 ∨ size = .b2 ∨ size = .b4)
    (v : Word) (s : State) : exec (.registerWrite req addr size v) s = s.onMem (regWriteAll req addr.toNat size v) := by
  obtain rfl | rfl | rfl := h <;> rfl

theorem exec_registerWrite_stop {req : Requester} {addr : BitVec 24} {size : RegSize} (h : size = .b1 ∨ size = .b2 ∨ size = .b4)
    (v : Word) {s : State} (f : Chip → Chip) (hg : s.chip.gate req addr.toNat size = .stop (f s.chip))
    (ho : addr.toNat / 0x1000 = 0x008 → s.chip.pwr.ovrCount = 0) (hd : (f s.chip).pwr = s.chip.pwr) :
    exec (.registerWrite req addr size v) s = .next (s.onChip f) := by
  rw [exec_registerWrite_single req addr h]
  refine s.onMem_of_eq ((regWriteWith_stop _ (w := s.work) hg ho hd).trans rfl)

theorem word_addr (a : BitVec 24) : word (a.toNat % 2 ^ 24) = word a.toNat := by
  rw [Nat.mod_eq_of_lt a.isLt]

/-- Settles O11: each premise is the first check that stops the write, and its effect is all the write has. -/
theorem registerWriteChecks : Obligations.RegisterWriteChecks := by
  unfold Obligations.RegisterWriteChecks
  intro req addr size v s p off c ho
  have b4 : RegSize.b4 = .b1 ∨ RegSize.b4 = .b2 ∨ RegSize.b4 = .b4 := .inr (.inr rfl)
  refine ⟨fun hk hs => ?unmapped, fun hk hs => ?size, fun hk => exec_busTimeout_mapped req addr false s hk, fun hk hc => ?clock,
    fun hk hc hv hr hn => ?verger, fun hk hc hv hl hn => ⟨fun hq => ?quarantined, fun hh hw => ?held,
      fun hq hh => ⟨fun hp hb => ?limited, fun hp hb hr => ?reset⟩⟩⟩
  case unmapped => exact exec_registerWrite_stop hs v (·.logUse 0x000 0x02 req addr.toNat) (c.gate_unmapped req _ size hk) ho (by simp)
  case size =>
    have hsize : size ≠ .b4 := by rintro rfl; simp at hs
    exact exec_registerWrite_stop (hs.imp_right .inl) v (·.logUse 0x000 0x01 req addr.toNat) (c.gate_size req size hk hsize) ho (by simp)
  case clock =>
    refine exec_registerWrite_stop b4 v (·.logErr 0x000 clsAccess 0x20 (ownerCode req) (word addr.toNat)) ?_ ho (by simp)
    rw [c.gate_clock req hk hc, word_addr]
  case verger => exact exec_registerWrite_stop b4 v (·.raise p 29) (c.gate_verger req hk hc hv hr hn) ho rfl
  case quarantined => exact exec_registerWrite_stop b4 v (·.raise p 29) (c.gate_quarantined req hk hc hv hl hn hq) ho rfl
  case held => exact exec_registerWrite_stop b4 v (·.raise p 29) (c.gate_held req hk hc hv hl hn hh hw) ho rfl
  case limited => exact exec_registerWrite_stop b4 v id (c.gate_limited req hk hc hv hl hn hq hh hp hb) ho rfl
  case reset =>
    exact exec_registerWrite_stop b4 v (·.logUse p 0x03 req addr.toNat) (c.gate_reset req hk hc hv hl hn hq hh hp hb hr) ho (by simp)

end Sys2Proof.Machine
end

section
/-! What a register write that passes the checks does (R65, R67, R72, R76): where the plain registers and the writable pairs lie, and
what each takes. -/

namespace Sys2Proof.Machine

/-! The check reads nothing of the bus's own state. -/

/-- A chain of checks passes where one that stops at the same checks does. -/
theorem pass_of_ite {p : Prop} [Decidable p] {x y x' y' : Gate} (hx : x = .pass → x' = .pass) (hy : y = .pass → y' = .pass) :
    (if p then x else y) = .pass → (if p then x' else y') = .pass := by
  split
  · exact hx
  · exact hy

theorem pass_of_stop {c d : Chip} : Gate.stop c = .pass → Gate.stop d = .pass := nofun

theorem Chip.gate_bus {c : Chip} {req : Requester} {addr : Nat} {size : RegSize} (h : c.gate req addr size = .pass) (b : BusState) :
    { c with bus := b }.gate req addr size = .pass := by
  have hk : pageClass (addr / 0x1000) ≠ none := fun hk => nomatch (c.gate_unmapped req addr size hk).symm.trans h
  refine (Chip.gate_mapped _ req size hk).trans ?_
  revert h
  rw [c.gate_mapped req size hk]
  exact pass_of_ite pass_of_stop <| pass_of_ite pass_of_stop <| pass_of_ite
    (pass_of_ite (pass_of_ite pass_of_stop id) pass_of_stop) <| pass_of_ite id <| pass_of_ite pass_of_stop <|
    pass_of_ite pass_of_stop <| pass_of_ite pass_of_stop <| pass_of_ite pass_of_stop id

/-! Pages by their kind. -/

/-- A page of a kind lies in a row of the page table for that kind (R66). -/
theorem pageClass_row {p : Nat} {k : PageClass} (h : pageClass p = some k) :
    ∃ r ∈ pageTable, r.1 ≤ p ∧ p ≤ r.2.1 ∧ r.2.2.2 = k := by
  obtain ⟨r, hr, hk⟩ := Option.map_eq_some_iff.mp h
  have hp := List.find?_some hr
  simp only [Bool.and_eq_true, decide_eq_true_eq] at hp
  exact ⟨r, List.mem_of_find?_eq_some hr, hp.1, hp.2, hk⟩

/-- A page lies between the bounds of the rows of some kinds. -/
theorem pageClass_within {p : Nat} {k : PageClass} {l : List PageClass} (lo hi : Nat) (h : pageClass p = some k) (hl : k ∈ l)
    (hr : ∀ r ∈ pageTable, r.2.2.2 ∈ l → lo ≤ r.1 ∧ r.2.1 ≤ hi) : lo ≤ p ∧ p ≤ hi :=
  have ⟨r, hm, hlo, hhi, hk⟩ := pageClass_row h
  ⟨(hr r hm (hk ▸ hl)).1.trans hlo, hhi.trans (hr r hm (hk ▸ hl)).2⟩

/-- Every pair ends below the page's end. -/
theorem classPairs_bound : ∀ r ∈ pageTable, ∀ q ∈ classPairs r.2.2.2, q.1 + q.2.2.1 * q.2.1 ≤ 0x900 ∧ 0 < q.2.2.1 := by
  decide

theorem pairLo_lt {p off : Nat} (h : pairLo p off = some true) : off < 0x900 := by
  unfold pairLo at h
  split at h
  · nomatch h
  next k hk =>
  split at h
  · nomatch h
  split at h
  next q hq =>
    obtain ⟨r, hr, -, -, rfl⟩ := pageClass_row hk
    obtain ⟨hb, h0⟩ := classPairs_bound r hr q (List.mem_of_find?_eq_some hq)
    have hf := List.find?_some hq
    obtain ⟨-, hf⟩ := (Bool.and_eq_true _ _).mp hf
    have hlt := (Nat.div_lt_iff_lt_mul h0).mp (of_decide_eq_true hf)
    rw [Nat.mul_comm] at hlt
    exact Nat.lt_of_lt_of_le (lt_add_of_tsub_lt_left hlt) hb
  · nomatch h

theorem word_toNat (v : Word) : word v.toNat = v := BitVec.ofNat_toNat 32 v

theorem blockWrite_of_ge {p : Nat} (h : 0x010 ≤ p) (req : Requester) (off : Nat) (v : Word) :
    blockWrite req p off v = if (0x070 ≤ p && p < 0x0C0) then fabricWrite req p off v
      else if (0x0C0 ≤ p && p < 0x100) then edgeWrite req p off v else engineWrite req p off v :=
  if_neg (Nat.not_lt_of_le h)

theorem blockWrite_fabric {p : Nat} (h : 0x070 ≤ p ∧ p ≤ 0x0BF) (req : Requester) (off : Nat) (v : Word) :
    blockWrite req p off v = fabricWrite req p off v :=
  (blockWrite_of_ge (Nat.le_trans (by decide) h.1) req off v).trans
    (if_pos ((Bool.and_eq_true _ _).mpr ⟨decide_eq_true h.1, decide_eq_true (Nat.lt_succ_of_le h.2)⟩))

theorem blockWrite_edge {p : Nat} (h : 0x0C0 ≤ p ∧ p ≤ 0x0FF) (req : Requester) (off : Nat) (v : Word) :
    blockWrite req p off v = edgeWrite req p off v :=
  (blockWrite_of_ge (Nat.le_trans (by decide) h.1) req off v).trans
    ((if_neg fun hf => absurd (of_decide_eq_true ((Bool.and_eq_true _ _).mp hf).2) (Nat.not_lt_of_le h.1)).trans
    (if_pos ((Bool.and_eq_true _ _).mpr ⟨decide_eq_true h.1, decide_eq_true (Nat.lt_succ_of_le h.2)⟩)))

theorem blockWrite_engine {p : Nat} (h : 0x010 ≤ p ∧ p ≤ 0x06F) (req : Requester) (off : Nat) (v : Word) :
    blockWrite req p off v = engineWrite req p off v :=
  (blockWrite_of_ge h.1 req off v).trans
    ((if_neg fun hf => absurd h.2 (Nat.not_le_of_lt (of_decide_eq_true ((Bool.and_eq_true _ _).mp hf).1))).trans
    (if_neg fun hf => absurd h.2 (Nat.not_le_of_lt (Nat.le_trans (by decide) (of_decide_eq_true ((Bool.and_eq_true _ _).mp hf).1)))))

/-! The rules of the pages with plain registers, by the kind of the page. -/

/-- The kinds whose registers have no rule of their own but at one offset. -/
def FabricPlain (off : Nat) (k : PageClass) : Prop :=
  k ∈ [PageClass.ecc, .lp5x, .dmaC] ∨ off ≠ 0x040 ∧ k ∈ [PageClass.rlk, .lxe] ∨ off ≠ 0x100 ∧ k ∈ [PageClass.dmaP, .dmaT]

def EdgePlain (off : Nat) (k : PageClass) : Prop :=
  k ∈ [PageClass.pciC] ∨ off ≠ 0x044 ∧ k ∈ [PageClass.pciA] ∨ (off ≠ 0x048 ∧ off ≠ 0x04C) ∧ k ∈ [PageClass.gpio]

def EnginePlain (off : Nat) (k : PageClass) : Prop :=
  k ∈ [PageClass.prcC, .vec, .gslot] ∨ off ≠ 0x05C ∧ k ∈ [PageClass.stall] ∨ off ≠ 0x840 ∧ k ∈ [PageClass.prcE]

/-- What a rule gives on every kind of a list. -/
theorem forall_or_list {α : Type} {l m n : List α} {a b : Prop} {P : α → Prop} (hl : ∀ k ∈ l, P k) (hm : a → ∀ k ∈ m, P k)
    (hn : b → ∀ k ∈ n, P k) : ∀ k, k ∈ l ∨ a ∧ k ∈ m ∨ b ∧ k ∈ n → P k := by
  rintro k (h | h | h)
  · exact hl k h
  · exact hm h.1 k h.2
  · exact hn h.1 k h.2

/-- A value that depends on a page by its kind, where the kind is one of some. -/
theorem eq_of_kind {α : Type} {W X : α} {p : Nat} {P : PageClass → Prop}
    (h : ∃ F : Option PageClass → α, (∀ o, pageClass p = o → W = F o) ∧ ∀ k, P k → F (some k) = X) {k : PageClass}
    (hk : pageClass p = some k) (hP : P k) : W = X :=
  h.elim fun _ h => (h.1 _ hk).trans (h.2 k hP)

theorem fabricWrite_plain {p off : Nat} {k : PageClass} (hk : pageClass p = some k) (h : FabricPlain off k) (req : Requester) (v : Word) :
    fabricWrite req p off v = chipM fun c => c.plain p off v :=
  eq_of_kind ⟨_, fun o ho => by rw [fabricWrite, ho], forall_or_list
    (List.forall_mem_cons.mpr ⟨rfl, List.forall_mem_cons.mpr ⟨rfl, List.forall_mem_singleton.mpr rfl⟩⟩)
    (fun h => List.forall_mem_cons.mpr ⟨if_neg h, List.forall_mem_singleton.mpr (if_neg h)⟩)
    fun h => List.forall_mem_cons.mpr ⟨if_neg h, List.forall_mem_singleton.mpr (if_neg h)⟩⟩ hk h

theorem fixWord_plain {p : Nat} {k : PageClass} (hk : pageClass p = some k)
    (h : k ∈ [PageClass.pciA, .pciC, .gpio, .prcC, .prcE, .vec, .stall, .gslot]) (off n : Nat) : fixWord p off n = n :=
  eq_of_kind (P := (· ∈ _)) ⟨_, fun o ho => by rw [fixWord, ho], List.forall_mem_cons.mpr ⟨rfl, List.forall_mem_cons.mpr ⟨rfl,
    List.forall_mem_cons.mpr ⟨rfl, List.forall_mem_cons.mpr ⟨rfl, List.forall_mem_cons.mpr ⟨rfl, List.forall_mem_cons.mpr ⟨rfl,
    List.forall_mem_cons.mpr ⟨rfl, List.forall_mem_singleton.mpr rfl⟩⟩⟩⟩⟩⟩⟩⟩ hk h

theorem edgeWrite_plain {p off : Nat} {k : PageClass} (hk : pageClass p = some k) (h : EdgePlain off k) (req : Requester) (v : Word) :
    edgeWrite req p off v = chipM fun c => c.plain p off (word (fixWord p off v.toNat)) :=
  eq_of_kind ⟨_, fun o ho => by rw [edgeWrite, ho], forall_or_list (List.forall_mem_singleton.mpr rfl)
    (fun h => List.forall_mem_singleton.mpr (if_neg h))
    fun h => List.forall_mem_singleton.mpr ((if_neg h.1).trans (if_neg h.2))⟩ hk h

theorem engineWrite_plain {p off : Nat} {k : PageClass} (hk : pageClass p = some k) (h : EnginePlain off k) (req : Requester) (v : Word) :
    engineWrite req p off v = chipM fun c => c.plain p off (word (fixWord p off v.toNat)) :=
  eq_of_kind ⟨_, fun o ho => by rw [engineWrite, ho], forall_or_list
    (List.forall_mem_cons.mpr ⟨rfl, List.forall_mem_cons.mpr ⟨rfl, List.forall_mem_singleton.mpr rfl⟩⟩)
    (fun h => List.forall_mem_singleton.mpr (if_neg h)) fun h => List.forall_mem_singleton.mpr (if_neg h)⟩ hk h

section
variable {p off : Nat} {k : PageClass} (hk : pageClass p = some k) (req : Requester) (v : Word)
include hk

theorem blockWrite_fabricPlain (hl : k ∈ [PageClass.ecc, .lp5x, .dmaC, .rlk, .lxe, .dmaP, .dmaT]) (h : FabricPlain off k) :
    blockWrite req p off v = chipM fun c => c.plain p off v :=
  (blockWrite_fabric (pageClass_within _ _ hk hl (by decide)) req off v).trans (fabricWrite_plain hk h req v)

theorem blockWrite_edgePlain (hl : k ∈ [PageClass.pciA, .pciC, .gpio]) (h : EdgePlain off k) :
    blockWrite req p off v = chipM fun c => c.plain p off v := by
  rw [blockWrite_edge (pageClass_within _ _ hk hl (by decide)), edgeWrite_plain hk h,
    fixWord_plain hk (List.mem_append_left _ hl), word_toNat]

theorem blockWrite_enginePlain (hl : k ∈ [PageClass.prcC, .prcE, .vec, .stall, .gslot]) (h : EnginePlain off k) :
    blockWrite req p off v = chipM fun c => c.plain p off v := by
  rw [blockWrite_engine (pageClass_within _ _ hk hl (by decide)), engineWrite_plain hk h,
    fixWord_plain hk (List.mem_append_right [_, _, _] hl), word_toNat]

end

/-- The rule of a plain register's page has no action for it, and stores the word as it was written. -/
theorem blockWrite_plain {p off : Nat} (h : isPlain p off = true) (req : Requester) (v : Word) :
    blockWrite req p off v = chipM fun c => c.plain p off v := by
  have hm := ((Bool.and_eq_true _ _).mp h).2
  generalize hk : pageClass p = o at hm
  clear h
  have hfalse : false = true → blockWrite req p off v = chipM fun c => c.plain p off v := fun h => nomatch h
  revert hk hm
  induction o with
  | none => exact fun _ => hfalse
  | some k =>
    induction k with
    | ecc | lp5x | dmaC => exact fun hk _ => blockWrite_fabricPlain hk req v (by decide) (.inl (by decide))
    | rlk | lxe => exact fun hk hm => blockWrite_fabricPlain hk req v (by decide) (.inr (.inl ⟨bne_iff_ne.mp hm, by decide⟩))
    | dmaP | dmaT => exact fun hk hm => blockWrite_fabricPlain hk req v (by decide) (.inr (.inr ⟨bne_iff_ne.mp hm, by decide⟩))
    | pciC => exact fun hk _ => blockWrite_edgePlain hk req v (by decide) (.inl (by decide))
    | pciA => exact fun hk hm => blockWrite_edgePlain hk req v (by decide) (.inr (.inl ⟨bne_iff_ne.mp hm, by decide⟩))
    | gpio =>
      exact fun hk hm => blockWrite_edgePlain hk req v (by decide)
        (.inr (.inr ⟨((Bool.and_eq_true _ _).mp hm).imp bne_iff_ne.mp bne_iff_ne.mp, by decide⟩))
    | prcC | vec | gslot => exact fun hk _ => blockWrite_enginePlain hk req v (by decide) (.inl (by decide))
    | stall => exact fun hk hm => blockWrite_enginePlain hk req v (by decide) (.inr (.inl ⟨bne_iff_ne.mp hm, by decide⟩))
    | prcE => exact fun hk hm => blockWrite_enginePlain hk req v (by decide) (.inr (.inr ⟨bne_iff_ne.mp hm, by decide⟩))
    | _ => exact fun _ => hfalse

/-- What a register stores of a word when no field of it is set by writing 1. -/
theorem RegRow.store_eq {r : RegRow} (h : r.w1s = 0) (old v : Word) :
    r.store old v = ((old &&& ~~~(r.rw ||| r.cnt)) ||| (v &&& (r.rw ||| r.cnt))) &&& ~~~(v &&& r.w1c) := by
  simp [RegRow.store, h]

theorem Chip.plain_of_row {r : RegRow} {p off : Nat} (h : regRow p off = some r) (c : Chip) (v : Word) :
    c.plain p off v = c.wr p off (r.store (c.rd p off) v) := by
  simp [Chip.plain, h]

/-! From REGISTER_WRITE to the register's rule. -/

theorem pageClass_gslot : ∀ p, p ≤ 0x01F → 0x018 ≤ p → pageClass p = some .gslot := by
  decide

/-- A graph slot's page has its command registers where no pair lies. -/
theorem pairLo_slotCommands : ∀ p, p ≤ 0x01F → 0x018 ≤ p → ∀ off ∈ [0x074, 0x078, 0x0A4, 0x0A8, 0x0AC, 0x0B0], pairLo p off ≠ some true := by
  decide

/-- The graph slots' command registers aside, a register takes what its page's rule says. -/
theorem regTakeAll_eq {p off : Nat} (h : ¬(0x018 ≤ p ∧ p ≤ 0x01F) ∨ off ≠ 0x078 ∧ off ≠ 0x0A8 ∧ off ≠ 0x0B0) (req : Requester)
    (v : Word) : regTakeAll req p off v = regTake req p off v := by
  unfold regTakeAll
  rw [if_neg (by tauto), if_neg (by tauto), if_neg (by tauto)]

section
variable {req : Requester} {s : State} {p off : Nat} (v : Word)

/-- A write that passes the checks is what the register takes. -/
theorem regWriteAll_pass {w : Work} (hg : w.chip.gate req (regAddr p off) .b4 = .pass) (hp : p ≠ 0x008) (ho : off < 0x1000)
    (h4 : off % 4 = 0) : regWriteAll req (regAddr p off) .b4 v w = regTakeAll req p off v w := by
  have hpage := regAddr_div p ho
  rw [regWriteAll, regWriteWith_pass _ req _ .b4 w hg fun h => absurd (hpage.symm.trans h) hp, hpage, regAddr_mod p ho,
    Nat.div_mul_cancel (Nat.dvd_of_mod_eq_zero h4)]

/-- REGISTER_WRITE leaves what the register makes of this chip. -/
theorem exec_registerWrite_takes (hg : s.passes req p off) (hl : p < 4096) (hp : p ≠ 0x008) (ho : off < 0x1000) (h4 : off % 4 = 0)
    (f : Chip → Chip) (h : regTakeAll req p off v s.work = ((), s.work.onChip f)) :
    exec (.registerWrite req (BitVec.ofNat 24 (regAddr p off)) .b4 v) s = .next (s.onChip f) := by
  rw [exec_registerWrite_b4, toNat_regAddr hl ho]
  exact s.onMem_of_eq ((regWriteAll_pass v (w := s.work) hg hp ho h4).trans h)

/-- A write that passes the checks is of an allocated page. -/
theorem pageClass_of_pass (hg : s.passes req p off) (ho : off < 0x1000) : ∃ k, pageClass p = some k := by
  refine Option.ne_none_iff_exists'.mp fun hk => ?_
  nomatch (Chip.gate_unmapped s.chip req _ .b4 ((regAddr_div p ho).symm ▸ hk)).symm.trans hg

end

/-! Header registers (R67). -/

theorem regRow_header {p off : Nat} {k : PageClass} (hk : pageClass p = some k) (ho : off < 0x040) :
    regRow p off = rowsHdr.find? fun r => r.covers off := by
  simp [regRow, hk, ho]

/-- A register whose every bit is RW takes the word. -/
theorem RegRow.store_rw {r : RegRow} (h : r.rw = BitVec.allOnes 32) (hc : r.w1c = 0) (hs : r.w1s = 0) (old v : Word) :
    r.store old v = v := by
  simp only [RegRow.store, h, hc, hs, BitVec.allOnes_or, BitVec.not_allOnes, BitVec.ofNat_eq_ofNat, BitVec.and_zero,
    BitVec.zero_or, BitVec.and_allOnes, BitVec.not_zero, BitVec.or_zero]

theorem Chip.plain_scratch {p : Nat} {k : PageClass} (hk : pageClass p = some k) (c : Chip) (v : Word) :
    c.plain p 0x030 v = c.wr p 0x030 v := by
  have hr : regRow p 0x030 = some ⟨0x030, 1, 4, "SCRATCH", 0xFFFFFFFF, 0, 0, 0, 0, 0⟩ := by
    rw [regRow_header hk (by decide)]; rfl
  rw [Chip.plain_of_row hr, RegRow.store_rw rfl rfl rfl]

theorem Chip.plain_irqEn {p : Nat} {k : PageClass} (hk : pageClass p = some k) (c : Chip) (v : Word) :
    c.plain p 0x018 v = c.wr p 0x018 v := by
  have hr : regRow p 0x018 = some ⟨0x018, 1, 4, "IRQ_EN", 0xFFFFFFFF, 0, 0, 0, 0, 0⟩ := by
    rw [regRow_header hk (by decide)]; rfl
  rw [Chip.plain_of_row hr, RegRow.store_rw rfl rfl rfl]

/-- No register lies between SCRATCH and the block registers (R65). -/
theorem Chip.plain_unused {p : Nat} {k : PageClass} (hk : pageClass p = some k) (c : Chip) (v : Word) : c.plain p 0x034 v = c := by
  have hr : regRow p 0x034 = none := by
    rw [regRow_header hk (by decide)]; rfl
  simp [Chip.plain, hr]

section
variable {req : Requester} {s : State} {p off : Nat}

theorem exec_registerWrite_header (v : Word) (hg : s.passes req p off) (hl : p < 4096) (hp : p ≠ 0x008) (ho : off < 0x040)
    (h4 : off % 4 = 0) (f : Chip → Chip) (h : headerWrite req p off v s.work = ((), s.work.onChip f)) :
    exec (.registerWrite req (BitVec.ofNat 24 (regAddr p off)) .b4 v) s = .next (s.onChip f) :=
  exec_registerWrite_takes v hg hl hp (Nat.lt_trans ho (by decide)) h4 f ((regTakeAll_header req p v s.work ho).trans h)

/-! A plain register (R72). -/

theorem isPlain_lo (h : isPlain p off = true) : pairLo p off ≠ some true ∧ pairHi p off ≠ some true ∧ 0x040 ≤ off := by
  obtain ⟨h, hhi⟩ := (Bool.and_eq_true _ _).mp ((Bool.and_eq_true _ _).mp h).1
  obtain ⟨h, hlo⟩ := (Bool.and_eq_true _ _).mp h
  exact ⟨bne_iff_ne.mp hlo, bne_iff_ne.mp hhi, of_decide_eq_true ((Bool.and_eq_true _ _).mp h).1⟩

/-- A plain register of a graph slot's page is none of its command registers. -/
theorem isPlain_slot (h : isPlain p off = true) : ¬(0x018 ≤ p ∧ p ≤ 0x01F) ∨ off ≠ 0x078 ∧ off ≠ 0x0A8 ∧ off ≠ 0x0B0 := by
  refine or_iff_not_imp_left.mpr fun hp => ?_
  have hm := ((Bool.and_eq_true _ _).mp h).2
  rw [pageClass_gslot p (not_not.mp hp).2 (not_not.mp hp).1] at hm
  obtain ⟨h12, h3⟩ := (Bool.and_eq_true _ _).mp hm
  obtain ⟨h1, h2⟩ := (Bool.and_eq_true _ _).mp h12
  exact ⟨bne_iff_ne.mp h1, bne_iff_ne.mp h2, bne_iff_ne.mp h3⟩

theorem regTakeAll_plain (h : isPlain p off = true) (v : Word) (w : Work) (hl : w.chip.locked p off = none) :
    regTakeAll req p off v w = ((), w.onChip fun c => c.plain p off v) := by
  obtain ⟨hlo, hhi, ho⟩ := isPlain_lo h
  have hpair : w.chip.lockedPair p off = none := by simp [Chip.lockedPair, hl, hhi]
  simp only [regTakeAll_eq (isPlain_slot h), regTake, WM.bind_apply, getChip_apply, hlo, hhi, hpair, show ¬off < 0x040 by omega,
    or_self, if_false, blockWrite_plain h]
  rfl

theorem regTakeAll_locked (h : ¬(0x018 ≤ p ∧ p ≤ 0x01F) ∨ off ≠ 0x078 ∧ off ≠ 0x0A8 ∧ off ≠ 0x0B0) (v : Word) (w : Work)
    (hlo : pairLo p off ≠ some true) {e : Nat} (hl : w.chip.lockedPair p off = some e) :
    regTakeAll req p off v w = ((), w.onChip fun c => c.lockedWrite req p off e) := by
  simp only [regTakeAll_eq h, regTake, WM.bind_apply, getChip_apply, hlo, hl, if_false]
  rfl

/-! A writable pair (R76). -/

/-- What is known of a writable pair at an offset of another page than 0x008, that is not TB_SET's. -/
structure IsPair (p off : Nat) : Prop where
  lo : pairLo p off = some true
  next : pairLo p (off + 4) = none
  page : p ≠ 0x008
  notTb : regAddr p off ≠ regAddr 0x0D0 0x048

theorem IsPair.off_le (h : IsPair p off) : 0x040 ≤ off :=
  Nat.le_of_not_lt fun hn => pairLo_header p hn h.lo

theorem IsPair.hi_lt (h : IsPair p off) : off + 4 < 0x1000 :=
  Nat.lt_of_lt_of_le (Nat.add_lt_add_right (pairLo_lt h.lo) 4) (by decide)

theorem IsPair.off_lt (h : IsPair p off) : off < 0x1000 := Nat.lt_of_le_of_lt (Nat.le_add_right off 4) h.hi_lt

theorem IsPair.hi (h : IsPair p off) : pairHi p (off + 4) = some true := (pairHi_add_four p off).trans h.lo

/-- A pair of a graph slot's page is none of its command registers. -/
theorem IsPair.not_slotCommand (h : IsPair p off) (hp : 0x018 ≤ p ∧ p ≤ 0x01F) {o : Nat}
    (ho : o ∈ [0x074, 0x078, 0x0A4, 0x0A8, 0x0AC, 0x0B0]) : off ≠ o :=
  fun e => pairLo_slotCommands p hp.2 hp.1 off (e ▸ ho) h.lo

theorem IsPair.slot_lo (h : IsPair p off) : ¬(0x018 ≤ p ∧ p ≤ 0x01F) ∨ off ≠ 0x078 ∧ off ≠ 0x0A8 ∧ off ≠ 0x0B0 :=
  (Decidable.em _).symm.imp_right fun hp =>
    ⟨h.not_slotCommand hp (by decide), h.not_slotCommand hp (by decide), h.not_slotCommand hp (by decide)⟩

theorem IsPair.slot_hi (h : IsPair p off) : ¬(0x018 ≤ p ∧ p ≤ 0x01F) ∨ off + 4 ≠ 0x078 ∧ off + 4 ≠ 0x0A8 ∧ off + 4 ≠ 0x0B0 :=
  (Decidable.em _).symm.imp_right fun hp =>
    ⟨fun e => h.not_slotCommand hp (o := 0x074) (by decide) (Nat.add_right_cancel e),
      fun e => h.not_slotCommand hp (o := 0x0A4) (by decide) (Nat.add_right_cancel e),
      fun e => h.not_slotCommand hp (o := 0x0AC) (by decide) (Nat.add_right_cancel e)⟩

theorem IsPair.pairWrite_lo (h : IsPair p off) (c : Chip) (lo : Word) : c.pairWrite req p off lo = c.pairLoWrite req p off lo := by
  simp [Chip.pairWrite, h.lo, h.page]

theorem IsPair.pairWrite_hi (h : IsPair p off) (c : Chip) (hi : Word) :
    c.pairWrite req p (off + 4) hi = c.pairHiWrite req p off hi := by
  have ht : ¬(p = 0x0D0 ∧ off = 0x048) := fun ⟨hp, ho⟩ => h.notTb (by rw [hp, ho])
  simp [Chip.pairWrite, h.next, h.page, ht, -not_and]

/-- LO is held for its requester. -/
theorem IsPair.regTakeAll_lo (h : IsPair p off) (v : Word) (w : Work) :
    regTakeAll req p off v w = ((), w.onChip fun c => c.pairLoWrite req p off v) := by
  simp only [regTakeAll_eq h.slot_lo, regTake, WM.bind_apply, getChip_apply, h.lo, if_true, h.pairWrite_lo]
  rfl

/-- HI takes effect where neither word of the pair is locked. -/
theorem IsPair.regTakeAll_hi (h : IsPair p off) (v : Word) (w : Work) (hl : w.chip.lockedPair p (off + 4) = none) :
    regTakeAll req p (off + 4) v w = ((), w.onChip fun c => c.pairHiWrite req p off v) := by
  have := h.off_le
  simp only [regTakeAll_eq h.slot_hi, regTake, WM.bind_apply, getChip_apply, h.next, hl, h.hi, show ¬off + 4 < 0x040 by omega,
    reduceCtorEq, if_false, or_true, if_true, h.pairWrite_hi]
  rfl

end

theorem exec_hiWrite (req : Requester) {p off : Nat} (v : Word) (s : State) (hl : p < 4096) (ho : off < 0x1000) :
    exec (.hiWrite req (BitVec.ofNat 24 (regAddr p off)) v) s =
      s.onMem (if pairHi p off = some true then regWriteAll req (regAddr p off) .b4 v else pure ()) := by
  show execHiWrite req _ v s = _
  rw [execHiWrite, toNat_regAddr hl ho, regAddr_div p ho, regAddr_mod p ho]

/-! The commands of a pair. -/

theorem exec_registerWrite_b8 (req : Requester) (addr : BitVec 24) (lo hi : Word) (s : State) :
    exec (.registerWrite req addr (.b8 hi) lo) s =
      s.onMem (regWriteAll req addr.toNat .b4 lo >>= fun _ => regWriteAll req (addr.toNat + 4) .b4 hi) := by
  rfl

section
variable {req : Requester} {s : State} {p off : Nat} (h : IsPair p off) (hl : p < 4096) (h4 : off % 4 = 0)
include h hl h4

theorem IsPair.exec_lo (hg : s.passes req p off) (v : Word) : exec (.registerWrite req (BitVec.ofNat 24 (regAddr p off)) .b4 v) s =
    .next (s.onChip fun c => c.pairLoWrite req p off v) :=
  exec_registerWrite_takes v hg hl h.page h.off_lt h4 _ (h.regTakeAll_lo v _)

omit h4 in
theorem IsPair.exec_hiWrite_eq (v : Word) : exec (.hiWrite req (BitVec.ofNat 24 (regAddr p (off + 4))) v) s =
    exec (.registerWrite req (BitVec.ofNat 24 (regAddr p (off + 4))) .b4 v) s := by
  rw [exec_hiWrite req v s hl h.hi_lt, exec_registerWrite_b4, toNat_regAddr hl h.hi_lt, if_pos h.hi]

variable (hg : s.passes req p (off + 4))
include hg

theorem IsPair.exec_hi (v : Word) (hk : s.chip.lockedPair p (off + 4) = none) :
    exec (.hiWrite req (BitVec.ofNat 24 (regAddr p (off + 4))) v) s = .next (s.onChip fun c => c.pairHiWrite req p off v) := by
  rw [h.exec_hiWrite_eq hl]
  exact exec_registerWrite_takes v hg hl h.page h.hi_lt ((Nat.add_mod_right off 4).trans h4) _ (h.regTakeAll_hi v s.work hk)

theorem IsPair.exec_hi_locked (v : Word) {e : Nat} (hk : s.chip.lockedPair p (off + 4) = some e) :
    exec (.hiWrite req (BitVec.ofNat 24 (regAddr p (off + 4))) v) s =
      .next (s.onChip fun c => c.lockedWrite req p (off + 4) e) := by
  rw [h.exec_hiWrite_eq hl]
  exact exec_registerWrite_takes v hg hl h.page h.hi_lt ((Nat.add_mod_right off 4).trans h4) _
    (regTakeAll_locked h.slot_hi v s.work (by simp [h.next]) hk)

/-- Eight bytes of the host are the two accesses in their order. -/
theorem IsPair.exec_both (hlo : s.passes req p off) (lo hi : Word) (hk : s.chip.lockedPair p (off + 4) = none) :
    exec (.registerWrite req (BitVec.ofNat 24 (regAddr p off)) (.b8 hi) lo) s =
      .next (s.onChip fun c => (c.pairLoWrite req p off lo).pairHiWrite req p off hi) := by
  have hfirst := (regWriteAll_pass lo (w := s.work) hlo h.page h.off_lt h4).trans (h.regTakeAll_lo lo _)
  have hgate : (s.chip.pairLoWrite req p off lo).gate req (regAddr p (off + 4)) .b4 = .pass := Chip.gate_bus hg _
  have hsecond := (regWriteAll_pass hi (w := s.work.onChip fun c => c.pairLoWrite req p off lo) hgate h.page h.hi_lt
    ((Nat.add_mod_right off 4).trans h4)).trans (h.regTakeAll_hi hi _ hk)
  rw [exec_registerWrite_b8, toNat_regAddr hl h.off_lt, show regAddr p off + 4 = regAddr p (off + 4) from Nat.add_assoc _ _ _]
  exact s.onMem_of_eq (WM.bind_of_eq hfirst hsecond)

end

/-- A HI word by whether its requester holds the LO word. -/
theorem Chip.pairHiWrite_held {c : Chip} {req : Requester} {p off : Nat} {lo : Word} (hi : Word)
    (h : aget c.bus.held (reqKey (regAddr p off) req) = some lo) : c.pairHiWrite req p off hi =
      (({ c with bus := { c.bus with held := adel c.bus.held (reqKey (regAddr p off) req) } }).plain p off lo).plain p (off + 4) hi := by
  simp [Chip.pairHiWrite, h]

theorem Chip.pairHiWrite_alone {c : Chip} {req : Requester} {p off : Nat} (hi : Word)
    (h : aget c.bus.held (reqKey (regAddr p off) req) = none) : c.pairHiWrite req p off hi = c.plain p (off + 4) hi := by
  simp [Chip.pairHiWrite, h]

theorem wordOff_lt (k : Fin 1024) : 4 * k.val < 0x1000 := (Nat.mul_lt_mul_left (by decide)).mpr k.isLt

/-- Settles O12: a header register takes its own rule, a plain one stores by the kinds of its fields, and a pair's HI word finds the LO
word that its requester holds. -/
theorem registerWriteTakes : Obligations.RegisterWriteTakes := by
  unfold Obligations.RegisterWriteTakes
  intro req v s p k hp off at_
  refine ⟨fun hg => ?scratch, fun hg => ?irqEn, fun hg => ?irqRaw, fun hg => ?unused, fun hg hpl => ⟨fun r hr hs hk => ?plain,
    fun e hk => ?locked⟩, fun hlo hn ht => ?pair, fun hhi => ?noPair⟩
  case scratch =>
    obtain ⟨k, hk⟩ := pageClass_of_pass hg (by decide)
    refine exec_registerWrite_header v hg p.isLt hp (by decide) (by decide) _ ?_
    exact congrArg (fun c => ((), { s.work with chip := c })) (Chip.plain_scratch hk s.chip v)
  case irqEn =>
    obtain ⟨k, hk⟩ := pageClass_of_pass hg (by decide)
    refine exec_registerWrite_header v hg p.isLt hp (by decide) (by decide) _ ?_
    exact congrArg (fun c => ((), { s.work with chip := c })) (Chip.plain_irqEn hk s.chip _)
  case irqRaw => exact exec_registerWrite_header v hg p.isLt hp (by decide) (by decide) _ rfl
  case unused =>
    obtain ⟨k, hk⟩ := pageClass_of_pass hg (by decide)
    refine exec_registerWrite_header v hg p.isLt hp (by decide) (by decide) _ ?_
    exact congrArg (fun c => ((), { s.work with chip := c })) (Chip.plain_unused hk s.chip v)
  case plain =>
    rw [exec_registerWrite_takes v hg p.isLt hp (wordOff_lt k) (Nat.mul_mod_right 4 k) _ (regTakeAll_plain hpl v s.work hk)]
    exact congrArg _ (s.onChip_congr _ _ (by rw [Chip.plain_of_row hr, RegRow.store_eq hs]))
  case locked =>
    obtain ⟨hlo, hhi, -⟩ := isPlain_lo hpl
    have hpair : s.chip.lockedPair p off = some e := by simp [Chip.lockedPair, hk]
    rw [exec_registerWrite_takes v hg p.isLt hp (wordOff_lt k) (Nat.mul_mod_right 4 k) _ (regTakeAll_locked (isPlain_slot hpl) v s.work hlo hpair)]
    exact congrArg _ (s.onChip_congr _ _ (by simp [Chip.lockedWrite, hhi]))
  case pair =>
    have h : IsPair p off := ⟨hlo, hn, hp, ht⟩
    refine ⟨fun hg => h.exec_lo p.isLt (Nat.mul_mod_right 4 k) hg v, fun hg => ⟨h.exec_hiWrite_eq p.isLt v, fun hk => ⟨fun lo hheld => ?_, fun hnone => ?_,
      fun hlo lo => ?_⟩, fun e hk => ?_⟩⟩
    · rw [h.exec_hi p.isLt (Nat.mul_mod_right 4 k) hg v hk]
      exact congrArg _ (s.onChip_congr _ _ (Chip.pairHiWrite_held v hheld))
    · rw [h.exec_hi p.isLt (Nat.mul_mod_right 4 k) hg v hk]
      exact congrArg _ (s.onChip_congr _ _ (Chip.pairHiWrite_alone v hnone))
    · rw [h.exec_both p.isLt (Nat.mul_mod_right 4 k) hg hlo lo v hk]
      exact congrArg _ (s.onChip_congr _ _ (Chip.pairHiWrite_held v (aget_aput_same _ _ _)))
    · rw [h.exec_hi_locked p.isLt (Nat.mul_mod_right 4 k) hg v hk]
      exact congrArg _ (s.onChip_congr _ _ (by simp [Chip.lockedWrite, h.hi]))
  case noPair =>
    rw [exec_hiWrite req v s p.isLt (wordOff_lt k), if_neg hhi]
    exact s.onMem_pure

end Sys2Proof.Machine
end

section
/-! Snapshots (R74, R78): where the groups of a page lie, and what SNAP leaves of the frozen words. -/

namespace Sys2Proof.Machine

/-! Single bits of a number, and of a field. -/

theorem bits_one_eq_one (v g : Nat) : bits v g 1 = 1 ↔ v.testBit g = true := by
  rw [bits, pow_one, ← Nat.toNat_testBit]
  cases v.testBit g <;> simp

theorem bits_one_eq_zero (v g : Nat) : bits v g 1 = 0 ↔ v.testBit g = false := by
  rw [bits, pow_one, ← Nat.toNat_testBit]
  cases v.testBit g <;> simp

theorem testBit_bits (v lo : Nat) {g w : Nat} (h : g < w) : (bits v lo w).testBit g = v.testBit (lo + g) := by
  rw [bits, Nat.testBit_mod_two_pow, Nat.testBit_div_two_pow]
  simp [h, Nat.add_comm]

theorem Chip.bit_eq_testBit (c : Chip) (p off b : Nat) : c.bit p off b = (c.rd p off).toNat.testBit b := by
  rw [Chip.bit, Chip.fld, Bool.eq_iff_iff, beq_iff_eq, bits_one_eq_one]

/-- A bit of a register that lies in a field. -/
theorem Chip.bit_of_fld (c : Chip) (p off lo : Nat) {g w : Nat} (h : g < w) :
    c.bit p off (lo + g) = (c.fld p off lo w).testBit g := by
  rw [c.bit_eq_testBit, Chip.fld, testBit_bits _ _ h]

theorem testBit_compl_byte {x g : Nat} (hx : x < 256) (hg : g < 8) : (255 - x).testBit g = !x.testBit g := by
  have := Nat.testBit_two_pow_sub_succ (n := 8) hx g
  simpa [hg] using this

/-! Words, by address. -/

theorem Chip.rd_eq_wordAt (c : Chip) (p off : Nat) : c.rd p off = c.wordAt (regAddr p off) := rfl

theorem Chip.wordAt_wr (c : Chip) (p off a : Nat) (v : Word) : (c.wr p off v).wordAt a = if regAddr p off = a then v else c.wordAt a := by
  simp only [Chip.wordAt, Chip.wr, aget_aput]
  split <;> rfl

theorem Chip.wordAt_wr_ne (c : Chip) {p off a : Nat} (v : Word) (h : a ≠ regAddr p off) : (c.wr p off v).wordAt a = c.wordAt a := by
  rw [c.wordAt_wr, if_neg h.symm]

theorem Chip.wordAt_setFld_ne (c : Chip) {p off a : Nat} (lo w x : Nat) (h : a ≠ regAddr p off) :
    (c.setFld p off lo w x).wordAt a = c.wordAt a := c.wordAt_wr_ne _ h

theorem Chip.wordAt_of_regs {c d : Chip} (h : d.regs = c.regs) (a : Nat) : d.wordAt a = c.wordAt a := by
  rw [Chip.wordAt, Chip.wordAt, h]

theorem Chip.rd_of_regs {c d : Chip} (h : d.regs = c.regs) (p off : Nat) : d.rd p off = c.rd p off := c.wordAt_of_regs h _

theorem regAddr_inj {p o o' : Nat} (h : regAddr p o = regAddr p o') : o = o' := by
  exact Nat.add_left_cancel h

/-! The groups of a kind of page (R78). -/

/-- No two groups of a page overlap, every group begins at a word, and lies in the page's block registers. -/
theorem snapGroups_apart : ∀ r ∈ pageTable, ∀ g ∈ snapGroups r.2.2.2,
    (∀ g' ∈ snapGroups r.2.2.2, g.1 ≠ g'.1 → g.2.2 < g'.2.1 ∨ g'.2.2 < g.2.1) ∧
    g.2.1 % 4 = 0 ∧ 0x040 ≤ g.2.1 ∧ g.2.1 ≤ g.2.2 ∧ g.1 < 2 := by
  decide

theorem snapGroups_of_page {p : Nat} {k : PageClass} (hk : pageClass p = some k) {g : Nat × Nat × Nat} (hg : g ∈ snapGroups k) :
    (∀ g' ∈ snapGroups k, g.1 ≠ g'.1 → g.2.2 < g'.2.1 ∨ g'.2.2 < g.2.1) ∧
    g.2.1 % 4 = 0 ∧ 0x040 ≤ g.2.1 ∧ g.2.1 ≤ g.2.2 ∧ g.1 < 2 := by
  obtain ⟨r, hr, -, -, rfl⟩ := pageClass_row hk
  exact snapGroups_apart r hr g hg

theorem mem_snapOffsets {k : PageClass} {g off : Nat} :
    off ∈ snapOffsets k g ↔ ∃ r ∈ snapGroups k, r.1 = g ∧ ∃ i, r.2.1 + 4 * i = off ∧ i < (r.2.2 - r.2.1) / 4 + 1 := by
  simp only [snapOffsets, List.mem_flatMap, List.mem_filter, List.mem_map, List.mem_range, beq_iff_eq]
  constructor
  · rintro ⟨r, ⟨hr, hg⟩, i, hi, ho⟩
    exact ⟨r, hr, hg, i, ho, hi⟩
  · rintro ⟨r, hr, hg, i, ho, hi⟩
    exact ⟨r, ⟨hr, hg⟩, i, hi, ho⟩

/-- The row of the group that an offset belongs to. -/
theorem snapGroupOf_row {p off g : Nat} (h : snapGroupOf p off = some g) :
    ∃ k, pageClass p = some k ∧ ∃ r ∈ snapGroups k, r.1 = g ∧ r.2.1 ≤ off ∧ off ≤ r.2.2 := by
  unfold snapGroupOf at h
  split at h
  · nomatch h
  next k hk =>
    obtain ⟨r, hr, hg⟩ := Option.map_eq_some_iff.mp h
    have hp := List.find?_some hr
    simp only [Bool.and_eq_true, decide_eq_true_eq] at hp
    exact ⟨k, hk, r, List.mem_of_find?_eq_some hr, hg, hp⟩

section
variable {p off g : Nat} (h : snapGroupOf p off = some g)
include h

theorem snapGroupOf_lt : g < 2 := by
  obtain ⟨k, hk, r, hr, rfl, -⟩ := snapGroupOf_row h
  obtain ⟨-, -, -, -, hlt⟩ := snapGroups_of_page hk hr
  exact hlt

theorem snapGroupOf_off : 0x040 ≤ off := by
  obtain ⟨k, hk, r, hr, -, hlo, -⟩ := snapGroupOf_row h
  obtain ⟨-, -, h40, -⟩ := snapGroups_of_page hk hr
  exact h40.trans hlo

/-- An offset of a group is frozen with its group, -/
theorem mem_snapOffsets_of_group {k : PageClass} (hk : pageClass p = some k) (h4 : off % 4 = 0) : off ∈ snapOffsets k g := by
  obtain ⟨k', hk', r, hr, hg, hlo, hhi⟩ := snapGroupOf_row h
  obtain rfl : k = k' := Option.some.inj (hk.symm.trans hk')
  obtain ⟨-, ha, -⟩ := snapGroups_of_page hk hr
  have hd : 4 ∣ off - r.2.1 := Nat.dvd_sub (Nat.dvd_of_mod_eq_zero h4) (Nat.dvd_of_mod_eq_zero ha)
  exact mem_snapOffsets.mpr ⟨r, hr, hg, (off - r.2.1) / 4, by rw [Nat.mul_div_cancel' hd, Nat.add_sub_cancel' hlo],
    Nat.lt_succ_of_le (Nat.div_le_div_right (Nat.sub_le_sub_right hhi _))⟩

/-- and with no other. -/
theorem not_mem_snapOffsets_of_ne {k : PageClass} {g' : Nat} (hk : pageClass p = some k) (hne : g' ≠ g) : off ∉ snapOffsets k g' := by
  obtain ⟨k', hk', r, hr, rfl, hlo, hhi⟩ := snapGroupOf_row h
  obtain rfl : k = k' := Option.some.inj (hk.symm.trans hk')
  intro hm
  obtain ⟨r', hr', rfl, i, rfl, hi⟩ := mem_snapOffsets.mp hm
  obtain ⟨-, -, -, hle, -⟩ := snapGroups_of_page hk hr'
  obtain ⟨hapart, -⟩ := snapGroups_of_page hk hr
  have hi' : r'.2.1 + 4 * i ≤ r'.2.2 :=
    Nat.add_comm .. ▸ Nat.add_le_of_le_sub hle (Nat.mul_comm .. ▸ Nat.mul_le_of_le_div _ _ _ (Nat.le_of_lt_succ hi))
  obtain hx | hx := hapart r' hr' hne.symm
  · exact Nat.not_le_of_lt hx ((Nat.le_add_right _ _).trans hhi)
  · exact Nat.not_le_of_lt hx (hlo.trans hi')

/-- A register of a group reads as it is stored: none is held elsewhere. -/
theorem Chip.live_of_group (c : Chip) : c.live p off = c.rd p off := by
  obtain ⟨k, hk, r, hr, -, hlo, hhi⟩ := snapGroupOf_row h
  have h40 := snapGroupOf_off h
  have h10 : off ≠ 0x010 := (Nat.lt_of_lt_of_le (by decide) h40).ne'
  have h14 : off ≠ 0x014 := (Nat.lt_of_lt_of_le (by decide) h40).ne'
  refine eq_of_kind (P := fun k => r ∈ snapGroups k) ⟨_, fun o ho => by rw [Chip.live, if_neg h10, if_neg h14, ho], fun k => ?_⟩ hk hr
  induction k with
  | vrgA =>
    intro hr
    obtain rfl := List.mem_singleton.mp hr
    exact (if_neg (Nat.lt_of_lt_of_le (by decide) hlo).ne').trans ((if_neg (Nat.lt_of_lt_of_le (by decide) hlo).ne').trans
      (if_neg (Nat.lt_of_le_of_lt hhi (by decide)).ne))
  | roodR =>
    intro hr
    obtain rfl := List.mem_singleton.mp hr
    exact if_neg fun h => h.elim (fun h => Nat.not_le_of_lt (Nat.lt_of_le_of_lt h.2 (by decide)) hlo) fun h => absurd (h ▸ hlo) (by decide)
  | sys | vrgB | sac | pciA | pciB | tb | uart => exact fun hr => absurd hr List.not_mem_nil
  | _ => exact fun _ => rfl

theorem Chip.frozenGroup_of_group (c : Chip) : c.frozenGroup p off = (c.fld p 0x02C 8 8).testBit g := by
  rw [Chip.frozenGroup, h]
  exact c.bit_of_fld p 0x02C 8 (Nat.lt_trans (snapGroupOf_lt h) (by decide))

end

@[simp] theorem Chip.settle_frozenGroup (c : Chip) (p off : Nat) : c.settle.frozenGroup p off = c.frozenGroup p off := rfl

/-! Frozen words. -/

/-- Keys that are set one after another hold their values, -/
theorem aget_foldl_aput_mem {β : Type} (key : Nat → Nat) (v : Nat → β) (hk : Function.Injective key) {o : Nat} :
    ∀ (xs : List Nat) (l : List (Nat × β)), o ∈ xs → aget (xs.foldl (fun l x => aput l (key x) (v x)) l) (key o) = some (v o) := by
  intro xs
  induction xs using List.reverseRecOn with
  | nil => simp
  | append_singleton xs x ih =>
    intro l h
    rw [List.foldl_concat, aget_aput]
    split
    next he => rw [hk he]
    next he => exact ih l (by simpa [show o ≠ x from fun e => he (congrArg key e.symm)] using h)

/-- and no other key changes. -/
theorem aget_foldl_aput_ne {β : Type} (key : Nat → Nat) (v : Nat → β) {y : Nat} :
    ∀ (xs : List Nat) (l : List (Nat × β)), (∀ x ∈ xs, key x ≠ y) → aget (xs.foldl (fun l x => aput l (key x) (v x)) l) y = aget l y
  | [], _, _ => rfl
  | x :: xs, l, h => by
    rw [List.foldl_cons, aget_foldl_aput_ne key v xs _ fun z hz => h z (List.mem_cons_of_mem _ hz),
      aget_aput_ne _ _ _ _ (h x List.mem_cons_self)]

theorem Chip.freeze_of_class (c : Chip) {p : Nat} {k : PageClass} (hk : pageClass p = some k) (g : Nat) :
    c.freeze p g = { c with bus := { c.bus with
      frozen := (snapOffsets k g).foldl (fun l off => aput l (regAddr p off) (c.live p off)) c.bus.frozen } } := by
  simp only [Chip.freeze, hk]

@[simp] theorem Chip.freeze_regs (c : Chip) (p g : Nat) : (c.freeze p g).regs = c.regs := by
  unfold Chip.freeze
  split <;> rfl

theorem Chip.foldl_freeze_regs (c : Chip) (p : Nat) (gs : List Nat) : (gs.foldl (fun c g => c.freeze p g) c).regs = c.regs :=
  List.foldlRecOn gs _ (motive := fun d : Chip => d.regs = c.regs) rfl fun d hd g _ => (d.freeze_regs p g).trans hd

section
variable {p off g : Nat} (h : snapGroupOf p off = some g)
include h

theorem Chip.freeze_same (c : Chip) (h4 : off % 4 = 0) : aget (c.freeze p g).bus.frozen (regAddr p off) = some (c.rd p off) := by
  obtain ⟨k, hk, -⟩ := snapGroupOf_row h
  rw [c.freeze_of_class hk, ← c.live_of_group h]
  exact aget_foldl_aput_mem (regAddr p) (c.live p) (fun _ _ => regAddr_inj) _ _ (mem_snapOffsets_of_group h hk h4)

theorem Chip.freeze_other (c : Chip) {g' : Nat} (hne : g' ≠ g) :
    aget (c.freeze p g').bus.frozen (regAddr p off) = aget c.bus.frozen (regAddr p off) := by
  obtain ⟨k, hk, -⟩ := snapGroupOf_row h
  rw [c.freeze_of_class hk]
  exact aget_foldl_aput_ne _ _ _ _ fun x hx he => not_mem_snapOffsets_of_ne h hk hne (regAddr_inj he ▸ hx)

theorem Chip.foldl_freeze_not_mem : ∀ (gs : List Nat) (c : Chip), g ∉ gs →
    aget (gs.foldl (fun c g => c.freeze p g) c).bus.frozen (regAddr p off) = aget c.bus.frozen (regAddr p off)
  | [], _, _ => rfl
  | a :: gs, c, hn => by
    rw [List.foldl_cons, Chip.foldl_freeze_not_mem gs _ (List.not_mem_of_not_mem_cons hn),
      c.freeze_other h (List.ne_of_not_mem_cons hn).symm]

theorem Chip.foldl_freeze_mem (h4 : off % 4 = 0) (gs : List Nat) (c : Chip) (hm : g ∈ gs) :
    aget (gs.foldl (fun c g => c.freeze p g) c).bus.frozen (regAddr p off) = some (c.rd p off) := by
  induction gs generalizing c with
  | nil => nomatch hm
  | cons a gs ih =>
    by_cases hg : g ∈ gs
    · rw [List.foldl_cons, ih _ hg, Chip.rd_of_regs (c.freeze_regs p a)]
    · obtain rfl : g = a := (List.mem_cons.mp hm).resolve_right hg
      rw [List.foldl_cons, Chip.foldl_freeze_not_mem h gs _ hg, c.freeze_same h h4]

end

@[simp] theorem Chip.unfreeze_regs (c : Chip) (p m : Nat) : (c.unfreeze p m).regs = c.regs := rfl

/-- A frozen word stays where it belongs to another page, or to no group that is released. -/
def staysFrozen (p m a : Nat) : Bool := !(a / 0x1000 == p && (snapGroupOf p (a % 0x1000)).any fun g => bits m g 1 == 1)

theorem Chip.unfreeze_frozen_eq (c : Chip) (p m : Nat) :
    (c.unfreeze p m).bus.frozen = c.bus.frozen.filter fun r => staysFrozen p m r.1 := rfl

theorem staysFrozen_group {p off g : Nat} (h : snapGroupOf p off = some g) (ho : off < 0x1000) (m : Nat) :
    staysFrozen p m (regAddr p off) = !m.testBit g := by
  have hbit : (bits m g 1 == 1) = m.testBit g := by rw [Bool.eq_iff_iff, beq_iff_eq, bits_one_eq_one]
  rw [staysFrozen, regAddr_div p ho, regAddr_mod p ho, h, beq_self_eq_true]
  exact congrArg (!·) hbit

theorem Chip.unfreeze_frozen {p off g : Nat} (h : snapGroupOf p off = some g) (ho : off < 0x1000) (c : Chip) (m : Nat) :
    aget (c.unfreeze p m).bus.frozen (regAddr p off) = if m.testBit g then none else aget c.bus.frozen (regAddr p off) := by
  rw [c.unfreeze_frozen_eq, aget_filter _ (staysFrozen p m), staysFrozen_group h ho]
  cases m.testBit g <;> rfl

/-! A write of SNAP (R74, R78). -/

theorem mem_maskBits {n m i : Nat} : i ∈ maskBits n m ↔ i < n ∧ m.testBit i = true := by
  simp [maskBits, bits_one_eq_one]

/-- The chip after SNAP_TAKE of groups, and after SNAP_RELEASE. -/
def Chip.snapTaken (c : Chip) (req : Requester) (p t : Nat) : Chip :=
  let d := (c.setFld p 0x02C 8 8 (c.fld p 0x02C 8 8 ||| t)).unfreeze p t
  if t = 0 then d else ((maskBits 8 t).foldl (fun c g => c.freeze p g) d).setFld p 0x02C 20 4 (ownerCode req)
def Chip.snapReleased (c : Chip) (p r : Nat) : Chip :=
  (c.setFld p 0x02C 8 8 (c.fld p 0x02C 8 8 &&& (255 - r))).unfreeze p r

theorem Chip.snapWrite_take (c : Chip) (req : Requester) (p take : Nat) :
    c.snapWrite req p take 0 = c.snapTaken req p (take &&& snapMask p) := by
  have hf : c.fld p 0x02C 8 8 &&& 255 = c.fld p 0x02C 8 8 :=
    Nat.and_two_pow_sub_one_of_lt_two_pow (n := 8) (bits_lt _ _ _)
  simp [Chip.snapWrite, Chip.snapTaken, hf]

theorem Chip.snapWrite_release (c : Chip) (req : Requester) (p release : Nat) (h : release < 256) :
    c.snapWrite req p 0 release = c.snapReleased p (release &&& snapMask p) := by
  have hr : release &&& snapMask p &&& 255 = release &&& snapMask p :=
    Nat.and_two_pow_sub_one_of_lt_two_pow (n := 8) (Nat.and_le_left.trans_lt h)
  simp [Chip.snapWrite, Chip.snapReleased, hr]

theorem ownerCode_lt (req : Requester) : ownerCode req < 16 := by
  cases req <;> decide

section
variable (c : Chip) (req : Requester) (p t : Nat)

theorem Chip.snapTaken_wordAt {a : Nat} (h : a ≠ regAddr p 0x02C) : (c.snapTaken req p t).wordAt a = c.wordAt a := by
  have hd := c.wordAt_setFld_ne 8 8 (c.fld p 0x02C 8 8 ||| t) h
  unfold Chip.snapTaken
  dsimp only
  split
  · exact hd
  · rw [Chip.wordAt_setFld_ne _ _ _ _ h, Chip.wordAt_of_regs (Chip.foldl_freeze_regs _ _ _)]
    exact hd

theorem Chip.snapTaken_valid (ht : t < 256) : (c.snapTaken req p t).fld p 0x02C 8 8 = c.fld p 0x02C 8 8 ||| t := by
  have hlt : (c.fld p 0x02C 8 8 ||| t) % 2 ^ 8 = c.fld p 0x02C 8 8 ||| t :=
    Nat.mod_eq_of_lt (Nat.or_lt_two_pow (bits_lt _ _ 8) ht)
  have hd : (c.setFld p 0x02C 8 8 (c.fld p 0x02C 8 8 ||| t)).fld p 0x02C 8 8 = c.fld p 0x02C 8 8 ||| t :=
    (c.fld_setFld_same _ _ _ _ _ (by decide)).trans hlt
  unfold Chip.snapTaken
  dsimp only
  split
  · exact hd
  · rw [Chip.fld_setFld_other _ _ _ _ _ _ _ _ (by decide) (by decide), Chip.fld, Chip.rd_of_regs (Chip.foldl_freeze_regs _ _ _)]
    exact hd

theorem Chip.snapTaken_owner :
    (c.snapTaken req p t).fld p 0x02C 20 4 = if t = 0 then c.fld p 0x02C 20 4 else ownerCode req := by
  unfold Chip.snapTaken
  dsimp only
  split
  · exact c.fld_setFld_other _ _ _ _ _ _ _ (by decide) (by decide)
  · exact (Chip.fld_setFld_same _ _ _ _ _ _ (by decide)).trans (Nat.mod_eq_of_lt (ownerCode_lt req))

theorem Chip.snapReleased_wordAt {a : Nat} (h : a ≠ regAddr p 0x02C) : (c.snapReleased p t).wordAt a = c.wordAt a :=
  c.wordAt_setFld_ne _ _ _ h

theorem Chip.snapReleased_valid : (c.snapReleased p t).fld p 0x02C 8 8 = c.fld p 0x02C 8 8 &&& (255 - t) :=
  (c.fld_setFld_same _ _ _ _ _ (by decide)).trans (Nat.mod_eq_of_lt (Nat.and_le_left.trans_lt (bits_lt _ _ 8)))

theorem Chip.snapReleased_owner : (c.snapReleased p t).fld p 0x02C 20 4 = c.fld p 0x02C 20 4 :=
  c.fld_setFld_other _ _ _ _ _ _ _ (by decide) (by decide)

end

section
variable {p off g : Nat} (h : snapGroupOf p off = some g) (ho : off < 0x1000) (c : Chip) (req : Requester) {t : Nat} (ht : t < 256)
include h ho

omit ho in
theorem Chip.snapTaken_frozen_asked (h4 : off % 4 = 0) (hg : t.testBit g = true) :
    aget (c.snapTaken req p t).bus.frozen (regAddr p off) = some (c.live p off) := by
  have hne : t ≠ 0 := by rintro rfl; simp at hg
  have hm : g ∈ maskBits 8 t := mem_maskBits.mpr ⟨Nat.lt_trans (snapGroupOf_lt h) (by decide), hg⟩
  have hrd : (c.setFld p 0x02C 8 8 (c.fld p 0x02C 8 8 ||| t)).rd p off = c.rd p off :=
    c.rd_setFld_ne _ _ _ _ _ _ _ (regAddr_off_ne _ _ _ (Nat.lt_of_lt_of_le (by decide) (snapGroupOf_off h)).ne)
  unfold Chip.snapTaken
  dsimp only
  rw [if_neg hne, Chip.setFld_bus, Chip.foldl_freeze_mem h h4 _ _ hm, c.live_of_group h]
  exact congrArg some hrd

theorem Chip.snapTaken_frozen_other (hg : t.testBit g = false) :
    aget (c.snapTaken req p t).bus.frozen (regAddr p off) = aget c.bus.frozen (regAddr p off) := by
  have hm : g ∉ maskBits 8 t := fun hm => by simp [(mem_maskBits.mp hm).2] at hg
  have hd := Chip.unfreeze_frozen h ho (c.setFld p 0x02C 8 8 (c.fld p 0x02C 8 8 ||| t)) t
  rw [if_neg (by simp [hg])] at hd
  unfold Chip.snapTaken
  dsimp only
  split
  · exact hd
  · rw [Chip.setFld_bus, Chip.foldl_freeze_not_mem h _ _ hm]
    exact hd

theorem Chip.snapReleased_frozen (r : Nat) : aget (c.snapReleased p r).bus.frozen (regAddr p off) =
    if r.testBit g then none else aget c.bus.frozen (regAddr p off) :=
  Chip.unfreeze_frozen h ho _ _

end

/-! The commands. -/

theorem asked_lt (groups : BitVec 8) (m : Nat) : groups.toNat &&& m < 256 := Nat.and_le_left.trans_lt groups.isLt

theorem exec_snapTake {req : Requester} {page : Fin 4096} (groups : BitVec 8) {s : State} (hg : s.passes req page 0x02C)
    (ho : page.val = 0x008 → s.chip.pwr.ovrCount = 0) : exec (.snapTake req page groups) s =
      .next (s.onChip fun c => c.snapTaken req page (groups.toNat &&& snapMask page)) := by
  show execSnapTake req page groups s = _
  rw [execSnapTake, State.onChip_ovrCut_gated (g := fun c => c.snapTaken req page (groups.toNat &&& snapMask page)) hg ho
    (s.chip.snapWrite_take req page groups.toNat)]

theorem exec_snapRelease {req : Requester} {page : Fin 4096} (groups : BitVec 8) {s : State} (hg : s.passes req page 0x02C)
    (ho : page.val = 0x008 → s.chip.pwr.ovrCount = 0) : exec (.snapRelease req page groups) s =
      .next (s.onChip fun c => c.snapReleased page (groups.toNat &&& snapMask page)) := by
  show execSnapRelease req page groups s = _
  rw [execSnapRelease, State.onChip_ovrCut_gated (g := fun c => c.snapReleased page (groups.toNat &&& snapMask page)) hg ho
    (s.chip.snapWrite_release req page groups.toNat groups.isLt)]

/-- Settles O14: SNAP's valid bits are the groups frozen, no two groups share a register, and every register of a group reads as it is
stored, so that a copy holds what a read answered. -/
theorem snapshots : Obligations.Snapshots := by
  unfold Obligations.Snapshots
  intro req page groups s hg ho asked others same
  refine ⟨⟨_, exec_snapTake groups hg ho, ⟨⟨rfl, rfl, rfl⟩, fun a ha => s.chip.snapTaken_wordAt req page asked ha⟩,
    s.chip.snapTaken_valid req page asked (asked_lt groups _), s.chip.snapTaken_owner req page asked, fun k g h => ⟨fun hb d hd hrd hp => ?copied,
      fun hb => ⟨?sameValid, s.chip.snapTaken_frozen_other h (wordOff_lt k) req ((bits_one_eq_zero _ _).mp hb)⟩⟩⟩,
    ⟨_, exec_snapRelease groups hg ho, ⟨⟨rfl, rfl, rfl⟩, fun a ha => s.chip.snapReleased_wordAt page asked ha⟩,
    s.chip.snapReleased_valid page asked, s.chip.snapReleased_owner page asked, fun k g h => ⟨fun hb => ?dropped,
      fun hb => ⟨?keptValid, ?keptFrozen⟩⟩⟩⟩
  case copied =>
    have hb := (bits_one_eq_one _ _).mp hb
    have hfld : d.fld page 0x02C 8 8 = s.chip.fld page 0x02C 8 8 ||| asked := by
      rw [Chip.fld, hrd]
      exact s.chip.snapTaken_valid req page asked (asked_lt groups _)
    have hfrozen : d.frozenGroup page (4 * k) = true := by
      rw [d.frozenGroup_of_group h, hfld, Nat.testBit_or, hb, Bool.or_true]
    have hword := s.chip.snapTaken_frozen_asked h req (Nat.mul_mod_right 4 k) hb
    rw [Chip.answer, hp, hfrozen, hd]
    simp only [Bool.false_and, Bool.false_eq_true, if_false, if_true]
    exact congrArg (·.getD 0) hword
  case sameValid =>
    have hb := (bits_one_eq_zero _ _).mp hb
    rw [Chip.frozenGroup_of_group h, Chip.frozenGroup_of_group h, State.onChip_chip, Chip.settle_fld,
      s.chip.snapTaken_valid req page asked (asked_lt groups _), Nat.testBit_or, hb, Bool.or_false]
  case dropped =>
    have hb := (bits_one_eq_one _ _).mp hb
    have hfrozen : (s.chip.snapReleased page asked).frozenGroup page (4 * k) = false := by
      rw [Chip.frozenGroup_of_group h, s.chip.snapReleased_valid, Nat.testBit_and,
        testBit_compl_byte (asked_lt groups _) (Nat.lt_trans (snapGroupOf_lt h) (by decide)), hb, Bool.not_true, Bool.and_false]
    refine ⟨hfrozen, (s.chip.snapReleased_frozen h (wordOff_lt k) asked).trans (if_pos hb), fun hp => ?_⟩
    have hn : ¬((s.onChip fun c => c.snapReleased page asked).chip.frozenGroup page (4 * k) = true) := by
      rw [State.onChip_chip, Chip.settle_frozenGroup, hfrozen]
      exact Bool.false_ne_true
    rw [Chip.answer, hp, if_neg (by simp), if_neg hn]
  case keptValid =>
    have hb := (bits_one_eq_zero _ _).mp hb
    rw [Chip.frozenGroup_of_group h, Chip.frozenGroup_of_group h, State.onChip_chip, Chip.settle_fld, s.chip.snapReleased_valid,
      Nat.testBit_and, testBit_compl_byte (asked_lt groups _) (Nat.lt_trans (snapGroupOf_lt h) (by decide)), hb, Bool.not_false, Bool.and_true]
  case keptFrozen =>
    exact (s.chip.snapReleased_frozen h (wordOff_lt k) asked).trans (if_neg (by simp [(bits_one_eq_zero _ _).mp hb]))

end Sys2Proof.Machine
end

section
/-! Soft reset of a page and its interrupt causes (R68-R70, R72, R74, R526). -/

namespace Sys2Proof.Machine

/-! Computations that pass the checks of a page's header register. -/

theorem gatedM_pass {req : Requester} {p off : Nat} (m : WM Unit) {w : Work} (h : w.chip.gate req (regAddr p off) .b4 = .pass) :
    gatedM req p off m w = m w := by
  refine WM.bind_of_eq (getChip_apply w) ?_
  rw [h]

theorem onMem_ovrCut_gatedM {s : State} {req : Requester} {p off : Nat} (m : WM Unit) (hg : s.passes req p off)
    (ho : p = 0x008 → s.chip.pwr.ovrCount = 0) :
    s.onMem (do chipM fun c => c.ovrCut p; gatedM req p off m) = s.onMem m := by
  have hc : s.work.onChip (fun c => c.ovrCut p) = s.work :=
    congrArg (fun c => { s.work with chip := c }) (s.chip.ovrCut_idle p ho)
  have : ((do chipM fun c => c.ovrCut p; gatedM req p off m) : WM Unit) s.work = m s.work :=
    WM.bind_of_eq (chipM_apply _ _) ((congrArg (gatedM req p off m) hc).trans (gatedM_pass m (w := s.work) hg))
  exact congrArg (fun x : Unit × Work => Host.Outcome.next { s with chip := x.2.chip.settle, mem := s.mem.applyAll x.2.ops.reverse }) this

/-! SOFT_RESET. -/

/-- A page that shows its soft reset (R68). -/
def Chip.resetShown (c : Chip) (p : Nat) : Chip := (c.setBit p 0x00C 1 true).setBit p 0x010 0 true

theorem exec_softReset {req : Requester} {page : Fin 4096} {s : State} (hg : s.passes req page 0x00C)
    (ho : page.val = 0x008 → s.chip.pwr.ovrCount = 0) : exec (.softReset req page) s = s.onMem (softReset page) :=
  onMem_ovrCut_gatedM (softReset page) hg ho

theorem softReset_busy {p : Nat} {w : Work} (h : w.chip.resetBusy p = true) : softReset p w = ((), w) := by
  simp [softReset, h]

theorem softReset_idle {p : Nat} {w : Work} (h : w.chip.resetBusy p = false) :
    softReset p w = softResetEffect p (w.onChip fun c => c.resetShown p) := by
  simp [softReset, h]
  rfl

/-- Pages whose chapters name no transient state. -/
def hasNoTransient (p : Nat) : Bool :=
  [some .sys, some .clk, some .pwr, some .therm, some .prcE, some .cls, some .lp5x, some .gslot, some .gpio, some .stat].contains
    (pageClass p)

/-- A value that depends on a page by its kind, where the kind is one of some. -/
theorem eq_of_class {α : Type} {W X : α} {p : Nat} {l : List (Option PageClass)}
    (h : ∃ F : Option PageClass → α, (∀ o, pageClass p = o → W = F o) ∧ ∀ o ∈ l, F o = X) (hp : l.contains (pageClass p) = true) : W = X :=
  h.elim fun _ h => (h.1 _ rfl).trans (h.2 _ (List.contains_iff_mem.mp hp))

theorem softResetEffect_none {p : Nat} (h : hasNoTransient p = true) : softResetEffect p = pure () :=
  eq_of_class ⟨_, fun o ho => by rw [softResetEffect, ho],
    List.forall_mem_cons.mpr ⟨rfl, List.forall_mem_cons.mpr ⟨rfl, List.forall_mem_cons.mpr ⟨rfl, List.forall_mem_cons.mpr ⟨rfl, List.forall_mem_cons.mpr ⟨rfl,
      List.forall_mem_cons.mpr ⟨rfl, List.forall_mem_cons.mpr ⟨rfl, List.forall_mem_cons.mpr ⟨rfl, List.forall_mem_cons.mpr ⟨rfl, List.forall_mem_singleton.mpr rfl⟩⟩⟩⟩⟩⟩⟩⟩⟩⟩ h

/-! SOFT_RESET_DONE. -/

/-- The chip as a page's soft reset ends: tiles that it abandoned may be dealt again, and after page 0x010's the Precentor firmware
runs anew. -/
def Chip.resetEnded (c : Chip) (p : Nat) : Chip :=
  let d := if p = 0x010 then { c with fw := { c.fw with prcLost := false, prcTold := false } } else c
  (List.range 32).foldl Chip.redealTile ((d.setBit p 0x00C 1 false).setBit p 0x010 0 false)

theorem exec_softResetDone (page : Fin 4096) (s : State) : exec (.softResetDone page) s = execSoftResetDone page s := by
  rfl

theorem exec_softResetDone_ends {page : Fin 4096} {s : State} (hb : s.chip.resetBusy page = true)
    (hw : s.chip.resetWaits page = false) : exec (.softResetDone page) s =
      s.onMem (do chipM fun c => c.resetEnded page; if page.val = 0x0B4 then unpark) := by
  rw [exec_softResetDone, execSoftResetDone, State.onMem_getChip, if_pos (by simp [hb, hw])]
  rfl

theorem Chip.resetEnded_of_ne (c : Chip) {p : Nat} (h : p ≠ 0x010) : c.resetEnded p =
    (List.range 32).foldl Chip.redealTile ((c.setBit p 0x00C 1 false).setBit p 0x010 0 false) := by
  simp only [Chip.resetEnded, h, if_false]

theorem exec_softResetDone_other {page : Fin 4096} {s : State} (hp : page.val ≠ 0x0B4) (hb : s.chip.resetBusy page = true)
    (hw : s.chip.resetWaits page = false) : exec (.softResetDone page) s = .next (s.onChip fun c => c.resetEnded page) := by
  rw [exec_softResetDone_ends hb hw]
  refine s.onMem_of_eq (WM.bind_of_eq (chipM_apply _ _) ?_)
  rw [if_neg hp]
  exact WM.pure_apply _ _

/-- After page 0x0B4's reset the flits that waited act (R526). -/
theorem exec_softResetDone_lxe {page : Fin 4096} {s : State} (hp : page.val = 0x0B4) (hb : s.chip.resetBusy 0x0B4 = true) {d : Chip}
    (hd : s.chip.resetEnded 0x0B4 = d) :
    Answers (.softResetDone page) s fun t => s.after t (unpark { s.work with chip := d }).2 id := by
  have hw : s.chip.resetWaits page = false := by simp [Chip.resetWaits, hp]
  have h := exec_softResetDone_ends (hp ▸ hb) hw
  simp only [hp, if_true] at h
  refine ⟨_, h, s.after_onWork _ (WM.bind_of_eq (a := ()) (v := { s.work with chip := d }) ?_ rfl)⟩
  exact congrArg (fun c => ((), { s.work with chip := c })) hd

theorem exec_softResetDone_idle {page : Fin 4096} {s : State} (h : s.chip.resetWaits page = true ∨ s.chip.resetBusy page = false) :
    exec (.softResetDone page) s = .next (s.onChip id) := by
  rw [exec_softResetDone, execSoftResetDone, State.onMem_getChip, if_neg (by rcases h with h | h <;> simp [h])]
  exact s.onMem_pure

/-! Interrupt causes. -/

theorem Chip.irqForce_regs (c : Chip) (p : Nat) (m : Word) : (c.irqForce p m).regs = (c.raiseMask p m).regs := by
  unfold Chip.irqForce
  dsimp only
  split <;> rfl

theorem Chip.irqForce_rd (c : Chip) (p : Nat) (m : Word) : (c.irqForce p m).rd p 0x014 = c.rd p 0x014 ||| m :=
  (Chip.rd_of_regs (c.irqForce_regs p m) p 0x014).trans (c.rd_wr_same p 0x014 _)

theorem Chip.irqForce_wordAt (c : Chip) (p : Nat) (m : Word) {a : Nat} (h : a ≠ regAddr p 0x014) :
    (c.irqForce p m).wordAt a = c.wordAt a :=
  (Chip.wordAt_of_regs (c.irqForce_regs p m) a).trans (c.wordAt_wr_ne _ h)

theorem Chip.irqClear_rd (c : Chip) (p : Nat) (m hw : Word) : (c.irqClear p m hw).rd p 0x014 = (c.rd p 0x014 &&& ~~~m) ||| hw :=
  c.rd_wr_same p 0x014 _

theorem Chip.irqClear_wordAt (c : Chip) (p : Nat) (m hw : Word) {a : Nat} (h : a ≠ regAddr p 0x014) :
    (c.irqClear p m hw).wordAt a = c.wordAt a := c.wordAt_wr_ne _ h

section
variable {req : Requester} {page : Fin 4096} (mask : Word) {s : State} (ho : page.val = 0x008 → s.chip.pwr.ovrCount = 0)
include ho

theorem exec_irqForce (hg : s.passes req page 0x01C) :
    exec (.irqForce req page mask) s = .next (s.onChip fun c => c.irqForce page (mask &&& irqMask page)) := by
  show execIrqForce req page mask s = _
  rw [execIrqForce, State.onChip_ovrCut_gated hg ho rfl]

theorem exec_irqRawClear (hw : Word) (hg : s.passes req page 0x014) :
    exec (.irqRawClear req page mask hw) s = .next (s.onChip fun c => c.irqClear page mask (hw &&& irqMask page)) := by
  have hp : s.chip.gate req (regAddr page 0x014) .b4 = .pass := hg
  show execIrqRawClear req page mask hw s = _
  refine congrArg _ (s.onChip_congr _ _ ?_)
  dsimp only
  rw [Chip.ovrCut_idle _ _ ho, hp]

end

/-- Settles O15: a reset in progress goes on, another shows itself and has its chapter's effect, its end undoes what it showed, and a
cause is one word of the page. -/
theorem softResetAndCauses : Obligations.SoftResetAndCauses := by
  unfold Obligations.SoftResetAndCauses
  refine ⟨fun req page s hg ho => ⟨fun hb => ?goesOn, fun hb => ⟨?begins, fun hk => ?noTransient, fun hk => ?scrubber, fun hk => ?stall⟩⟩,
    fun page s hb hw hn => ?ends, fun s hb => ?lxe, fun page s h => exec_softResetDone_idle h,
    fun req page mask hw s ho => ⟨fun hg => ?force, fun hg => ?clear⟩⟩
  case goesOn =>
    rw [exec_softReset hg ho]
    exact s.onMem_of_eq (softReset_busy (w := s.work) hb)
  case begins =>
    refine ⟨_, exec_softReset hg ho, s.after_onWork (softReset page) (Prod.ext rfl ?_)⟩
    exact congrArg Prod.snd (softReset_idle (w := s.work) hb)
  case noTransient =>
    rw [exec_softReset hg ho]
    refine s.onMem_of_eq ((softReset_idle (w := s.work) hb).trans ?_)
    rw [softResetEffect_none hk]
    rfl
  case scrubber =>
    rw [exec_softReset hg ho]
    refine s.onMem_of_eq ((softReset_idle (w := s.work) hb).trans ?_)
    rw [softResetEffect, hk]
    rfl
  case stall =>
    rw [exec_softReset hg ho]
    refine s.onMem_of_eq ((softReset_idle (w := s.work) hb).trans ?_)
    rw [softResetEffect, hk]
    rfl
  case ends => exact exec_softResetDone_other hn hb hw
  case lxe => exact exec_softResetDone_lxe rfl hb (s.chip.resetEnded_of_ne (by decide))
  case force =>
    exact ⟨_, exec_irqForce mask ho hg, s.chip.irqForce_rd page _, ⟨rfl, rfl, rfl⟩, fun a ha => s.chip.irqForce_wordAt page _ ha⟩
  case clear =>
    exact ⟨_, exec_irqRawClear mask ho hw hg, s.chip.irqClear_rd page _ _, ⟨rfl, rfl, rfl⟩,
      fun a ha => s.chip.irqClear_wordAt page _ _ ha⟩

end Sys2Proof.Machine
end

section
/-! Where a byte of memory lies, and what a byte and a granule's state are read from (R85, R88, R104, R282): the registers of the
map, the cells of the targets, and states whose memory reads alike. -/

namespace Sys2Proof.Machine

/-! The targets (R85). -/

theorem ite_ne {α : Type} {p : Prop} [Decidable p] {x y z : α} (hx : x ≠ z) (hy : y ≠ z) : (if p then x else y) ≠ z := by
  split
  · exact hx
  · exact hy

theorem of_ite_eq_left {α : Type} {p : Prop} [Decidable p] {x y z : α} (h : (if p then x else y) = z) (hy : y ≠ z) : p :=
  Decidable.byContradiction fun hp => hy ((if_neg hp).symm.trans h)

theorem of_ite_eq_right {α : Type} {p : Prop} [Decidable p] {x y z : α} (h : (if p then x else y) = z) (hx : x ≠ z) : y = z :=
  (if_neg fun hp => hx ((if_pos hp).symm.trans h)).symm.trans h

theorem not_lt_of_literal_le {a b m n : Nat} (h : m ≤ a) (hn : Nat.ble n m = true) : ¬(b ≤ a ∧ a < n) :=
  fun hr => Nat.not_lt_of_le ((Nat.le_of_ble_eq_true hn).trans h) hr.2

theorem not_regs_of_le {a m : Nat} (h : m ≤ a) (hm : Nat.ble 0x1000000 m = true) : ¬a < 0x1000000 :=
  Nat.not_lt_of_le ((Nat.le_of_ble_eq_true hm).trans h)

theorem target_cls_iff {a : Nat} : target a = .cls ↔ clsBase ≤ a ∧ a < 0x12000000 :=
  ⟨fun h => of_ite_eq_left (of_ite_eq_right h (by decide)) (ite_ne (by decide) (ite_ne (by decide) (ite_ne (by decide)
      (ite_ne (by decide) (ite_ne (by decide) (ite_ne (by decide) (by decide))))))),
    fun h => (if_neg (not_regs_of_le h.1 rfl)).trans (if_pos h)⟩

theorem target_stall_iff {a : Nat} : target a = .stall ↔ stallBase ≤ a ∧ a < 0x21000000 :=
  ⟨fun h => of_ite_eq_left (of_ite_eq_right (of_ite_eq_right h (by decide)) (by decide)) (ite_ne (by decide) (ite_ne (by decide)
      (ite_ne (by decide) (ite_ne (by decide) (ite_ne (by decide) (by decide)))))),
    fun h => (if_neg (not_regs_of_le h.1 rfl)).trans ((if_neg (not_lt_of_literal_le h.1 rfl)).trans (if_pos h))⟩

theorem target_lp5x_iff {a : Nat} : target a = .lp5x ↔ lpBase ≤ a ∧ a < 0x1800000000 :=
  ⟨fun h => of_ite_eq_left (of_ite_eq_right (of_ite_eq_right (of_ite_eq_right (of_ite_eq_right (of_ite_eq_right (of_ite_eq_right h
      (by decide)) (by decide)) (by decide)) (by decide)) (by decide)) (by decide)) (ite_ne (by decide) (by decide)),
    fun h => (if_neg (not_regs_of_le h.1 rfl)).trans ((if_neg (not_lt_of_literal_le h.1 rfl)).trans
      ((if_neg (not_lt_of_literal_le h.1 rfl)).trans ((if_neg (not_lt_of_literal_le h.1 rfl)).trans
      ((if_neg (not_lt_of_literal_le h.1 rfl)).trans ((if_neg (not_lt_of_literal_le h.1 rfl)).trans (if_pos h))))))⟩

theorem exists_off_of_cls {pa : Nat} (h : target pa = .cls) : ∃ a, pa = clsBase + a ∧ a / 16384 < 2048 := by
  obtain ⟨hb, ht⟩ := target_cls_iff.mp h
  obtain ⟨a, rfl⟩ := Nat.exists_eq_add_of_le hb
  exact ⟨a, rfl, Nat.div_lt_of_lt_mul (Nat.lt_of_add_lt_add_left (n := clsBase) ht)⟩

theorem target_off_cls {a : Nat} (h : a / 16384 < 2048) : target (clsBase + a) = .cls :=
  target_cls_iff.mpr ⟨Nat.le_add_right _ _, Nat.add_lt_add_left ((Nat.div_lt_iff_lt_mul (by decide)).mp h) clsBase⟩

theorem exists_off_of_stall {pa : Nat} (h : target pa = .stall) : ∃ a, pa = stallBase + a ∧ a < 0x1000000 := by
  obtain ⟨hb, ht⟩ := target_stall_iff.mp h
  obtain ⟨a, rfl⟩ := Nat.exists_eq_add_of_le hb
  exact ⟨a, rfl, Nat.lt_of_add_lt_add_left (n := stallBase) ht⟩

theorem window_lt {pa : Nat} (h : target pa = .stall) : (pa - stallBase) / 0x80000 < 32 := by
  obtain ⟨a, rfl, ha⟩ := exists_off_of_stall h
  exact (Nat.add_sub_cancel_left stallBase a).symm ▸ Nat.div_lt_of_lt_mul ha

/-! The registers that the map of memory is read from: CLS_SKEW, the slots of the Choir, REDIRECT of the stalls, LP5X_CFG. -/

def isMapAddr (a : Nat) : Bool :=
  decide (0x70080 ≤ a ∧ a < 0x70180) || decide (0x60080 ≤ a ∧ a < 0x600F8) ||
  decide (0x40058 ≤ a ∧ a < 0x60000 ∧ a % 0x1000 = 0x058) || a == 0x88040

theorem isMapAddr_skew : ∀ j, j < 64 → isMapAddr (regAddr 0x070 (0x080 + 4 * j)) = true := by decide

theorem isMapAddr_slot : ∀ i, i < 30 → isMapAddr (regAddr 0x060 (0x080 + 4 * i)) = true := by decide

theorem isMapAddr_redirect : ∀ v, v < 32 → isMapAddr (regAddr (pgStall v) 0x058) = true := by decide

/-- Two chips place and mark memory alike: they agree on the registers of the map, on the windows in copy and on the failed channels. -/
structure Chip.SameMap (c d : Chip) : Prop where
  word : ∀ a, isMapAddr a = true → d.wordAt a = c.wordAt a
  copies : d.cho.copies = c.cho.copies
  failed : d.memc.failed = c.memc.failed

namespace Chip.SameMap

theorem refl (c : Chip) : c.SameMap c := ⟨fun _ _ => rfl, rfl, rfl⟩

theorem trans {a b c : Chip} (h : a.SameMap b) (k : b.SameMap c) : a.SameMap c :=
  ⟨fun x hx => (k.word x hx).trans (h.word x hx), k.copies.trans h.copies, k.failed.trans h.failed⟩

theorem of_regs {c d : Chip} (hr : d.regs = c.regs) (hc : d.cho.copies = c.cho.copies) (hf : d.memc.failed = c.memc.failed) :
    c.SameMap d := ⟨fun a _ => Chip.wordAt_of_regs hr a, hc, hf⟩

theorem wr (c : Chip) {p off : Nat} (v : Word) (h : isMapAddr (regAddr p off) = false) : c.SameMap (c.wr p off v) :=
  ⟨fun a ha => c.wordAt_wr_ne v (by rintro rfl; simp [h] at ha), rfl, rfl⟩

theorem settle (c : Chip) : c.SameMap c.settle := of_regs rfl rfl rfl

section
variable {c d : Chip} (h : c.SameMap d)
include h

theorem rd {p off : Nat} (ha : isMapAddr (regAddr p off) = true) : d.rd p off = c.rd p off := h.word _ ha

theorem fld {p off : Nat} (ha : isMapAddr (regAddr p off) = true) (lo w : Nat) : d.fld p off lo w = c.fld p off lo w := by
  rw [Chip.fld, h.rd ha, Chip.fld]

theorem bit {p off : Nat} (ha : isMapAddr (regAddr p off) = true) (b : Nat) : d.bit p off b = c.bit p off b := by
  rw [Chip.bit, h.fld ha, Chip.bit]

theorem skewed {k : Nat} (hk : k < 2048) : d.skewed k = c.skewed k :=
  h.bit (isMapAddr_skew _ (Nat.div_lt_of_lt_mul hk)) _

theorem clsCell {pa : Nat} (ht : target pa = .cls) : d.clsCell pa = c.clsCell pa := by
  obtain ⟨a, rfl, ha⟩ := exists_off_of_cls ht
  rw [Chip.clsCell, Chip.clsCell, Nat.add_sub_cancel_left, h.skewed ha]

theorem stallSlot (x : Nat) : d.stallSlot x = c.stallSlot x := by
  unfold Chip.stallSlot
  refine List.find?_congr fun i hi => ?_
  have hi := List.mem_range.mp hi
  have ha := isMapAddr_slot i hi
  simp only [Chip.slotVacant, Chip.slotPhys, h.bit ha, h.fld ha]

theorem redirect {v : Nat} (hv : v < 32) : d.fld (pgStall v) 0x058 0 5 = c.fld (pgStall v) 0x058 0 5 :=
  h.fld (isMapAddr_redirect v hv) _ _

theorem windowSlot {v : Nat} (hv : v < 32) : d.windowSlot v = c.windowSlot v := by
  unfold Chip.windowSlot Chip.copying
  rw [h.copies, h.stallSlot, h.redirect hv]

theorem inlineEcc : d.inlineEcc = c.inlineEcc := h.bit rfl _

theorem lpFailed (pa : Nat) : d.lpFailed pa = c.lpFailed pa := by
  have hb : ∀ b, d.bit 0x088 0x040 b = c.bit 0x088 0x040 b := h.bit rfl
  simp only [Chip.lpFailed, Chip.lpChannel, h.failed, hb]

theorem cellOf (pa : Nat) : d.cellOf pa = c.cellOf pa := by
  unfold Chip.cellOf
  cases ht : target pa with
  | cls => exact h.clsCell ht
  | stall =>
    simp only [h.windowSlot (window_lt ht)]
  | _ => rfl

theorem granSize (pa : Nat) : d.granSize pa = c.granSize pa := by
  simp only [Chip.granSize, h.inlineEcc]

end

end Chip.SameMap

/-! Cells (R88): a byte's cell lies in the byte's own target, and Cloister's cells are distinct. -/

/-- The place of a byte in its row-block where the row-block is skewed. -/
def skewLow (a : Nat) : Nat := a / 256 % 32 * 512 + a / 8192 % 2 * 256 + (a / 256 % 32 + a / 8 % 32) % 32 * 8 + a % 8

/-- The offset of the cell of the byte at an offset of Cloister. -/
def Chip.cellOff (c : Chip) (a : Nat) : Nat := if c.skewed (a / 16384) then a / 16384 * 16384 + skewLow a else a

theorem Chip.clsCell_off (c : Chip) (a : Nat) : c.clsCell (clsBase + a) = clsBase + c.cellOff a := by
  rw [Chip.cellOff, Chip.clsCell, Nat.add_sub_cancel_left, apply_ite (clsBase + ·)]
  simp only [skewLow, Nat.add_assoc]

/-- A number is named by its last digit and the rest. -/
theorem digit_inj {n q r q' r' : Nat} (hr : r < n) (hr' : r' < n) (e : q * n + r = q' * n + r') : q = q' ∧ r = r' := by
  have hm : r = r' := by
    rw [← Nat.mod_eq_of_lt hr, ← Nat.mul_add_mod' q n r, e, Nat.mul_add_mod', Nat.mod_eq_of_lt hr']
  exact ⟨Nat.eq_of_mul_eq_mul_right (Nat.zero_lt_of_lt hr) (Nat.add_right_cancel (hm ▸ e)), hm⟩

theorem skewLow_eq (a : Nat) :
    skewLow a = ((a / 256 % 32 * 2 + a / 8192 % 2) * 32 + (a / 256 % 32 + a / 8 % 32) % 32) * 8 + a % 8 := by
  simp only [skewLow, Nat.add_mul, Nat.mul_assoc]

theorem skewLow_lt (a : Nat) : skewLow a < 16384 :=
  skewLow_eq a ▸ digit_lt (digit_lt (digit_lt (m := 32) (Nat.mod_lt _ (by decide)) (Nat.mod_lt _ (by decide)))
    (Nat.mod_lt _ (by decide))) (Nat.mod_lt _ (by decide))

/-- A skewed byte stays in its row-block. -/
theorem Chip.cellOff_div (c : Chip) (a : Nat) : c.cellOff a / 16384 = a / 16384 := by
  unfold Chip.cellOff
  split
  · rw [Nat.mul_comm, Nat.mul_add_div (by decide), Nat.div_eq_of_lt (skewLow_lt a), Nat.add_zero]
  · rfl

theorem Chip.clsCell_range (c : Chip) {pa : Nat} (h : target pa = .cls) : target (c.clsCell pa) = .cls := by
  obtain ⟨a, rfl, ha⟩ := exists_off_of_cls h
  exact c.clsCell_off a ▸ target_off_cls (c.cellOff_div a ▸ ha)

theorem Chip.windowSlot_lt (c : Chip) {v i : Nat} (hv : v < 32) (h : c.windowSlot v = some i) : i < 32 := by
  unfold Chip.windowSlot at h
  split at h
  · cases h; exact hv
  · have := List.mem_range.mp (List.mem_of_find?_eq_some h)
    omega

theorem Chip.cellOf_cls (c : Chip) {pa : Nat} (h : target pa = .cls) : c.cellOf pa = c.clsCell pa := by
  simp only [Chip.cellOf, h]

theorem Chip.cellOf_other (c : Chip) {pa : Nat} (hc : target pa ≠ .cls) (hs : target pa ≠ .stall) : c.cellOf pa = pa := by
  unfold Chip.cellOf
  split
  · contradiction
  · contradiction
  · rfl

/-- The slot's window that a window presents. -/
def Chip.shownWindow (c : Chip) (pa : Nat) : Nat := (c.windowSlot ((pa - stallBase) / 0x80000)).getD ((pa - stallBase) / 0x80000)

theorem Chip.cellOf_stall (c : Chip) {pa : Nat} (h : target pa = .stall) :
    c.cellOf pa = pa - (pa - stallBase) / 0x80000 * 0x80000 + c.shownWindow pa * 0x80000 := by
  simp only [Chip.cellOf, h, Chip.shownWindow]

theorem Chip.windowSlot_getD_lt (c : Chip) {v : Nat} (hv : v < 32) : (c.windowSlot v).getD v < 32 := by
  cases hw : c.windowSlot v with
  | none => exact hv
  | some i => exact c.windowSlot_lt hv hw

theorem Chip.shownWindow_lt (c : Chip) {pa : Nat} (h : target pa = .stall) : c.shownWindow pa < 32 :=
  c.windowSlot_getD_lt (window_lt h)

theorem stallCell_range {pa i : Nat} (h : target pa = .stall) (hi : i < 32) :
    target (pa - (pa - stallBase) / 0x80000 * 0x80000 + i * 0x80000) = .stall := by
  obtain ⟨a, rfl, -⟩ := exists_off_of_stall h
  have hr : stallBase + a - a / 0x80000 * 0x80000 = stallBase + a % 0x80000 := by
    rw [Nat.add_sub_assoc (Nat.div_mul_le_self _ _), Nat.mod_eq_sub_div_mul]
  rw [Nat.add_sub_cancel_left, hr, Nat.add_assoc, Nat.add_comm (a % _)]
  exact target_stall_iff.mpr ⟨Nat.le_add_right _ _,
    Nat.add_lt_add_left (digit_lt hi (Nat.mod_lt _ (by decide))) stallBase⟩

theorem Chip.target_cellOf (c : Chip) (pa : Nat) : target (c.cellOf pa) = target pa := by
  by_cases hc : target pa = .cls
  · rw [c.cellOf_cls hc, c.clsCell_range hc, hc]
  · by_cases hs : target pa = .stall
    · rw [c.cellOf_stall hs, hs, stallCell_range hs (c.shownWindow_lt hs)]
    · rw [c.cellOf_other hc hs]

/-- The bytes of a granule follow one another. -/
theorem Chip.clsCell_add (c : Chip) {base i : Nat} (h : target base = .cls) (h8 : base % 8 = 0) (hi : i < 8) :
    c.clsCell (base + i) = c.clsCell base + i := by
  obtain ⟨a, rfl, -⟩ := exists_off_of_cls h
  have ha : a % 8 = 0 := (Nat.mul_add_mod 8 0x2000000 a).symm.trans h8
  have hd : (a + i) / 8 = a / 8 := by
    obtain ⟨q, rfl⟩ := Nat.dvd_of_mod_eq_zero ha
    rw [Nat.mul_add_div (by decide), Nat.mul_div_cancel_left _ (by decide), Nat.div_eq_of_lt hi, Nat.add_zero]
  have hk : ∀ m, (a + i) / (8 * m) = a / (8 * m) := fun m => by
    rw [← Nat.div_div_eq_div_mul, hd, Nat.div_div_eq_div_mul]
  have hm : (a + i) % 8 = a % 8 + i := by rw [Nat.add_mod, ha, Nat.zero_add, Nat.zero_add, Nat.mod_mod, Nat.mod_eq_of_lt hi]
  have hl : skewLow (a + i) = skewLow a + i := by
    rw [skewLow, hd, hm, show (a + i) / 256 = a / 256 from hk 32, show (a + i) / 8192 = a / 8192 from hk 1024]
    exact (Nat.add_assoc _ _ _).symm
  have ho : c.cellOff (a + i) = c.cellOff a + i := by
    rw [Chip.cellOff, Chip.cellOff, hl, show (a + i) / 16384 = a / 16384 from hk 2048, apply_ite (· + i)]
    simp only [Nat.add_assoc]
  rw [Nat.add_assoc, c.clsCell_off, c.clsCell_off, ho, Nat.add_assoc]

/-- The place in a skewed row-block names the row, half, word and byte (R88). -/
theorem skewLow_inj {a b : Nat} (e : skewLow a = skewLow b) :
    a / 256 % 32 = b / 256 % 32 ∧ a / 8192 % 2 = b / 8192 % 2 ∧ a / 8 % 32 = b / 8 % 32 ∧ a % 8 = b % 8 := by
  rw [skewLow_eq, skewLow_eq] at e
  obtain ⟨e, hb⟩ := digit_inj (Nat.mod_lt _ (by decide)) (Nat.mod_lt _ (by decide)) e
  obtain ⟨e, hs⟩ := digit_inj (Nat.mod_lt _ (by decide)) (Nat.mod_lt _ (by decide)) e
  obtain ⟨hr, hh⟩ := digit_inj (Nat.mod_lt _ (by decide)) (Nat.mod_lt _ (by decide)) e
  have hw : a / 8 ≡ b / 8 [MOD 32] :=
    (Nat.mod_modEq _ _).symm.trans ((Nat.ModEq.add_left_cancel' _ (hr ▸ hs)).trans (Nat.mod_modEq _ _))
  exact ⟨hr, hh, hw, hb⟩

/-- A row-block and the place in it name a byte. -/
theorem eq_of_skewLow {a b : Nat} (hk : a / 16384 = b / 16384) (e : skewLow a = skewLow b) : a = b := by
  obtain ⟨hr, hh, hw, hb⟩ := skewLow_inj e
  have h8192 : a / 8192 = b / 8192 := Nat.ext_div_modEq (n := 2) (by rw [Nat.div_div_eq_div_mul, Nat.div_div_eq_div_mul]; exact hk) hh
  have h256 : a / 256 = b / 256 := Nat.ext_div_modEq (n := 32) (by rw [Nat.div_div_eq_div_mul, Nat.div_div_eq_div_mul]; exact h8192) hr
  have h8 : a / 8 = b / 8 := Nat.ext_div_modEq (n := 32) (by rw [Nat.div_div_eq_div_mul, Nat.div_div_eq_div_mul]; exact h256) hw
  exact Nat.ext_div_modEq h8 hb

/-- Two bytes of Cloister have different cells. -/
theorem Chip.clsCell_inj (c : Chip) {x y : Nat} (hx : target x = .cls) (hy : target y = .cls) (e : c.clsCell x = c.clsCell y) : x = y := by
  obtain ⟨a, rfl, -⟩ := exists_off_of_cls hx
  obtain ⟨b, rfl, -⟩ := exists_off_of_cls hy
  rw [c.clsCell_off, c.clsCell_off] at e
  have e := Nat.add_left_cancel e
  have hk : a / 16384 = b / 16384 := by rw [← c.cellOff_div a, e, c.cellOff_div]
  rw [Chip.cellOff, Chip.cellOff, hk] at e
  split at e
  · rw [eq_of_skewLow hk (Nat.add_left_cancel e)]
  · rw [e]

/-! Bytes and granule states. -/

theorem Work.byteAt_cls (w : Work) {pa : Nat} (h : target pa = .cls) : w.byteAt pa = (aget w.mem.cells (w.chip.clsCell pa)).getD 0 := by
  simp only [Work.byteAt, h, w.chip.cellOf_cls h]

theorem Work.byteAt_lp5x (w : Work) {pa : Nat} (h : target pa = .lp5x) :
    w.byteAt pa = (aget w.mem.cells pa).getD (Config.lp5xByte w.chip.memc.lpEpoch pa) := by
  simp only [Work.byteAt, h, w.chip.cellOf_other (pa := pa) (by simp [h]) (by simp [h])]

theorem Chip.lpFailed_other (c : Chip) {pa : Nat} (h : target pa ≠ .lp5x) : c.lpFailed pa = false := by
  simp [Chip.lpFailed, h]

theorem Work.markOf_cls (w : Work) {pa : Nat} (h : target pa = .cls) : w.markOf pa = aget w.mem.marks (w.chip.clsCell pa) := by
  simp only [Work.markOf, h, w.chip.cellOf_cls h, w.chip.lpFailed_other (pa := pa) (by simp [h]), Bool.and_false, Bool.false_eq_true,
    if_false]
  cases aget w.mem.marks (w.chip.clsCell pa) <;> rfl

/-- Whether a byte of a granule has been written matters where an unwritten granule has a free state. -/
def Target.hasFreeMarks : Target → Bool
  | .stall | .lp5x => true
  | _ => false

/-- A byte reads alike in two works whose chips share the map and whose memories agree at its cell. -/
theorem Work.byteAt_congr {w v : Work} {pa : Nat} (h : w.chip.SameMap v.chip)
    (hc : aget v.mem.cells (w.chip.cellOf pa) = aget w.mem.cells (w.chip.cellOf pa))
    (hl : target pa = .lp5x → v.chip.memc.lpEpoch = w.chip.memc.lpEpoch) (hr : v.chip.memc.rawEpoch = w.chip.memc.rawEpoch) :
    v.byteAt pa = w.byteAt pa := by
  simp only [Work.byteAt, h.cellOf, hc, hr]
  split
  · rfl
  next ht => rw [hl ht]
  · rfl

/-- A granule's state reads alike where also the granule's bytes are written or unwritten alike. -/
theorem Work.markOf_congr {w v : Work} {pa : Nat} (h : w.chip.SameMap v.chip)
    (hm : aget v.mem.marks (w.chip.cellOf pa) = aget w.mem.marks (w.chip.cellOf pa))
    (ha : (target pa).hasFreeMarks = true → ∀ n, n ≤ 32 →
      anyListed v.mem.cells (w.chip.cellOf pa) n = anyListed w.mem.cells (w.chip.cellOf pa) n)
    (hl : target pa = .lp5x → v.chip.memc.lpEpoch = w.chip.memc.lpEpoch) (hr : v.chip.memc.rawEpoch = w.chip.memc.rawEpoch) :
    v.markOf pa = w.markOf pa := by
  simp only [Work.markOf, h.cellOf, h.inlineEcc, h.lpFailed, hm, hr]
  cases ht : target pa with
  | stall => rw [ha (by rw [ht]; rfl) 8 (by decide)]
  | lp5x => rw [ha (by rw [ht]; rfl) 32 (by decide), hl ht]
  | _ => rfl

/-! A range of cells cleared. -/

/-- The pairs of a list whose keys lie outside a range. -/
theorem aget_clear {β : Type} (l : List (Nat × β)) (lo hi x : Nat) :
    aget (l.filter fun r => !(decide (lo ≤ r.1) && decide (r.1 < hi))) x = if lo ≤ x ∧ x < hi then none else aget l x := by
  rw [aget_filter l (fun a => !(decide (lo ≤ a) && decide (a < hi)))]
  by_cases h : lo ≤ x ∧ x < hi
  · simp [h]
  · rw [if_neg h, if_pos (by simp; omega)]

theorem anyListed_clear (l : List Host.Cell) {lo hi g n : Nat} (h : hi ≤ g ∨ g + n ≤ lo) :
    anyListed (l.filter fun r => !(decide (lo ≤ r.1) && decide (r.1 < hi))) g n = anyListed l g n := by
  simp only [anyListed, List.any_filter]
  refine congrArg (fun f => l.any f) (funext fun r => ?_)
  by_cases hr : g ≤ r.1 ∧ r.1 < g + n
  · simp [hr]
    omega
  · have : (decide (g ≤ r.1) && decide (r.1 < g + n)) = false := by simpa using hr
    simp [this]

/-- What is outside a cleared range reads as before. -/
theorem State.memBut_clear {s t : State} {lo hi : Nat} {named : Nat → Prop} (h : s.chip.SameMap t.chip)
    (hmem : t.mem = s.mem.apply (.clear lo hi)) (hr : t.chip.memc.rawEpoch = s.chip.memc.rawEpoch)
    (hout : ∀ pa, ¬named pa → ¬(lo ≤ s.chip.cellOf pa ∧ s.chip.cellOf pa < hi) ∧
      ((target pa).hasFreeMarks = true → ∀ n, n ≤ 32 → hi ≤ s.chip.cellOf pa ∨ s.chip.cellOf pa + n ≤ lo) ∧
      (target pa = .lp5x → t.chip.memc.lpEpoch = s.chip.memc.lpEpoch)) : s.memBut t named := by
  refine ⟨fun pa hn => ?_, by rw [hmem]; rfl, by rw [hmem]; rfl⟩
  obtain ⟨hc, ha, hl⟩ := hout pa hn
  have hcells : t.mem.cells = s.mem.cells.filter fun r => !(decide (lo ≤ r.1) && decide (r.1 < hi)) := by rw [hmem]; rfl
  have hmarks : t.mem.marks = s.mem.marks.filter fun r => !(decide (lo ≤ r.1) && decide (r.1 < hi)) := by rw [hmem]; rfl
  refine ⟨Work.byteAt_congr (w := s.work) (v := t.work) h ?_ hl hr, Work.markOf_congr (w := s.work) (v := t.work) h ?_ (fun hf n hn => ?_) hl hr⟩
  · show aget t.mem.cells _ = aget s.mem.cells _
    rw [hcells, aget_clear]
    exact if_neg hc
  · show aget t.mem.marks _ = aget s.mem.marks _
    rw [hmarks, aget_clear]
    exact if_neg hc
  · show anyListed t.mem.cells _ n = anyListed s.mem.cells _ n
    rw [hcells]
    exact anyListed_clear _ (ha hf n hn)

end Sys2Proof.Machine
end

section
/-! The control of Cloister and LP5X, and the errors that memory keeps (R89, R91, R93-R96, R104, R107, R108, R114, R117, R527, R528). -/

namespace Sys2Proof.Machine

theorem WM.if_pos {α : Type} {p : Prop} [Decidable p] {a b : WM α} {w : Work} {x : α × Work} (hp : p) (h : a w = x) :
    (if p then a else b) w = x := WM.ite_of_eq (fun _ => h) fun hn => absurd hp hn

theorem WM.if_neg {α : Type} {p : Prop} [Decidable p] {a b : WM α} {w : Work} {x : α × Work} (hp : ¬p) (h : b w = x) :
    (if p then a else b) w = x := WM.ite_of_eq (fun hn => absurd hn hp) fun _ => h

/-! Enabling and disabling Cloister. -/

/-- The chip as Cloister is enabled: the capacity is what the retired banks leave, and the initialisation has begun. -/
def Chip.clsEnabled (c : Chip) : Chip :=
  let banks := retiredBanks (c.rd 0x070 0x040).toNat
  let d := ((c.setBit 0x070 0x00C 0 true).setBit 0x070 0x010 8 true).setFld 0x070 0x044 0 12 (2048 - 32 * banks.length)
  { d with memc := { d.memc with
      clsRetired := banks, clsInitAt := d.time.now, pendingWb := d.memc.pendingWb.filter fun g => target g != .cls } }

theorem clsEnableTo_on {w : Work} (h : w.chip.enabled 0x070 = false) : clsEnableTo true w =
    ((), { w with chip := w.chip.clsEnabled, mem := w.mem.apply (.clear clsBase 0x12000000), ops := .clear clsBase 0x12000000 :: w.ops }) := by
  exact WM.bind_of_eq (getChip_apply w) (WM.if_pos (by simp [h]) rfl)

theorem clsEnableTo_same {w : Work} {on : Bool} (h : w.chip.enabled 0x070 = on) : clsEnableTo on w = ((), w) := by
  cases on <;> simp [clsEnableTo, h]

theorem clsEnableTo_off {w : Work} (h : w.chip.enabled 0x070 = true) : clsEnableTo false w = ((), w.onChip fun c =>
    let d := (c.setBit 0x070 0x00C 0 false).setBit 0x070 0x010 8 false
    { d with memc := { d.memc with pendingWb := d.memc.pendingWb.filter fun g => target g != .cls } }) := by
  exact WM.bind_of_eq (getChip_apply w) (WM.if_neg (by simp) (WM.if_pos (by simp [h]) rfl))

section
variable (c : Chip)

theorem Chip.clsEnabled_wordAt {a : Nat} (h : a ∉ [regAddr 0x070 0x00C, regAddr 0x070 0x010, regAddr 0x070 0x044]) :
    c.clsEnabled.wordAt a = c.wordAt a := by
  simp only [List.mem_cons, List.not_mem_nil, or_false, not_or] at h
  obtain ⟨h1, h2, h3⟩ := h
  calc c.clsEnabled.wordAt a = ((c.setBit 0x070 0x00C 0 true).setBit 0x070 0x010 8 true).wordAt a := Chip.wordAt_wr_ne _ _ h3
    _ = (c.setBit 0x070 0x00C 0 true).wordAt a := Chip.wordAt_wr_ne _ _ h2
    _ = c.wordAt a := Chip.wordAt_wr_ne _ _ h1

theorem Chip.clsEnabled_sameMap : c.SameMap c.clsEnabled :=
  ⟨fun a ha => c.clsEnabled_wordAt fun hm => by
    simp only [List.mem_cons, List.not_mem_nil, or_false] at hm
    rcases hm with rfl | rfl | rfl <;> exact absurd ha (by decide), rfl, rfl⟩

theorem Chip.clsEnabled_enabled : c.clsEnabled.enabled 0x070 = true := by
  show (((c.setBit 0x070 0x00C 0 true).setBit 0x070 0x010 8 true).setFld 0x070 0x044 0 12 _).bit 0x070 0x00C 0 = true
  rw [Chip.bit, Chip.fld_setFld_ne _ _ _ _ _ _ _ _ _ _ (by decide), ← Chip.bit, Chip.bit_setBit_ne _ _ _ _ _ _ _ _ (by decide),
    Chip.bit_setBit_same _ _ _ _ _ (by decide)]

theorem Chip.clsEnabled_init : c.clsEnabled.bit 0x070 0x010 8 = true := by
  show (((c.setBit 0x070 0x00C 0 true).setBit 0x070 0x010 8 true).setFld 0x070 0x044 0 12 _).bit 0x070 0x010 8 = true
  rw [Chip.bit, Chip.fld_setFld_ne _ _ _ _ _ _ _ _ _ _ (by decide), ← Chip.bit, Chip.bit_setBit_same _ _ _ _ _ (by decide)]

theorem Chip.clsEnabled_capacity :
    c.clsEnabled.fld 0x070 0x044 0 12 = 2048 - 32 * (retiredBanks (c.rd 0x070 0x040).toNat).length := by
  exact (Chip.fld_setFld_same _ _ _ _ _ _ (by decide)).trans (Nat.mod_eq_of_lt (Nat.lt_of_le_of_lt (Nat.sub_le _ _) (by decide)))

end

theorem exec_clsEnable {req : Requester} {s : State} (hg : s.passes req 0x070 0x00C) :
    exec (.clsEnable req) s = s.onMem (clsEnableTo true) := s.onMem_gated req 0x070 0x00C _ hg

theorem exec_clsDisable {req : Requester} {s : State} (hg : s.passes req 0x070 0x00C) :
    exec (.clsDisable req) s = s.onMem (clsEnableTo false) := s.onMem_gated req 0x070 0x00C _ hg

/-- An enable of Cloister leaves every byte 0 and clean, and everything else as it was. -/
theorem exec_clsEnable_off {req : Requester} {s : State} (hg : s.passes req 0x070 0x00C) (h : s.chip.enabled 0x070 = false) :
    ∃ t, exec (.clsEnable req) s = .next t ∧ t.pending = s.pending ∧ t.fuses = s.fuses ∧ t.chip = s.chip.clsEnabled.settle ∧
      t.mem = s.mem.apply (.clear clsBase 0x12000000) := by
  have hm := clsEnableTo_on (w := s.work) h
  refine ⟨_, exec_clsEnable hg, rfl, rfl, ?_, ?_⟩
  · exact congrArg (fun x : Unit × Work => x.2.chip.settle) hm
  · exact congrArg (fun x : Unit × Work => s.mem.applyAll x.2.ops.reverse) hm

theorem Target.free_cases {t : Target} (h : t.hasFreeMarks = true) : t = .stall ∨ t = .lp5x := by
  induction t with
  | stall => exact .inl rfl
  | lp5x => exact .inr rfl
  | _ => exact absurd h (by decide)

theorem clear_cls_outside (c : Chip) {pa : Nat} (h : target pa ≠ .cls) :
    ¬(clsBase ≤ c.cellOf pa ∧ c.cellOf pa < 0x12000000) ∧
      ((target pa).hasFreeMarks = true → ∀ n, n ≤ 32 → 0x12000000 ≤ c.cellOf pa ∨ c.cellOf pa + n ≤ clsBase) := by
  rw [← target_cls_iff, c.target_cellOf]
  refine ⟨h, fun hf n _ => .inl ?_⟩
  obtain hp | hp := Target.free_cases hf
  · exact Nat.le_trans (by decide) (target_stall_iff.mp ((c.target_cellOf pa).trans hp)).1
  · exact Nat.le_trans (by decide) (target_lp5x_iff.mp ((c.target_cellOf pa).trans hp)).1

section
variable {s t : State} (hc : t.chip = s.chip.clsEnabled.settle) (hm : t.mem = s.mem.apply (.clear clsBase 0x12000000))
include hm

theorem clsEnabled_zero {pa : Nat} (h : target pa = .cls) : t.byte pa = 0 ∧ t.mark pa = none := by
  have hin : clsBase ≤ t.chip.clsCell pa ∧ t.chip.clsCell pa < 0x12000000 := target_cls_iff.mp (t.chip.clsCell_range h)
  have hcells : aget t.mem.cells (t.chip.clsCell pa) = none := by
    rw [hm]
    exact (aget_clear _ _ _ _).trans (if_pos hin)
  have hmarks : aget t.mem.marks (t.chip.clsCell pa) = none := by
    rw [hm]
    exact (aget_clear _ _ _ _).trans (if_pos hin)
  exact ⟨(t.work.byteAt_cls h).trans (by rw [show t.work.mem.cells = t.mem.cells from rfl, show t.work.chip = t.chip from rfl, hcells]; rfl),
    (t.work.markOf_cls h).trans hmarks⟩

include hc in
theorem clsEnabled_memBut : s.memBut t fun pa => target pa = .cls := by
  refine State.memBut_clear ?_ hm (by rw [hc]; rfl) fun pa h => ?_
  · rw [hc]
    exact s.chip.clsEnabled_sameMap.trans (Chip.SameMap.settle _)
  · obtain ⟨h1, h2⟩ := clear_cls_outside s.chip h
    exact ⟨h1, h2, fun _ => by rw [hc]; rfl⟩

end

/-! CLS_SKEW (R89). -/

/-- A mask of bits that a test picks has each bit where the test holds. -/
theorem testBit_foldl_mask (f : Nat → Bool) (n b : Nat) :
    ((List.range n).foldl (fun m b => if f b then m + 2 ^ b else m) 0).testBit b = (decide (b < n) && f b) := by
  have hstep : ∀ m n, (if f n then m + 2 ^ n else m) = 2 ^ n * (f n).toNat + m := by
    intro m n
    cases f n
    · exact (Nat.zero_add m).symm
    · rw [if_pos rfl, Bool.toNat_true, Nat.mul_one, Nat.add_comm]
  have hlt : ∀ n, (List.range n).foldl (fun m b => if f b then m + 2 ^ b else m) 0 < 2 ^ n := by
    intro n
    induction n with
    | zero => exact Nat.one_pos
    | succ n ih =>
      rw [List.range_succ, List.foldl_concat, hstep, Nat.mul_comm, Nat.pow_succ, Nat.mul_comm (2 ^ n) 2]
      exact digit_lt (Nat.lt_succ_of_le (Bool.toNat_le _)) ih
  induction n with
  | zero => exact Nat.zero_testBit b
  | succ n ih =>
    rw [List.range_succ, List.foldl_concat, hstep, Nat.testBit_two_pow_mul_add _ (hlt n), ih, Nat.testBit_bool_toNat]
    obtain h | rfl | h := Nat.lt_trichotomy b n
    · rw [if_pos h, decide_eq_true h, decide_eq_true (Nat.lt_succ_of_lt h)]
    · rw [if_neg (Nat.lt_irrefl b), Nat.sub_self, decide_eq_true (Nat.lt_succ_self b)]
      rfl
    · rw [if_neg (Nat.lt_asymm h), decide_eq_false (Nat.sub_pos_of_lt h).ne', decide_eq_false (Nat.not_lt_of_le h)]
      rfl

/-! The fields of a word that a sum gives. -/

/-- A field of a sum above what its lower part holds. -/
theorem bits_mul_add (q w : Nat) {r k : Nat} (h : r < 2 ^ k) : bits (q * 2 ^ k + r) k w = q % 2 ^ w := by
  rw [bits, Nat.mul_comm, Nat.mul_add_div (Nat.two_pow_pos k), Nat.div_eq_of_lt h, Nat.add_zero]

/-- What lies above a field does not count in it. -/
theorem bits_add_high (q x : Nat) {lo w k : Nat} (h : lo + w ≤ k) : bits (q * 2 ^ k + x) lo w = bits x lo w := by
  rw [bits, bits, ← Nat.mod_mul_right_div_self, ← Nat.mod_mul_right_div_self, ← Nat.pow_add,
    Nat.add_mod, Nat.mod_eq_zero_of_dvd (Nat.dvd_mul_left_of_dvd (Nat.pow_dvd_pow 2 h) q), Nat.zero_add, Nat.mod_mod]

theorem bits_word (n : Nat) {lo w : Nat} (h : lo + w ≤ 32) : bits (word n).toNat lo w = bits n lo w := by
  rw [word, BitVec.toNat_ofNat, bits, bits, ← Nat.mod_mul_right_div_self, ← Nat.mod_mul_right_div_self, ← Nat.pow_add,
    Nat.mod_mod_of_dvd _ (Nat.pow_dvd_pow 2 h)]

/-! Error records (R468, R469). -/

theorem Chip.journal_wordAt (c : Chip) (e : JrnEntry) {a : Nat} (h : a ≠ regAddr 0x005 0x05C) : (c.journal e).wordAt a = c.wordAt a := by
  unfold Chip.journal
  split
  · rfl
  · exact c.wordAt_wr_ne _ h

theorem Chip.journal_list (c : Chip) (e : JrnEntry) :
    (c.journal e).vrg.journal = if c.vrg.journal.length < 256 then c.vrg.journal ++ [e] else c.vrg.journal := by
  unfold Chip.journal
  split <;> rfl

/-- The registers that an error record of a page may change. -/
def logAddrs (p : Nat) : List Nat := [regAddr p 0x014, regAddr p 0x020, regAddr p 0x024, regAddr 0x005 0x05C]

/-- A register of the page, but for the cause and the log themselves, is none that its error records change. -/
theorem not_logged {p off : Nat} (h : off ∉ [0x014, 0x020, 0x024]) (hp : p ≠ 0x005) (ho : off < 0x1000) : regAddr p off ∉ logAddrs p := by
  have hne : ∀ o ∈ [0x014, 0x020, 0x024], regAddr p off ≠ regAddr p o := fun o hm => regAddr_off_ne _ _ _ fun e => h (e ▸ hm)
  exact List.not_mem_cons_of_ne_of_not_mem (hne _ (by decide)) <| List.not_mem_cons_of_ne_of_not_mem (hne _ (by decide)) <|
    List.not_mem_cons_of_ne_of_not_mem (hne _ (by decide)) <| List.not_mem_cons_of_ne_of_not_mem (regAddr_page_ne _ _ _ _ hp ho (by decide))
      List.not_mem_nil

/-- Nor is a register of another page, but for the journal's. -/
theorem not_logged_page {p q off : Nat} (h : q ≠ p) (hp : q ≠ 0x005) (ho : off < 0x1000) : regAddr q off ∉ logAddrs p := by
  have hne : ∀ o < 0x1000, regAddr q off ≠ regAddr p o := fun o => regAddr_page_ne _ _ _ _ h ho
  exact List.not_mem_cons_of_ne_of_not_mem (hne _ (by decide)) <| List.not_mem_cons_of_ne_of_not_mem (hne _ (by decide)) <|
    List.not_mem_cons_of_ne_of_not_mem (hne _ (by decide)) <| List.not_mem_cons_of_ne_of_not_mem (regAddr_page_ne _ _ _ _ hp ho (by decide))
      List.not_mem_nil

theorem Chip.logErr_wordAt (c : Chip) (p cls code owner : Nat) (d : Word) {a : Nat} (h : a ∉ logAddrs p) :
    (c.logErr p cls code owner d).wordAt a = c.wordAt a := by
  simp only [logAddrs, List.mem_cons, List.not_mem_nil, or_false, not_or] at h
  obtain ⟨h1, h2, h3, h4⟩ := h
  exact (Chip.journal_wordAt _ _ h4).trans ((Chip.wordAt_wr_ne _ _ h1).trans ((Chip.wordAt_wr_ne _ _ h3).trans (Chip.wordAt_wr_ne _ _ h2)))

theorem Chip.logUse_wordAt (c : Chip) (p code : Nat) (req : Requester) (addr : Nat) {a : Nat} (h : a ∉ logAddrs p) :
    (c.logUse p code req addr).wordAt a = c.wordAt a := c.logErr_wordAt _ _ _ _ _ h

theorem bits_logWord (cls code owner e tb : Nat) (he : e ≤ 1) (ht : tb < 2 ^ 15) :
    bits (word (cls * 2 ^ 28 + code % 256 * 2 ^ 20 + owner % 16 * 2 ^ 16 + e * 2 ^ 15 + tb)).toNat 20 8 = code % 256 := by
  have hlow : ((owner % 16) * 2 + e) * 2 ^ 15 + tb < 2 ^ 20 :=
    digit_lt (digit_lt (Nat.mod_lt owner (by decide)) (Nat.lt_succ_of_le he)) ht
  have heq : cls * 2 ^ 28 + code % 256 * 2 ^ 20 + owner % 16 * 2 ^ 16 + e * 2 ^ 15 + tb =
      (cls * 256 + code % 256) * 2 ^ 20 + (((owner % 16) * 2 + e) * 2 ^ 15 + tb) := by
    simp only [Nat.add_mul, Nat.mul_assoc, Nat.add_assoc, Nat.reduceMul, Nat.reducePow]
  rw [heq, bits_word _ (by decide), bits_mul_add _ _ hlow]
  exact (Nat.mul_add_mod' cls 256 _).trans (Nat.mod_mod code 256)

theorem Chip.logErr_code (c : Chip) (p cls code owner : Nat) (d : Word) (h : regAddr p 0x020 ≠ regAddr 0x005 0x05C) :
    (c.logErr p cls code owner d).fld p 0x020 20 8 = code % 256 := by
  rw [Chip.fld, Chip.rd_eq_wordAt]
  unfold Chip.logErr
  dsimp only
  rw [Chip.journal_wordAt _ _ h, Chip.raise, Chip.raiseMask, Chip.wordAt_wr_ne _ _ (regAddr_off_ne _ _ _ (by decide)),
    Chip.wordAt_wr_ne _ _ (regAddr_off_ne _ _ _ (by decide)), ← Chip.rd_eq_wordAt, Chip.rd_wr_same]
  exact bits_logWord _ _ _ _ _ (Bool.toNat_le _) (bits_lt _ _ _)

theorem length_full_iff {α : Type} (l : List α) (x : α) : (if l.length < 256 then l ++ [x] else l) = l ↔ 256 ≤ l.length := by
  by_cases h : l.length < 256
  · simp [h]
  · rw [if_neg h]
    exact iff_of_true rfl (Nat.le_of_not_lt h)

theorem Chip.logErr_journal (c : Chip) (p cls code owner : Nat) (d : Word) :
    (c.logErr p cls code owner d).vrg.journal = c.vrg.journal ↔ 256 ≤ c.vrg.journal.length := by
  unfold Chip.logErr
  dsimp only
  rw [Chip.journal_list]
  exact length_full_iff c.vrg.journal _

/-! A write of CLS_SKEW. -/

/-- The row-blocks of a CLS_SKEW register that registered regions pin, as a mask. -/
def Chip.pinMask (c : Chip) (n : Nat) : Word :=
  BitVec.ofNat 32 ((List.range 32).foldl (fun m b => if c.pinned (32 * n + b) then m + 2 ^ b else m) 0)

theorem Chip.pinMask_getLsbD (c : Chip) (n : Nat) {b : Nat} (hb : b < 32) : (c.pinMask n).getLsbD b = c.pinned (32 * n + b) := by
  rw [Chip.pinMask, BitVec.getLsbD_ofNat, testBit_foldl_mask fun b => c.pinned (32 * n + b)]
  simp [hb]

theorem Chip.clsSkew_eq (c : Chip) (req : Requester) (n : Nat) (v : Word) :
    let off := 0x080 + 4 * n
    let d := c.wr 0x070 off ((c.rd 0x070 off &&& c.pinMask n) ||| (v &&& ~~~c.pinMask n))
    c.clsSkew req n v = if (c.rd 0x070 off ^^^ v) &&& c.pinMask n != 0 then d.logUse 0x070 0x08 req (regAddr 0x070 off) else d := rfl

theorem Chip.bit_eq_getLsbD (c : Chip) (p off b : Nat) : c.bit p off b = (c.rd p off).getLsbD b :=
  (c.bit_eq_testBit p off b).trans (BitVec.testBit_toNat _)

/-- No pinned bit would change. -/
theorem Chip.skew_unchanged_iff (c : Chip) (n : Nat) (x v : Word) : ((x ^^^ v) &&& c.pinMask n) = 0 ↔
    ∀ b : Fin 32, c.pinned (32 * n + b) = true → x.getLsbD b = v.getLsbD b := by
  constructor
  · intro h b hp
    have hb := congrArg (·.getLsbD b) h
    simp only [BitVec.getLsbD_and, BitVec.getLsbD_xor, c.pinMask_getLsbD n b.isLt, hp, Bool.and_true] at hb
    simpa using hb
  · intro h
    refine BitVec.eq_of_getLsbD_eq fun b hb => ?_
    rw [BitVec.getLsbD_and, BitVec.getLsbD_xor, c.pinMask_getLsbD n hb]
    cases hp : c.pinned (32 * n + b) with
    | false => simp
    | true => simp [h ⟨b, hb⟩ hp]

section
variable (c : Chip) (req : Requester) (n : Fin 64) (v : Word)

/-- The chip with CLS_SKEW written, apart from the record. -/
def Chip.skewStored (c : Chip) (n : Nat) (v : Word) : Chip :=
  c.wr 0x070 (0x080 + 4 * n) ((c.rd 0x070 (0x080 + 4 * n) &&& c.pinMask n) ||| (v &&& ~~~c.pinMask n))

theorem Chip.clsSkew_cases :
    ((∀ b : Fin 32, c.pinned (32 * n + b) = true → c.bit 0x070 (0x080 + 4 * n) b = v.getLsbD b) ∧ c.clsSkew req n v = c.skewStored n v) ∨
    (¬(∀ b : Fin 32, c.pinned (32 * n + b) = true → c.bit 0x070 (0x080 + 4 * n) b = v.getLsbD b) ∧
      c.clsSkew req n v = (c.skewStored n v).logUse 0x070 0x08 req (regAddr 0x070 (0x080 + 4 * n))) := by
  simp only [c.bit_eq_getLsbD]
  rw [← c.skew_unchanged_iff, c.clsSkew_eq]
  by_cases h : (c.rd 0x070 (0x080 + 4 * n) ^^^ v) &&& c.pinMask n = 0
  · exact .inl ⟨h, if_neg (by simpa using h)⟩
  · exact .inr ⟨h, if_pos (by simpa using h)⟩

theorem Chip.skewStored_bit (b : Fin 32) : (c.skewStored n v).bit 0x070 (0x080 + 4 * n) b =
    if c.pinned (32 * n + b) then c.bit 0x070 (0x080 + 4 * n) b else v.getLsbD b := by
  rw [Chip.bit_eq_getLsbD, Chip.skewStored, Chip.rd_wr_same, BitVec.getLsbD_or, BitVec.getLsbD_and, BitVec.getLsbD_and,
    BitVec.getLsbD_not, c.pinMask_getLsbD n b.isLt, c.bit_eq_getLsbD]
  cases c.pinned (32 * n + b) <;> simp [b.isLt]

omit c req n v in
theorem skew_not_logAddr : ∀ n : Fin 64, regAddr 0x070 (0x080 + 4 * n.val) ∉ logAddrs 0x070 := by
  decide

theorem Chip.clsSkew_bit (b : Fin 32) : (c.clsSkew req n v).bit 0x070 (0x080 + 4 * n) b =
    if c.pinned (32 * n + b) then c.bit 0x070 (0x080 + 4 * n) b else v.getLsbD b := by
  rw [← c.skewStored_bit n v b]
  rcases c.clsSkew_cases req n v with ⟨-, h⟩ | ⟨-, h⟩
  · rw [h]
  · rw [h, Chip.bit_eq_getLsbD, Chip.rd_eq_wordAt, Chip.logUse_wordAt _ _ _ _ _ (skew_not_logAddr n), ← Chip.rd_eq_wordAt,
      ← Chip.bit_eq_getLsbD]

theorem Chip.clsSkew_journal : (c.clsSkew req n v).vrg.journal = c.vrg.journal ↔
    (∀ b : Fin 32, c.pinned (32 * n + b) = true → c.bit 0x070 (0x080 + 4 * n) b = v.getLsbD b) ∨ 256 ≤ c.vrg.journal.length := by
  rcases c.clsSkew_cases req n v with ⟨hb, h⟩ | ⟨hb, h⟩
  · rw [h]
    exact ⟨fun _ => .inl hb, fun _ => rfl⟩
  · rw [h]
    exact (Chip.logErr_journal (c.skewStored n v) _ _ _ _ _).trans ⟨.inr, fun x => x.resolve_left hb⟩

theorem Chip.clsSkew_log : (c.clsSkew req n v).rd 0x070 0x014 = c.rd 0x070 0x014 ∨ (c.clsSkew req n v).fld 0x070 0x020 20 8 = 0x08 := by
  rcases c.clsSkew_cases req n v with ⟨-, h⟩ | ⟨-, h⟩
  · exact .inl (by rw [h]; exact Chip.rd_wr_ne _ _ _ _ _ _ fun e => skew_not_logAddr n (e ▸ by decide))
  · exact .inr (by rw [h]; exact Chip.logErr_code _ _ _ _ _ _ (by decide))

theorem Chip.clsSkew_wordAt {a : Nat} (h : a ∉ [regAddr 0x070 (0x080 + 4 * n), regAddr 0x070 0x014, regAddr 0x070 0x020,
    regAddr 0x070 0x024, regAddr 0x005 0x05C]) : (c.clsSkew req n v).wordAt a = c.wordAt a := by
  rw [List.mem_cons, not_or] at h
  obtain ⟨ha, hl⟩ := h
  have hs : (c.skewStored n v).wordAt a = c.wordAt a := Chip.wordAt_wr_ne _ _ ha
  rcases c.clsSkew_cases req n v with ⟨-, h⟩ | ⟨-, h⟩
  · rw [h, hs]
  · rw [h, Chip.logUse_wordAt _ _ _ _ _ hl, hs]

end

theorem exec_clsSkewWrite {req : Requester} {n : Fin 64} (v : Word) {s : State} (hg : s.passes req 0x070 (0x080 + 4 * n)) :
    exec (.clsSkewWrite req n v) s = .next (s.onChip fun c => c.clsSkew req n v) :=
  congrArg _ (s.onChip_gated req 0x070 _ _ hg)

theorem exec_clsInitDone (s : State) : exec .clsInitDone s = .next (s.onChip Chip.clsWait) := rfl

/-- Settles O17: the cells that an enable clears are exactly Cloister's, a bit of CLS_SKEW is kept where its row-block is pinned, and
the end of the initialisation is what an access to Cloister waits for. -/
theorem cloisterControl : Obligations.CloisterControl := by
  unfold Obligations.CloisterControl
  refine ⟨fun req s hg => ⟨fun h => ?enable, fun h => ?enabled, fun h => ?disable, fun h => ?disabled⟩, fun s => ⟨fun h => ?initEnds, fun h => ?noInit⟩,
    fun req n v s hg => ?skew⟩
  case enable =>
    obtain ⟨t, ht, hp, hf, hc, hm⟩ := exec_clsEnable_off hg h
    refine ⟨t, ht, fun pa => clsEnabled_zero hm, clsEnabled_memBut hc hm, hp, hf, ?_⟩
    rw [hc]
    exact ⟨s.chip.clsEnabled_enabled, s.chip.clsEnabled_init, s.chip.clsEnabled_capacity, rfl, rfl,
      fun a ha => s.chip.clsEnabled_wordAt ha⟩
  case enabled =>
    rw [exec_clsEnable hg]
    exact s.onMem_of_eq (clsEnableTo_same (w := s.work) h)
  case disable =>
    rw [exec_clsDisable hg]
    exact s.onMem_of_eq (clsEnableTo_off (w := s.work) h)
  case disabled =>
    rw [exec_clsDisable hg]
    exact s.onMem_of_eq (clsEnableTo_same (w := s.work) h)
  case initEnds =>
    rw [exec_clsInitDone]
    exact congrArg _ (s.onChip_congr _ _ (if_pos h))
  case noInit =>
    rw [exec_clsInitDone]
    exact congrArg _ (s.onChip_congr _ id (if_neg (by simp [h])))
  case skew =>
    exact ⟨_, exec_clsSkewWrite v hg, ⟨rfl, rfl, rfl⟩, s.chip.clsSkew_bit req n v, s.chip.clsSkew_journal req n v,
      s.chip.clsSkew_log req n v, fun a ha => s.chip.clsSkew_wordAt req n v ha⟩

/-! LP5X. -/

theorem exec_lp5xEnable {req : Requester} {s : State} (hg : s.passes req 0x088 0x00C) :
    exec (.lp5xEnable req) s = .next (s.onChip fun c => c.lpEnableTo true) := congrArg _ (s.onChip_gated req 0x088 _ _ hg)

theorem exec_lp5xDisable {req : Requester} {s : State} (hg : s.passes req 0x088 0x00C) :
    exec (.lp5xDisable req) s = .next (s.onChip fun c => c.setBit 0x088 0x00C 0 false) :=
  congrArg _ (s.onChip_gated req 0x088 _ (fun c => c.lpEnableTo false) hg)

section
variable {c : Chip}

theorem Chip.lpEnableTo_on (h : c.enabled 0x088 = true) : c.lpEnableTo true = c := by
  simp [Chip.lpEnableTo, h]

theorem Chip.rd_lpCfg_enabled (c : Chip) : (c.setBit 0x088 0x00C 0 true).rd 0x088 0x040 = c.rd 0x088 0x040 :=
  c.rd_setBit_ne _ _ _ _ _ _ (by decide)

/-- An enable under the configuration of the one before keeps the content. -/
theorem Chip.lpEnableTo_again (h : c.enabled 0x088 = false) (hc : c.memc.lpCfg = some (c.rd 0x088 0x040)) :
    c.lpEnableTo true = c.setBit 0x088 0x00C 0 true := by
  have hc' : (c.setBit 0x088 0x00C 0 true).memc.lpCfg = some ((c.setBit 0x088 0x00C 0 true).rd 0x088 0x040) := by
    rw [c.rd_lpCfg_enabled]; exact hc
  simp only [Chip.lpEnableTo, h, Bool.not_false, Bool.and_self, if_true]
  rw [if_pos hc']

theorem Chip.lpEnableTo_anew (h : c.enabled 0x088 = false) (hc : c.memc.lpCfg ≠ some (c.rd 0x088 0x040)) :
    c.lpEnableTo true =
      let d := (c.setBit 0x088 0x00C 0 true).wr 0x088 0x044 0
      { d with memc := { d.memc with lpCfg := some (c.rd 0x088 0x040), lpInit := true } } := by
  have hc' : (c.setBit 0x088 0x00C 0 true).memc.lpCfg ≠ some ((c.setBit 0x088 0x00C 0 true).rd 0x088 0x040) := by
    rw [c.rd_lpCfg_enabled]; exact hc
  simp only [Chip.lpEnableTo, h, Bool.not_false, Bool.and_self, if_true]
  rw [if_neg hc', c.rd_lpCfg_enabled]
  rfl

end

theorem exec_lp5xInitDone (s : State) : exec .lp5xInitDone s = s.onMem lpInitDone := rfl

/-- The chip as an initialisation of LP5X ends with a supported organisation. -/
def Chip.lpReady (c : Chip) : Chip :=
  let d := c.wr 0x088 0x044 (word (lpMiB (c.rd 0x088 0x040)))
  { d with memc := { d.memc with
      lpInit := false, lpEpoch := d.memc.lpEpoch + 1, pendingWb := d.memc.pendingWb.filter fun g => target g != .lp5x } }

theorem lpInitDone_idle {w : Work} (h : w.chip.enabled 0x088 = false ∨ w.chip.memc.lpInit = false) : lpInitDone w = ((), w) :=
  WM.bind_of_eq (getChip_apply w) (WM.if_pos (by simpa using h) rfl)

section
variable {w : Work} (he : w.chip.enabled 0x088 = true) (hi : w.chip.memc.lpInit = true)
include he hi

theorem lpInitDone_unsupported (hc : lpCfgOk (w.chip.rd 0x088 0x040) = false) :
    lpInitDone w = ((), w.onChip fun c => c.logErr 0x088 clsUse 0x05 0 0) :=
  WM.bind_of_eq (getChip_apply w) (WM.if_neg (by simp [he, hi]) (WM.if_pos (by simp [hc]) rfl))

theorem lpInitDone_supported (hc : lpCfgOk (w.chip.rd 0x088 0x040) = true) : lpInitDone w = ((), { w with
    chip := w.chip.lpReady, mem := w.mem.apply (.clear lpBase 0x1800000000), ops := .clear lpBase 0x1800000000 :: w.ops }) :=
  WM.bind_of_eq (getChip_apply w) (WM.if_neg (by simp [he, hi]) (WM.if_neg (by simp [hc]) rfl))

end

theorem exec_lp5xInitDone_supported {s : State} (he : s.chip.enabled 0x088 = true) (hi : s.chip.memc.lpInit = true)
    (hc : lpCfgOk (s.chip.rd 0x088 0x040) = true) :
    ∃ t, exec .lp5xInitDone s = .next t ∧ t.pending = s.pending ∧ t.fuses = s.fuses ∧ t.chip = s.chip.lpReady.settle ∧
      t.mem = s.mem.apply (.clear lpBase 0x1800000000) := by
  have hm := lpInitDone_supported (w := s.work) he hi hc
  refine ⟨_, exec_lp5xInitDone s, rfl, rfl, ?_, ?_⟩
  · exact congrArg (fun x : Unit × Work => x.2.chip.settle) hm
  · exact congrArg (fun x : Unit × Work => s.mem.applyAll x.2.ops.reverse) hm

theorem popcount_le (w v : Nat) : popcount w v ≤ w := by
  unfold popcount
  refine (List.sum_le_card_nsmul _ 1 fun x hx => ?_).trans (by simp)
  obtain ⟨i, -, rfl⟩ := List.mem_map.mp hx
  have := bits_lt v i 1
  lia

/-- No organisation has more than 2^32 MiB, so LP5X_CAP holds its size. -/
theorem lpMiB_lt (v : Word) : lpMiB v < 2 ^ 32 := by
  have hp := popcount_le 8 (bits v.toNat 8 8)
  have h1 : bits v.toNat 4 2 < 4 := bits_lt _ _ 2
  have h2 : 2 ^ bits v.toNat 2 2 ≤ 2 ^ 3 := Nat.pow_le_pow_right (by decide) (Nat.le_of_lt_succ (bits_lt _ _ 2))
  have hraw : popcount 8 (bits v.toNat 8 8) * (1 + bits v.toNat 4 2) * (512 * 2 ^ bits v.toNat 2 2) ≤ 8 * 4 * (512 * 2 ^ 3) :=
    Nat.mul_le_mul (Nat.mul_le_mul hp (by lia)) (Nat.mul_le_mul_left _ h2)
  unfold lpMiB
  dsimp only
  generalize popcount 8 (bits v.toNat 8 8) * (1 + bits v.toNat 4 2) * (512 * 2 ^ bits v.toNat 2 2) = raw at *
  split <;> lia

theorem Chip.lpReady_wordAt (c : Chip) {a : Nat} (h : a ≠ regAddr 0x088 0x044) : c.lpReady.wordAt a = c.wordAt a :=
  c.wordAt_wr_ne _ h

theorem Chip.lpReady_cap (c : Chip) : (c.lpReady.rd 0x088 0x044).toNat = lpMiB (c.rd 0x088 0x040) := by
  have : c.lpReady.rd 0x088 0x044 = word (lpMiB (c.rd 0x088 0x040)) := c.rd_wr_same 0x088 0x044 _
  rw [this]
  exact (BitVec.toNat_ofNat _ _).trans (Nat.mod_eq_of_lt (lpMiB_lt _))

theorem Chip.lpReady_sameMap (c : Chip) : c.SameMap c.lpReady :=
  ⟨(Chip.SameMap.wr c (p := 0x088) (off := 0x044) _ (by decide)).word, rfl, rfl⟩

section
variable {s t : State} (hc : t.chip = s.chip.lpReady.settle) (hm : t.mem = s.mem.apply (.clear lpBase 0x1800000000))
include hm

theorem lpReady_cells : ∀ r ∈ t.mem.cells, target r.1 ≠ .lp5x := by
  rw [hm]
  intro r hr ht
  have := (List.mem_filter.mp hr).2
  have hin := target_lp5x_iff.mp ht
  simp [hin] at this

include hc

/-- Every byte of LP5X is one that nothing has written since. -/
theorem lpReady_byte {pa : Nat} (h : target pa = .lp5x) : t.byte pa = Config.lp5xByte (s.chip.memc.lpEpoch + 1) pa := by
  have hcells : aget t.mem.cells pa = none := by
    rw [hm]
    exact (aget_clear _ _ _ _).trans (if_pos (target_lp5x_iff.mp h))
  refine (t.work.byteAt_lp5x h).trans ?_
  rw [show t.work.mem.cells = t.mem.cells from rfl, hcells, show t.work.chip = t.chip from rfl, hc]
  rfl

theorem lpReady_memBut : s.memBut t fun pa => target pa = .lp5x := by
  refine State.memBut_clear ?_ hm (by rw [hc]; rfl) fun pa h => ?_
  · rw [hc]
    exact s.chip.lpReady_sameMap.trans (Chip.SameMap.settle _)
  · rw [← target_lp5x_iff, s.chip.target_cellOf]
    refine ⟨h, fun hf n hn => .inr ?_, fun ht => absurd ht h⟩
    have hp := (Target.free_cases hf).resolve_right h
    exact Nat.le_trans (Nat.add_le_add (target_stall_iff.mp ((s.chip.target_cellOf pa).trans hp)).2.le hn) (by decide)

end

/-- Settles O18: an enable compares LP5X_CFG with that of the enable before, and the end of an initialisation clears exactly LP5X's
cells and begins its next epoch. -/
theorem lp5xControl : Obligations.Lp5xControl := by
  unfold Obligations.Lp5xControl
  refine ⟨fun req s hg => ⟨fun h => ⟨fun hc => ?again, fun hc => ?anew⟩, fun h => ?enabled, exec_lp5xDisable hg⟩,
    fun s => ⟨fun h => ?idle, fun he hi => ⟨fun hc => ?ready, fun hc => ?unsupported⟩⟩⟩
  case again =>
    rw [exec_lp5xEnable hg]
    exact congrArg _ (s.onChip_congr _ _ (Chip.lpEnableTo_again h hc))
  case anew =>
    rw [exec_lp5xEnable hg]
    exact congrArg _ (s.onChip_congr _ _ (Chip.lpEnableTo_anew h hc))
  case enabled =>
    rw [exec_lp5xEnable hg]
    exact congrArg _ (s.onChip_congr _ id (Chip.lpEnableTo_on h))
  case idle =>
    rw [exec_lp5xInitDone]
    exact s.onMem_of_eq (lpInitDone_idle (w := s.work) h)
  case ready =>
    obtain ⟨t, ht, hp, hf, hchip, hm⟩ := exec_lp5xInitDone_supported he hi hc
    refine ⟨t, ht, hp, hf, ?_, by rw [hchip]; rfl, by rw [hchip]; rfl, by rw [hchip]; rfl, fun pa => lpReady_byte hchip hm,
      lpReady_cells hm, lpReady_memBut hchip hm, fun a ha => by rw [hchip]; exact s.chip.lpReady_wordAt ha⟩
    rw [hchip]
    exact congrArg (· * 2 ^ 20) (s.chip.lpReady_cap)
  case unsupported =>
    rw [exec_lp5xInitDone]
    exact s.onMem_of_eq (lpInitDone_unsupported (w := s.work) he hi hc)

end Sys2Proof.Machine
end

section
/-! Bytes stored in a granule of Cloister, and the errors that memory keeps (R95, R104, R107, R108, R111, R140). -/

namespace Sys2Proof.Machine

/-- The state after a command that touches memory, by the work that its computation leaves. -/
def State.leave (s : State) (w : Work) : State := { s with chip := w.chip.settle, mem := s.mem.applyAll w.ops.reverse }

@[simp] theorem State.leave_pending (s : State) (w : Work) : (s.leave w).pending = s.pending := rfl
@[simp] theorem State.leave_fuses (s : State) (w : Work) : (s.leave w).fuses = s.fuses := rfl
@[simp] theorem State.leave_chip (s : State) (w : Work) : (s.leave w).chip = w.chip.settle := rfl
@[simp] theorem State.leave_mem (s : State) (w : Work) : (s.leave w).mem = s.mem.applyAll w.ops.reverse := rfl

theorem State.onMem_leave (s : State) {m : WM Unit} {w : Work} (h : m s.work = ((), w)) : s.onMem m = .next (s.leave w) :=
  congrArg (fun x : Unit × Work => Host.Outcome.next (s.leave x.2)) h

/-! A list of changes made to memory at work. -/

/-- Work after a list of changes. -/
def Work.put (w : Work) (l : List MemOp) : Work := { w with mem := w.mem.applyAll l, ops := l.reverse ++ w.ops }

theorem Work.put_put (w : Work) (a b : List MemOp) : (w.put a).put b = w.put (a ++ b) := by
  simp [Work.put, Memory.applyAll_append]

theorem forIn_emit {α : Type} (f : α → MemOp) (l : List α) (w : Work) :
    (forIn l PUnit.unit fun x _ => do emit (f x); pure (ForInStep.yield PUnit.unit)) w = ((), w.put (l.map f)) := by
  induction l generalizing w with
  | nil => simp [Work.put]
  | cons x l ih =>
    rw [List.forIn_cons]
    refine WM.bind_of_eq (a := ForInStep.yield PUnit.unit) (v := w.put [f x]) rfl ((ih _).trans ?_)
    rw [Work.put_put]
    rfl

/-- The bytes stored from a cell on. -/
def byteOps (g : Nat) (bytes : List Byte) : List MemOp := bytes.zipIdx.map fun x => .byte (g + x.2) x.1

/-- What a cell is listed with once a byte is stored in it. -/
def listedByte (a : Nat) (v : Byte) : Option Byte := if target a = .cls ∧ v = 0 then none else some v

/-- A cell outside the bytes stored keeps what it lists. -/
theorem cell_applyAll_outside (g : Nat) (bytes : List Byte) {x : Nat} : ∀ (k : Nat) (m : Memory), x < g + k ∨ g + k + bytes.length ≤ x →
    aget (m.applyAll ((bytes.zipIdx k).map fun y => .byte (g + y.2) y.1)).cells x = aget m.cells x := by
  induction bytes with
  | nil => exact fun _ _ _ => rfl
  | cons b bs ih =>
    intro k m h
    have hne : g + k ≠ x := h.elim (fun h => h.ne') fun h => (Nat.lt_of_lt_of_le (Nat.lt_add_of_pos_right (Nat.succ_pos _)) h).ne
    have hbs : x < g + (k + 1) ∨ g + (k + 1) + bs.length ≤ x :=
      h.imp Nat.lt_succ_of_lt fun h => (Nat.succ_add (g + k) bs.length).symm ▸ h
    rw [List.zipIdx_cons, List.map_cons, Memory.applyAll_cons, ih _ _ hbs, Memory.apply_byte_cell, if_neg hne]

/-- A cell of the bytes stored lists its byte. -/
theorem cell_applyAll_inside (g : Nat) (bytes : List Byte) : ∀ (i k : Nat) (m : Memory), i < bytes.length →
    aget (m.applyAll ((bytes.zipIdx k).map fun y => .byte (g + y.2) y.1)).cells (g + k + i) =
      listedByte (g + k + i) (bytes.getD i 0) := by
  induction bytes with
  | nil => exact fun _ _ _ h => absurd h (Nat.not_lt_zero _)
  | cons b bs ih =>
    intro i k m h
    rw [List.zipIdx_cons, List.map_cons, Memory.applyAll_cons]
    cases i with
    | zero =>
      rw [cell_applyAll_outside _ _ _ _ (.inl (Nat.lt_succ_self _)), Memory.apply_byte_cell]
      exact if_pos rfl
    | succ i =>
      rw [show g + k + (i + 1) = g + (k + 1) + i from (Nat.succ_add (g + k) i).symm]
      exact ih i (k + 1) _ (Nat.lt_of_succ_lt_succ h)

theorem cell_applyAll_byteOps (g : Nat) (bytes : List Byte) (m : Memory) (x : Nat) :
    aget (m.applyAll (byteOps g bytes)).cells x =
      if g ≤ x ∧ x < g + bytes.length then listedByte x (bytes.getD (x - g) 0) else aget m.cells x := by
  split
  next h =>
    obtain ⟨i, rfl⟩ := Nat.exists_eq_add_of_le h.1
    rw [Nat.add_sub_cancel_left]
    exact cell_applyAll_inside g bytes i 0 m (Nat.lt_of_add_lt_add_left h.2)
  next h => exact cell_applyAll_outside g bytes 0 m ((Nat.lt_or_ge x g).imp_right fun hx => Nat.le_of_not_lt fun hn => h ⟨hx, hn⟩)

theorem marks_applyAll_bytes (f : α → Nat × Byte) (l : List α) : ∀ m : Memory,
    (m.applyAll (l.map fun y => .byte (f y).1 (f y).2)).marks = m.marks ∧
    (m.applyAll (l.map fun y => .byte (f y).1 (f y).2)).host = m.host ∧
    (m.applyAll (l.map fun y => .byte (f y).1 (f y).2)).hostEp = m.hostEp := by
  induction l with
  | nil => exact fun m => ⟨rfl, rfl, rfl⟩
  | cons a l ih => exact fun m => ih (m.apply (.byte (f a).1 (f a).2))

theorem marks_applyAll_byteOps (g : Nat) (bytes : List Byte) (m : Memory) : (m.applyAll (byteOps g bytes)).marks = m.marks :=
  (marks_applyAll_bytes (fun y : Byte × Nat => (g + y.2, y.1)) bytes.zipIdx m).1

theorem host_applyAll_byteOps (g : Nat) (bytes : List Byte) (m : Memory) :
    (m.applyAll (byteOps g bytes)).host = m.host ∧ (m.applyAll (byteOps g bytes)).hostEp = m.hostEp :=
  (marks_applyAll_bytes (fun y : Byte × Nat => (g + y.2, y.1)) bytes.zipIdx m).2

/-! Whether some byte of a range has been written. -/

theorem anyListed_iff (l : List Host.Cell) (g n : Nat) : anyListed l g n = true ↔ ∃ x, g ≤ x ∧ x < g + n ∧ aget l x ≠ none := by
  induction l with
  | nil => simp [anyListed, aget]
  | cons r l ih =>
    obtain ⟨k, v⟩ := r
    have hstep : anyListed ((k, v) :: l) g n = (decide (g ≤ k) && decide (k < g + n) || anyListed l g n) := rfl
    rw [hstep, Bool.or_eq_true, ih, Bool.and_eq_true, decide_eq_true_eq, decide_eq_true_eq]
    constructor
    · rintro (h | ⟨x, hx, hx', hn⟩)
      · exact ⟨k, h.1, h.2, by simp [aget]⟩
      · refine ⟨x, hx, hx', ?_⟩
        by_cases hk : k = x
        · simp [aget, hk]
        · rwa [aget_cons_ne hk]
    · rintro ⟨x, hx, hx', hn⟩
      by_cases hk : k = x
      · exact .inl (hk ▸ ⟨hx, hx'⟩)
      · exact .inr ⟨x, hx, hx', by rwa [aget_cons_ne hk] at hn⟩

theorem anyListed_congr {l m : List Host.Cell} {g n : Nat} (h : ∀ x, g ≤ x → x < g + n → aget l x = aget m x) :
    anyListed l g n = anyListed m g n := by
  rw [Bool.eq_iff_iff, anyListed_iff, anyListed_iff]
  refine exists_congr fun x => and_congr_right fun hx => and_congr_right fun hx' => ?_
  rw [h x hx hx']

theorem freeMarks_above {a : Nat} (h : (target a).hasFreeMarks = true) : stallBase ≤ a :=
  (Target.free_cases h).elim (fun ht => (target_stall_iff.mp ht).1) fun ht => Nat.le_trans (by decide) (target_lp5x_iff.mp ht).1

/-! A granule stored. -/

/-- The changes that store a granule. -/
def granuleOps (g : Nat) (bytes : List Byte) (m : Option Mark) : List MemOp := byteOps g bytes ++ [.mark g m]

theorem storeGranule_apply (pa : Nat) (bytes : List Byte) (m : Option Mark) {w : Work} (h : w.chip.granSize pa ≠ 1) :
    storeGranule pa bytes m w =
      ((), (w.put (granuleOps (w.chip.cellOf pa) bytes m)).onChip fun c => c.dropWb (w.chip.cellOf pa)) := by
  refine WM.bind_of_eq (getChip_apply w) (WM.bind_of_eq (forIn_emit (fun x : Byte × Nat => MemOp.byte (w.chip.cellOf pa + x.2) x.1) _ w) ?_)
  refine WM.if_pos h (WM.bind_of_eq (emit_apply _ _) ((chipM_apply _ _).trans ?_))
  simp [Work.put, granuleOps, byteOps, Work.onChip, Memory.applyAll_append]

theorem Chip.granSize_cls (c : Chip) {pa : Nat} (h : target pa = .cls) : c.granSize pa = 8 := by
  simp only [Chip.granSize, h]

theorem granuleOps_mark (g : Nat) (bytes : List Byte) (mk : Option Mark) (m : Memory) (x : Nat) :
    aget (m.applyAll (granuleOps g bytes mk)).marks x = if g = x then mk else aget m.marks x := by
  rw [granuleOps, Memory.applyAll_append, Memory.applyAll_cons, Memory.applyAll_nil, Memory.apply_mark_mark, marks_applyAll_byteOps]

theorem granuleOps_cell (g : Nat) (bytes : List Byte) (mk : Option Mark) (m : Memory) (x : Nat) :
    aget (m.applyAll (granuleOps g bytes mk)).cells x =
      if g ≤ x ∧ x < g + bytes.length then listedByte x (bytes.getD (x - g) 0) else aget m.cells x := by
  rw [granuleOps, Memory.applyAll_append, Memory.applyAll_cons, Memory.applyAll_nil, Memory.apply_mark_cells, cell_applyAll_byteOps]

theorem granuleOps_host (g : Nat) (bytes : List Byte) (mk : Option Mark) (m : Memory) :
    (m.applyAll (granuleOps g bytes mk)).host = m.host ∧ (m.applyAll (granuleOps g bytes mk)).hostEp = m.hostEp := by
  rw [granuleOps, Memory.applyAll_append]
  exact host_applyAll_byteOps g bytes m

theorem target_cls_mono {a i : Nat} (h : target a = .cls) (h8 : a % 8 = 0) (hi : i < 8) : target (a + i) = .cls := by
  obtain ⟨hb, ht⟩ := target_cls_iff.mp h
  refine target_cls_iff.mpr ⟨hb.trans (Nat.le_add_right a i), ?_⟩
  have hlt := digit_lt (Nat.div_lt_of_lt_mul (k := 0x2400000) (n := 8) ht) hi
  rwa [Nat.div_mul_cancel (Nat.dvd_of_mod_eq_zero h8)] at hlt

theorem target_cls_base {x : Nat} (h : target x = .cls) : target (x / 8 * 8) = .cls := by
  obtain ⟨hb, ht⟩ := target_cls_iff.mp h
  exact target_cls_iff.mpr ⟨Nat.mul_le_mul_right 8 (Nat.div_le_div_right (c := 8) hb), (Nat.div_mul_le_self x 8).trans_lt ht⟩

/-- A whole granule of Cloister stored: the state before and after, whose chips place memory alike. -/
structure State.Stored (s t : State) (a : Nat) (bytes : List Byte) (mk : Option Mark) : Prop where
  cls : target a = .cls
  aligned : a % 8 = 0
  whole : bytes.length = 8
  map : s.chip.SameMap t.chip
  lpEpoch : t.chip.memc.lpEpoch = s.chip.memc.lpEpoch
  rawEpoch : t.chip.memc.rawEpoch = s.chip.memc.rawEpoch
  mem : t.mem = s.mem.applyAll (granuleOps (s.chip.clsCell a) bytes mk)

theorem State.stored_leave {s : State} {w : Work} {a : Nat} {bytes : List Byte} {mk : Option Mark} (hc : target a = .cls) (h8 : a % 8 = 0)
    (hl : bytes.length = 8) (hmap : s.chip.SameMap w.chip) (hlp : w.chip.memc.lpEpoch = s.chip.memc.lpEpoch)
    (hraw : w.chip.memc.rawEpoch = s.chip.memc.rawEpoch) (hops : w.ops = (granuleOps (s.chip.clsCell a) bytes mk).reverse) :
    s.Stored (s.leave w) a bytes mk :=
  ⟨hc, h8, hl, hmap.trans (.settle _), hlp, hraw, congrArg s.mem.applyAll (by rw [hops, List.reverse_reverse])⟩

namespace State.Stored

variable {s t : State} {a : Nat} {bytes : List Byte} {mk : Option Mark} (h : s.Stored t a bytes mk)
include h

theorem byte_at {i : Nat} (hi : i < 8) : t.byte (a + i) = bytes.getD i 0 := by
  have hc := target_cls_mono h.cls h.aligned hi
  have hcell : t.chip.clsCell (a + i) = s.chip.clsCell a + i := (h.map.clsCell hc).trans (s.chip.clsCell_add h.cls h.aligned hi)
  have ht : target (s.chip.clsCell a + i) = .cls := by rw [← s.chip.clsCell_add h.cls h.aligned hi]; exact s.chip.clsCell_range hc
  have hl : aget t.mem.cells (t.chip.clsCell (a + i)) = listedByte (s.chip.clsCell a + i) (bytes.getD i 0) := by
    rw [hcell, h.mem, granuleOps_cell, h.whole, if_pos ⟨Nat.le_add_right _ i, Nat.add_lt_add_left hi _⟩, Nat.add_sub_cancel_left]
  refine (t.work.byteAt_cls hc).trans ((congrArg (fun x => Option.getD x 0) hl).trans ?_)
  unfold listedByte
  split
  next hz => exact hz.2.symm
  · rfl

theorem mark_at : t.mark a = mk := by
  refine (t.work.markOf_cls h.cls).trans ?_
  show aget t.mem.marks (t.chip.clsCell a) = mk
  rw [h.map.clsCell h.cls, h.mem, granuleOps_mark, if_pos rfl]

/-- Outside the granule's cells lies every other byte's cell. -/
theorem cell_outside {x : Nat} (hx : ¬(a ≤ x ∧ x < a + 8)) :
    ¬(s.chip.clsCell a ≤ s.chip.cellOf x ∧ s.chip.cellOf x < s.chip.clsCell a + 8) := by
  intro hr
  obtain ⟨i, hi⟩ := Nat.exists_eq_add_of_le hr.1
  have hi8 : i < 8 := Nat.lt_of_add_lt_add_left (hi ▸ hr.2)
  have hc := target_cls_mono h.cls h.aligned hi8
  have hcell := s.chip.clsCell_add h.cls h.aligned hi8
  have htx : target x = .cls := by rw [← s.chip.target_cellOf, hi, ← hcell]; exact s.chip.clsCell_range hc
  have hxa := s.chip.clsCell_inj htx hc (by rw [← s.chip.cellOf_cls htx, hi, hcell])
  exact hx (hxa ▸ ⟨Nat.le_add_right a i, Nat.add_lt_add_left hi8 a⟩)

theorem byte_outside {x : Nat} (hx : ¬(a ≤ x ∧ x < a + 8)) : t.byte x = s.byte x := by
  refine Work.byteAt_congr (w := s.work) (v := t.work) h.map ?_ (fun _ => h.lpEpoch) h.rawEpoch
  show aget t.mem.cells _ = aget s.mem.cells _
  rw [h.mem, granuleOps_cell, h.whole]
  exact if_neg (h.cell_outside hx)

theorem memBut_range : s.memBut t fun x => a ≤ x ∧ x < a + 8 := by
  have hhost := granuleOps_host (s.chip.clsCell a) bytes mk s.mem
  refine ⟨fun x hx => ⟨h.byte_outside hx, ?_⟩, by rw [h.mem]; exact hhost.1, by rw [h.mem]; exact hhost.2⟩
  refine Work.markOf_congr (w := s.work) (v := t.work) h.map ?_ (fun hf n hn => ?_) (fun _ => h.lpEpoch) h.rawEpoch
  · show aget t.mem.marks _ = aget s.mem.marks _
    rw [h.mem, granuleOps_mark]
    refine if_neg fun e => h.cell_outside hx ?_
    exact ⟨Nat.le_of_eq e, e ▸ Nat.lt_add_of_pos_right (by decide)⟩
  · refine anyListed_congr fun y hy hy' => ?_
    show aget t.mem.cells _ = aget s.mem.cells _
    rw [h.mem, granuleOps_cell, h.whole]
    refine if_neg fun hr => ?_
    have hcls := target_cls_iff.mp (s.chip.clsCell_range (target_cls_mono h.cls h.aligned (i := 7) (by decide)))
    rw [s.chip.clsCell_add h.cls h.aligned (by decide)] at hcls
    have hle : s.chip.clsCell a + 8 ≤ stallBase := Nat.le_trans hcls.2 (by decide)
    exact Nat.not_le_of_lt hr.2 (hle.trans ((freeMarks_above (s.chip.target_cellOf x ▸ hf)).trans hy))

/-- The state of another granule of Cloister. -/
theorem mark_other {x : Nat} (hx : target x = .cls) (hne : x ≠ a) : t.mark x = s.mark x := by
  refine (t.work.markOf_cls hx).trans (Eq.trans ?_ (s.work.markOf_cls hx).symm)
  show aget t.mem.marks (t.chip.clsCell x) = aget s.mem.marks (s.chip.clsCell x)
  rw [h.map.clsCell hx, h.mem, granuleOps_mark]
  exact if_neg fun e => hne (s.chip.clsCell_inj h.cls hx e).symm

end State.Stored

/-! Upsets and the scrubber. -/

theorem exec_scrubAccess_one (u : Upset) {s : State} {w : Work} (hu : applyUpset u s.work = ((), w)) (hs : w.chip.scrubbing = false) :
    exec (.scrubAccess [u]) s = .next (s.leave w) := by
  have h : (do
      for u in [u] do applyUpset u
      if (← getChip).scrubbing then scrubRowM : WM Unit) s.work = ((), w) := by
    refine WM.bind_of_eq (a := PUnit.unit) (v := w) ?_ (WM.bind_of_eq (getChip_apply w) (WM.if_neg (by simp [hs]) rfl))
    rw [List.forIn_cons]
    exact WM.bind_of_eq (a := ForInStep.yield PUnit.unit) (WM.bind_of_eq hu rfl) rfl
  exact s.onMem_leave h

section
variable {pa : Nat} (hc : target pa = .cls) (unc : Bool) {w : Work}
include hc

theorem applyUpset_granule (h : w.markOf (pa / 8 * 8) ≠ some .poison) : applyUpset (.granule pa unc) w =
    ((), w.put [.mark (w.chip.clsCell (pa / 8 * 8)) (some (if unc then .ue else .ce))]) := by
  have hb := target_cls_base hc
  simp only [applyUpset, WM.bind_apply, WM.get_apply, w.chip.granSize_cls hc]
  rw [← w.chip.cellOf_cls hb]
  exact WM.if_pos ⟨by decide, h⟩ rfl

theorem applyUpset_poisoned (h : w.markOf (pa / 8 * 8) = some .poison) : applyUpset (.granule pa unc) w = ((), w) := by
  simp only [applyUpset, WM.bind_apply, WM.get_apply, w.chip.granSize_cls hc]
  exact WM.if_neg (fun hn => hn.2 h) rfl

end

theorem applyUpset_link (w : Work) : applyUpset .link w = ((), w.onChip fun c =>
    if c.enabled 0x088 = true ∧ c.bit 0x088 0x040 30 = true then c.count 0x088 0x048 else c) := by
  refine WM.bind_of_eq (WM.get_apply w) (WM.ite_of_eq (fun h => ?_) fun h => ?_)
  · exact (chipM_apply _ w).trans (congrArg _ (congrArg (fun x => { w with chip := x }) (if_pos h).symm))
  · exact congrArg _ (congrArg (fun x => { w with chip := x }) (if_neg h).symm)

theorem Chip.scrubbing_linkCount (c : Chip) : (c.count 0x088 0x048).scrubbing = c.scrubbing := by
  simp only [Chip.scrubbing, Chip.enabled, Chip.bit, Chip.fld]
  rw [Chip.rd_count_ne _ _ _ _ _ _ (by decide), Chip.rd_count_ne _ _ _ _ _ _ (by decide), Chip.rd_count_ne _ _ _ _ _ _ (by decide)]

/-- Without an error in its row the scrubber only moves a row on. -/
theorem scrubRowM_clean {w : Work} (h : ∀ m ∈ w.mem.marks, target m.1 = .cls → w.chip.scrubRowOf m.1 ≠ w.chip.memc.scrubRow) :
    scrubRowM w = ((), w.onChip fun c =>
      let d := if c.memc.scrubRow = 65535 then c.count 0x071 0x050 else c
      { d with memc := { d.memc with scrubRow := (c.memc.scrubRow + 1) % 65536 } }) := by
  have hnil : w.mem.marks.filter (fun m => target m.1 == .cls && w.chip.scrubRowOf m.1 == w.chip.memc.scrubRow) = [] := by
    refine List.filter_eq_nil_iff.mpr fun m hm hp => ?_
    simp only [Bool.and_eq_true, beq_iff_eq] at hp
    exact h m hm hp.1 hp.2
  refine WM.bind_of_eq (WM.get_apply w) ?_
  dsimp only
  rw [hnil, List.forIn_nil]
  rfl

/-! The pending write-back. -/

theorem rewriteClean_apply {pa : Nat} (hc : target pa = .cls) (w : Work) : rewriteClean pa w =
    ((), (w.put (granuleOps (w.chip.clsCell pa) (w.bytesAt pa 8) none)).onChip fun c => c.dropWb (w.chip.clsCell pa)) := by
  refine WM.bind_of_eq (WM.get_apply w) ?_
  rw [w.chip.granSize_cls hc, ← w.chip.cellOf_cls hc]
  exact storeGranule_apply pa _ none (by rw [w.chip.granSize_cls hc]; decide)

theorem ceWriteBack_apply {pa : BitVec 48} (hc : target pa.toNat = .cls) (s : State) : exec (.ceWriteBack pa) s =
    s.onMem (do if (← getChip).memc.pendingWb.contains (s.chip.clsCell (pa.toNat / 8 * 8)) then rewriteClean (pa.toNat / 8 * 8)) := by
  have hb := target_cls_base hc
  have : exec (.ceWriteBack pa) s = s.onMem (do
    let c ← getChip
    let base := pa.toNat / c.granSize pa.toNat * c.granSize pa.toNat
    if c.memc.pendingWb.contains (c.cellOf base) then rewriteClean base) := rfl
  rw [this, State.onMem_getChip, State.onMem_getChip]
  dsimp only
  rw [s.chip.granSize_cls hc, s.chip.cellOf_cls hb]

/-- The work after the write-back of a granule of Cloister. -/
def Work.wroteBack (w : Work) (a : Nat) : Work :=
  (w.put (granuleOps (w.chip.clsCell a) (w.bytesAt a 8) none)).onChip fun c => c.dropWb (w.chip.clsCell a)

theorem stored_wroteBack {s : State} {a : Nat} (hc : target a = .cls) (h8 : a % 8 = 0) :
    s.Stored (s.leave (s.work.wroteBack a)) a (s.work.bytesAt a 8) none :=
  State.stored_leave hc h8 (by rw [Work.bytesAt, List.length_map, List.length_range]) (.of_regs rfl rfl rfl) rfl rfl (List.append_nil _)

/-- The write-back stores the bytes that the granule held. -/
theorem exec_ceWriteBack {pa : BitVec 48} (hc : target pa.toNat = .cls) {s : State}
    (h : s.chip.memc.pendingWb.contains (s.chip.clsCell (pa.toNat / 8 * 8)) = true) :
    exec (.ceWriteBack pa) s = .next (s.leave (s.work.wroteBack (pa.toNat / 8 * 8))) := by
  have hb := target_cls_base hc
  rw [ceWriteBack_apply hc, State.onMem_getChip, if_pos h]
  exact s.onMem_leave (rewriteClean_apply hb s.work)

theorem bytesAt_getD (w : Work) (pa : Nat) {n i : Nat} (h : i < n) : (w.bytesAt pa n).getD i 0 = w.byteAt (pa + i) := by
  simp [Work.bytesAt, List.getD_eq_getElem?_getD, h]

theorem exec_fltPop {req : Requester} {s : State} (hg : s.passes req 0x073 0x114) :
    exec (.fltPop req) s = .next (s.onChip Chip.fltPop) := congrArg _ (s.onChip_gated req 0x073 0x114 _ hg)

/-- Settles O19: an upset marks its granule, and a write-back stores the bytes that a granule holds as they read. -/
theorem memoryErrors : Obligations.MemoryErrors := by
  unfold Obligations.MemoryErrors
  refine ⟨fun pa unc s hc hs => ⟨fun h => ?upset, fun h => ?poisoned⟩, fun s hs => ?link, fun s hs h => ?scrub,
    fun pa s hc => ⟨fun h => ?pending, fun h => ?idle⟩, fun req s hg => exec_fltPop hg⟩
  case upset => exact exec_scrubAccess_one _ (applyUpset_granule hc unc h) hs
  case poisoned => exact exec_scrubAccess_one _ (applyUpset_poisoned hc unc h) hs
  case link =>
    refine exec_scrubAccess_one _ (applyUpset_link s.work) ?_
    show Chip.scrubbing (if s.chip.enabled 0x088 = true ∧ s.chip.bit 0x088 0x040 30 = true then s.chip.count 0x088 0x048 else s.chip) = false
    split
    · exact s.chip.scrubbing_linkCount.trans hs
    · exact hs
  case scrub =>
    have : exec (.scrubAccess []) s = s.onMem (do if (← getChip).scrubbing then scrubRowM) := rfl
    rw [this, State.onMem_getChip, if_pos hs]
    exact s.onMem_of_eq (scrubRowM_clean h)
  case pending =>
    have hb := target_cls_base hc
    have hst := stored_wroteBack (s := s) hb (Nat.mul_mod_left _ _)
    refine ⟨_, exec_ceWriteBack hc h, hst.mark_at, fun x => ?_, fun x hx hne => ?_, rfl, s.leave_pending _, s.leave_fuses _⟩
    · by_cases hx : pa.toNat / 8 * 8 ≤ x ∧ x < pa.toNat / 8 * 8 + 8
      · obtain ⟨i, rfl⟩ := Nat.exists_eq_add_of_le hx.1
        have hi : i < 8 := Nat.lt_of_add_lt_add_left hx.2
        exact (hst.byte_at hi).trans (bytesAt_getD _ _ hi)
      · exact hst.byte_outside hx
    · exact hst.mark_other (target_cls_base hx) fun e => hne (Nat.eq_of_mul_eq_mul_right (by decide) e)
  case idle =>
    rw [ceWriteBack_apply hc, State.onMem_getChip, if_neg (by rw [h]; decide)]
    rfl

end Sys2Proof.Machine
end

section
/-! Accesses of eight bytes to one granule of Cloister: what they wait for, what they read and store, and what the work in hand then
says of the ranges written (R87, R91, R104, R105, R109, R167). -/

namespace Sys2Proof.Machine

/-! The waits of an access. -/

/-- The registers of the timebase that time itself moves: the causes of page 0x0D0, OFFSET_SLEW and the count of steps (R419, R420). -/
def timeRegs : List Nat := [regAddr 0x0D0 0x014, regAddr 0x0D0 0x054, regAddr 0x0D0 0x0A0]

theorem timeRegs_notMap : ∀ a ∈ timeRegs, isMapAddr a = false := by decide

/-- Only the clock and the timebase moved. -/
structure Chip.Passed (c d : Chip) : Prop where
  rest : d = { c with regs := d.regs, time := d.time }
  word : ∀ a, a ∉ timeRegs → d.wordAt a = c.wordAt a

namespace Chip.Passed

theorem refl (c : Chip) : c.Passed c := ⟨rfl, fun _ _ => rfl⟩

theorem trans {a b c : Chip} (h : a.Passed b) (k : b.Passed c) : a.Passed c :=
  ⟨by rw [k.rest, h.rest], fun x hx => (k.word x hx).trans (h.word x hx)⟩

theorem time (c : Chip) (t : TimeState) : c.Passed { c with time := t } := ⟨rfl, fun _ _ => rfl⟩

theorem wr (c : Chip) (off : Nat) (v : Word) (h : regAddr 0x0D0 off ∈ timeRegs) : c.Passed (c.wr 0x0D0 off v) :=
  ⟨rfl, fun _ ha => c.wordAt_wr_ne v fun e => ha (e ▸ h)⟩

theorem stepTb (c : Chip) (v : DWord) : c.Passed (c.stepTb v) := by
  refine .trans (.time c _) (.trans (.wr _ 0x054 _ (by decide)) (.trans (.wr _ 0x0A0 _ (by decide)) (.wr _ 0x014 _ (by decide))))

theorem ticks (c : Chip) (n : Nat) : c.Passed (c.ticks n) := by
  unfold Chip.ticks
  dsimp only
  split
  · exact .time c _
  · exact .trans (.wr c 0x054 _ (by decide)) (.time _ _)

theorem advance (c : Chip) (t : Nat) : c.Passed (c.advance t) := by
  have h := Chip.Passed.time c { c.time with now := max c.time.now t }
  unfold Chip.advance
  dsimp only at h ⊢
  generalize ({ c with time := { c.time with now := max c.time.now t } } : Chip) = d at *
  refine h.trans ?_
  split
  · exact .refl _
  · split
    · exact .trans (.stepTb _ _) (.ticks _ _)
    · exact .ticks _ _

section
variable {c d : Chip} (h : c.Passed d)
include h

theorem memc : d.memc = c.memc := by rw [h.rest]
theorem cho : d.cho = c.cho := by rw [h.rest]

theorem sameMap : c.SameMap d :=
  ⟨fun a ha => h.word a fun hm => Bool.false_ne_true ((timeRegs_notMap a hm).symm.trans ha), by rw [h.cho], by rw [h.memc]⟩

end

end Chip.Passed

theorem Chip.clsWait_idle {c : Chip} (h : c.bit 0x070 0x010 8 = false) : c.clsWait = c := if_neg (by rw [h]; decide)

/-- The chip once the initialisation is over. -/
def Chip.clsWaited (c : Chip) : Chip :=
  let d := (c.advance (c.memc.clsInitAt + 65536)).setBit 0x070 0x010 8 false
  { d with memc := { d.memc with scrubRow := 0 } }

theorem Chip.clsWait_busy {c : Chip} (h : c.bit 0x070 0x010 8 = true) : c.clsWait = c.clsWaited := if_pos h

theorem Chip.clsWaited_memc (c : Chip) : c.clsWaited.memc = { c.memc with scrubRow := 0 } := by
  unfold Chip.clsWaited
  dsimp only
  rw [Chip.setBit_memc, (Chip.Passed.advance c _).memc]

theorem Chip.SameMap.scrubRow (c : Chip) (n : Nat) : c.SameMap { c with memc := { c.memc with scrubRow := n } } := .of_regs rfl rfl rfl

theorem Chip.SameMap.clsWaited (c : Chip) : c.SameMap c.clsWaited :=
  (Chip.Passed.advance c _).sameMap.trans (.trans (.wr (p := 0x070) (off := 0x010) _ _ (by decide)) (.scrubRow _ 0))

/-- What the wait for the initialisation keeps: the map, the epochs of free content, and the memory of the retired banks. -/
theorem Chip.clsWait_keeps (c : Chip) : c.SameMap c.clsWait ∧ c.clsWait.memc = { c.memc with scrubRow := c.clsWait.memc.scrubRow } := by
  cases h : c.bit 0x070 0x010 8 with
  | false => rw [Chip.clsWait_idle h]; exact ⟨.refl c, rfl⟩
  | true =>
    rw [Chip.clsWait_busy h]
    refine ⟨.clsWaited c, ?_⟩
    rw [c.clsWaited_memc]

theorem Chip.dropLocks_keeps (c : Chip) (ns : List Nat) : (c.dropLocks ns).regs = c.regs ∧ (c.dropLocks ns).memc = c.memc ∧
    (c.dropLocks ns).cho = c.cho := by
  unfold Chip.dropLocks
  refine List.foldlRecOn (motive := fun d : Chip => d.regs = c.regs ∧ d.memc = c.memc ∧ d.cho = c.cho) ns _ ⟨rfl, rfl, rfl⟩ ?_
  exact fun d hd n _ => hd

/-- The chip once an access of a source has waited. -/
def Chip.waited (c : Chip) (src pa n : Nat) : Chip := c.clsWait.dropLocks (c.clsWait.lockedBy src pa n)

theorem Chip.waited_sameMap (c : Chip) (src pa n : Nat) : c.SameMap (c.waited src pa n) := by
  obtain ⟨hr, hm, hc⟩ := c.clsWait.dropLocks_keeps (c.clsWait.lockedBy src pa n)
  exact c.clsWait_keeps.1.trans (.of_regs hr (congrArg ChoirState.copies hc) (congrArg MemCtl.failed hm))

theorem Chip.waited_memc (c : Chip) (src pa n : Nat) : (c.waited src pa n).memc = { c.memc with scrubRow := (c.waited src pa n).memc.scrubRow } := by
  obtain ⟨-, hm, -⟩ := c.clsWait.dropLocks_keeps (c.clsWait.lockedBy src pa n)
  rw [Chip.waited, hm]
  exact c.clsWait_keeps.2

theorem waitAccess_cls (src : Nat) {pa : Nat} (h : target pa = .cls) (n : Nat) (w : Work) :
    waitAccess src pa n w = ((), w.onChip fun c => c.waited src pa n) := WM.if_pos h rfl

/-! One granule. -/

theorem granChunks_one {g pa : Nat} (f : Nat) (h : pa % g + n ≤ g) (hn : 0 < n) :
    granChunks g (f + 1) pa n = [(pa / g * g, pa % g, n)] := by
  have hm : min n (g - pa % g) = n := Nat.min_eq_left (Nat.le_sub_of_add_le' h)
  have hnil : ∀ f pa, granChunks g f pa 0 = [] := by
    intro f pa
    cases f <;> rfl
  refine (if_neg hn.ne').trans ?_
  dsimp only
  rw [hm, Nat.sub_self, hnil]

theorem granChunks_granule {pa : Nat} (h : pa % 8 = 0) : granChunks 8 8 pa 8 = [(pa, 0, 8)] := by
  rw [granChunks_one 7 (by rw [h]) (by decide), h, Nat.div_mul_cancel (Nat.dvd_of_mod_eq_zero h)]

theorem bursts_granule {va : Nat} (h : va % 8 = 0) : bursts va 8 = [(va, 8)] := by
  have hlt : va % 4096 + 8 ≤ 4096 := add_le_of_dvd
    (Nat.dvd_of_mod_eq_zero ((Nat.mod_mod_of_dvd va (by decide)).trans h)) (by decide) (Nat.mod_lt va (by decide))
  rw [bursts, granChunks_one 7 hlt (by decide), List.map_cons, List.map_nil]
  exact congrArg (fun x => [(x, 8)]) (Nat.div_add_mod' va 4096)

/-! What the work in hand reads at Cloister, whose chip has only waited. -/

section
variable (w : Work) (src n : Nat) {pa : Nat} (h : target pa = .cls)

theorem Work.markOf_waited (q : Nat) : (w.onChip fun c => c.waited src q n).markOf pa = w.markOf pa :=
  Work.markOf_congr (w := w) (v := w.onChip fun c => c.waited src q n) (w.chip.waited_sameMap src q n) rfl (fun _ _ _ => rfl)
    (fun _ => by show (w.chip.waited src q n).memc.lpEpoch = _; rw [Chip.waited_memc]) (by show (w.chip.waited src q n).memc.rawEpoch = _; rw [Chip.waited_memc])

theorem Work.byteAt_waited (q : Nat) : (w.onChip fun c => c.waited src q n).byteAt pa = w.byteAt pa :=
  Work.byteAt_congr (w := w) (v := w.onChip fun c => c.waited src q n) (w.chip.waited_sameMap src q n) rfl
    (fun _ => by show (w.chip.waited src q n).memc.lpEpoch = _; rw [Chip.waited_memc]) (by show (w.chip.waited src q n).memc.rawEpoch = _; rw [Chip.waited_memc])

theorem Work.bytesAt_waited (q k : Nat) : (w.onChip fun c => c.waited src q n).bytesAt pa k = w.bytesAt pa k := by
  simp only [Work.bytesAt, Work.byteAt_waited]

end

/-! A granule read and stored by a source. -/

section
variable (src : Nat) {pa : Nat} (h : target pa = .cls) (h8 : pa % 8 = 0) (w : Work)

theorem target_host_ne {pa : Nat} (h : target pa = .cls) : target pa ≠ .host := by rw [h]; decide

include h h8

theorem readPhys_granule {x : Option (List Byte) × Work} (hr : readGranule src pa 8 (w.onChip fun c => c.waited src pa 8) = x) :
    readPhys src pa 8 w = (match x.1 with | some bs => (bs.take 8).map some | none => List.replicate 8 none, x.2) := by
  refine WM.if_neg (target_host_ne h) (WM.bind_of_eq (waitAccess_cls src h 8 w) (WM.bind_of_eq (getChip_apply _) ?_))
  rw [Chip.granSize_cls _ h]
  dsimp only
  rw [granChunks_granule h8]
  simp only [List.mapM_cons, List.mapM_nil, WM.bind_apply, WM.pure_apply, hr]
  obtain ⟨_ | bs, v⟩ := x <;> simp

theorem readPhys_clean (hm : w.markOf pa = none) :
    readPhys src pa 8 w = ((w.bytesAt pa 8).map some, w.onChip fun c => c.waited src pa 8) := by
  refine (readPhys_granule src h h8 w (x := (some (w.bytesAt pa 8), w.onChip fun c => c.waited src pa 8)) ?_).trans ?_
  · refine WM.bind_of_eq (WM.get_apply _) ?_
    rw [Work.markOf_waited, hm, Work.bytesAt_waited]
    rfl
  · exact congrArg (fun l : List Byte => (l.map some, w.onChip fun c => c.waited src pa 8)) (List.take_of_length_le (by simp [Work.bytesAt]))

theorem readPhys_poison (hm : w.markOf pa = some .poison) :
    readPhys src pa 8 w = (List.replicate 8 none, w.onChip fun c => (c.waited src pa 8).notePoison pa) := by
  refine readPhys_granule src h h8 w (x := (none, w.onChip fun c => (c.waited src pa 8).notePoison pa)) ?_
  refine WM.bind_of_eq (WM.get_apply _) ?_
  rw [Work.markOf_waited, hm]
  rfl

omit h8 in
theorem writeGranule_whole {bytes : List Byte} (hl : bytes.length = 8) : writeGranule src pa 8 0 (bytes.map some) w =
    ((), (w.put (granuleOps (w.chip.clsCell pa) bytes none)).onChip fun c => c.dropWb (w.chip.clsCell pa)) := by
  have hany : (bytes.map some).any Option.isNone = false := by simp
  have hget : (bytes.map some).map (fun b => b.getD 0) = bytes := by simp
  refine WM.bind_of_eq (WM.get_apply w) (WM.if_pos (by simp [hl]) ?_)
  rw [hget, hany, if_neg (by simp), ← w.chip.cellOf_cls h]
  exact storeGranule_apply pa bytes none (by rw [w.chip.granSize_cls h]; decide)

theorem writePhys_granule {bytes : List Byte} (hl : bytes.length = 8) : writePhys src pa (bytes.map some) w =
    (true, (w.put (granuleOps (w.chip.clsCell pa) bytes none)).onChip fun c => (c.waited src pa 8).dropWb (w.chip.clsCell pa)) := by
  have hcell : (w.chip.waited src pa 8).clsCell pa = w.chip.clsCell pa := (w.chip.waited_sameMap src pa 8).clsCell h
  have hlen : (bytes.map some).length = 8 := by rw [List.length_map, hl]
  have hdrop : ((bytes.map some).drop (pa + 0 - pa)).take 8 = bytes.map some := by
    rw [Nat.add_zero, Nat.sub_self, List.drop_zero, List.take_of_length_le (by rw [hlen])]
  refine WM.bind_of_eq (waitAccess_cls src h _ w) (WM.bind_of_eq (getChip_apply _) ?_)
  rw [h, Chip.granSize_cls _ h, hlen]
  refine WM.if_neg (by simp) ?_
  rw [granChunks_granule h8, List.forIn_cons]
  dsimp only
  rw [hdrop]
  refine WM.bind_of_eq (a := PUnit.unit) (WM.bind_of_eq (a := ForInStep.yield PUnit.unit)
    (WM.bind_of_eq (writeGranule_whole src h _ hl) rfl) rfl) ?_
  show (true, _) = (true, _)
  rw [← hcell]
  rfl

end

/-! The account of the ranges written. -/

/-- The chip with another list of slots that hold undefined commands. -/
def Chip.withTorn (c : Chip) (l : List (Nat × Word)) : Chip := { c with queues := { c.queues with torn := l } }

/-- The account of the writes changes the list of those slots alone. -/
theorem noteWrites_apply (w : Work) : ∃ l, noteWrites w = (w.wrote, { w.onChip (Chip.withTorn · l) with wrote := [] }) := by
  have loop : ∀ (qs : List Nat) (v : Work), ∃ l, (forIn qs PUnit.unit fun q _ => do
      let torn ← tornSlots q w.wrote
      chipM fun c => { c with queues := { c.queues with torn := c.queues.torn ++ torn } }
      pure (ForInStep.yield PUnit.unit) : WM PUnit) v = (PUnit.unit, v.onChip (Chip.withTorn · l)) := by
    intro qs
    induction qs with
    | nil => exact fun v => ⟨v.chip.queues.torn, by simp; rfl⟩
    | cons q qs ih =>
      intro v
      obtain ⟨l, hl⟩ := ih (v.onChip fun c => c.withTorn (c.queues.torn ++ (tornSlots q w.wrote v).1))
      refine ⟨l, ?_⟩
      rw [List.forIn_cons]
      exact WM.bind_of_eq (a := ForInStep.yield PUnit.unit) rfl hl
  obtain ⟨l, hl⟩ := loop w.chip.pendingRings w
  by_cases h : w.wrote ≠ []
  · exact ⟨l, WM.bind_of_eq (WM.get_apply w) (WM.if_pos h (WM.bind_of_eq hl rfl))⟩
  · exact ⟨w.chip.queues.torn, WM.bind_of_eq (WM.get_apply w) (WM.if_neg h rfl)⟩

end Sys2Proof.Machine
end

section
/-! Accesses of the Sacristan and Precentor cores (R85, R87, R91, R105, R109). -/

namespace Sys2Proof.Machine

/-! Numbers and their little-endian bytes (R11). -/

theorem leNat_cons (b : Byte) {bs : List (Option Byte)} {n : Nat} (h : leNat bs = some n) : leNat (some b :: bs) = some (b.toNat + 256 * n) := by
  unfold leNat
  rw [h]

theorem leNat_map_some (f : Nat → Byte) (n : Nat) :
    leNat (((List.range n).map f).map some) = some ((List.range n).map fun i => (f i).toNat * 256 ^ i).sum := by
  induction n generalizing f with
  | zero => rfl
  | succ n ih =>
    have hsum : ((List.range n).map fun i => (f (i + 1)).toNat * 256 ^ (i + 1)).sum =
        256 * ((List.range n).map fun i => (f (i + 1)).toNat * 256 ^ i).sum := by
      rw [← List.sum_map_mul_left]
      exact congrArg List.sum (List.map_congr_left fun i _ => by rw [pow_succ, ← mul_assoc, mul_comm])
    have hsucc : ∀ {α : Type} (g : Nat → α), ((List.range n).map Nat.succ).map g = (List.range n).map fun i => g (i + 1) :=
      fun g => List.map_map
    rw [List.range_succ_eq_map, List.map_cons, List.map_cons, List.map_cons, hsucc, hsucc, List.sum_cons, pow_zero, mul_one]
    exact (leNat_cons _ (ih fun i => f (i + 1))).trans (congrArg (fun x => some ((f 0).toNat + x)) hsum.symm)

theorem leNat_bytesAt (w : Work) (pa n : Nat) :
    leNat ((w.bytesAt pa n).map some) = some ((List.range n).map fun i => (w.byteAt (pa + i)).toNat * 256 ^ i).sum :=
  leNat_map_some _ n

theorem leBytes_length (n v : Nat) : (leBytes n v).length = n := by simp [leBytes]

theorem leBytes_getD {n i : Nat} (v : Nat) (h : i < n) : (leBytes n v).getD i 0 = BitVec.ofNat 8 (v / 256 ^ i) := by
  simp [leBytes, List.getD_eq_getElem?_getD, h]

/-! What the checks of an access make of it. -/

section
variable {core : CoreId} {kind : AccKind} {pa : Nat} {size : AccSize} {v : DWord} {w : Work}

theorem coreAccess_denied (h : w.chip.pmpAllows core (kind == .store) pa size.bytes = false) :
    coreAccess core kind pa size v w = ((), w.onChip fun c => c.reply (coreKey core) .accessFault) :=
  WM.bind_of_eq (getChip_apply w) (WM.if_pos (by rw [h]; decide) rfl)

variable (hp : w.chip.pmpAllows core (kind == .store) pa size.bytes = true)
include hp

theorem coreAccess_refused (h : w.chip.coreAllowed (kind == .store) pa size.bytes = false) :
    coreAccess core kind pa size v w = ((), w.onChip fun c => c.coreFault core pa) :=
  WM.bind_of_eq (getChip_apply w) (WM.if_neg (by rw [hp]; decide) (WM.if_pos (by rw [h]; decide) rfl))

end

/-! Cloister. -/

theorem coreAllowed_cls {c : Chip} {pa : Nat} (store : Bool) (hc : target pa = .cls) (h8 : pa % 8 = 0) (he : c.enabled 0x070 = true)
    (hcap : (pa - clsBase) / 16384 < c.clsCap) : c.coreAllowed store pa 8 = true := by
  have h7 : target (pa + 7) = .cls := target_cls_mono hc h8 (by decide)
  have hrow : (pa + 7 - clsBase) / 16384 < c.clsCap := by
    obtain ⟨a, rfl, -⟩ := exists_off_of_cls hc
    have ha : a % 8 = 0 := (Nat.mul_add_mod 8 0x2000000 a).symm.trans h8
    rw [Nat.add_sub_cancel_left] at hcap
    rw [Nat.add_assoc, Nat.add_sub_cancel_left]
    have hlt := add_le_of_dvd (Nat.dvd_of_mod_eq_zero ha) (Dvd.dvd.mul_left (by decide) _) (Nat.lt_mul_of_div_lt (c := 16384) hcap (by decide))
    exact Nat.div_lt_of_lt_mul (Nat.mul_comm .. ▸ hlt)
  rw [Chip.coreAllowed, hc, show pa + 8 - 1 = pa + 7 from rfl, h7, he, decide_eq_true hrow]
  rfl

/-- Work once a source has stored a granule of Cloister and the account of it is made. -/
def Work.storedBy (w : Work) (src a : Nat) (bytes : List Byte) (l : List (Nat × Word)) : Work :=
  { (w.put (granuleOps (w.chip.clsCell a) bytes none)).onChip fun c => ((c.waited src a 8).dropWb (w.chip.clsCell a)).withTorn l with
    wrote := [] }

theorem busStore_granule {pa : Nat} (hc : target pa = .cls) (h8 : pa % 8 = 0) {bytes : List Byte} (hl : bytes.length = 8) (w : Work) :
    ∃ l, busStore pa bytes w = ((), w.storedBy 0xFF pa bytes l) := by
  obtain ⟨l, h⟩ := noteWrites_apply
    { (w.put (granuleOps (w.chip.clsCell pa) bytes none)).onChip fun c => (c.waited 0xFF pa 8).dropWb (w.chip.clsCell pa) with
      wrote := [(pa, bytes.length)] }
  exact ⟨l, WM.bind_of_eq (writePhys_granule 0xFF hc h8 w hl) (WM.bind_of_eq (WM.modify_apply _ _) (WM.bind_of_eq h rfl))⟩

section
variable {core : CoreId} {pa : Nat} {v : DWord} {w : Work} (hc : target pa = .cls) (h8 : pa % 8 = 0)
  (he : w.chip.enabled 0x070 = true) (hcap : (pa - clsBase) / 16384 < w.chip.clsCap)
include hc h8 he hcap

theorem coreAccess_storeCls (hp : w.chip.pmpAllows core true pa 8 = true) : ∃ l, coreAccess core .store pa .b8 v w =
    ((), (w.storedBy 0xFF pa (leBytes 8 v.toNat) l).onChip fun c => c.reply (coreKey core) .none) := by
  obtain ⟨l, h⟩ := busStore_granule hc h8 (leBytes_length 8 v.toNat) w
  refine ⟨l, WM.bind_of_eq (getChip_apply w) (WM.if_neg (by simp [hp, AccSize.bytes])
    (WM.if_neg (by simp [coreAllowed_cls _ hc h8 he hcap, AccSize.bytes]) ?_))⟩
  rw [hc]
  exact WM.if_pos rfl (WM.bind_of_eq h rfl)

theorem coreAccess_loadCls (hp : w.chip.pmpAllows core false pa 8 = true) {bs : List (Option Byte)} {u : Work} {r : Reply}
    (hr : readPhys 0xFF pa 8 w = (bs, u)) (hx : (match leNat bs with | some x => Reply.data (BitVec.ofNat 64 x) | none => .accessFault) = r) :
    coreAccess core .load pa .b8 v w = ((), u.onChip fun c => c.reply (coreKey core) r) := by
  have hp' : w.chip.pmpAllows core (AccKind.load == .store) pa AccSize.b8.bytes = true := hp
  refine WM.bind_of_eq (getChip_apply w) (WM.if_neg (by rw [hp']; decide)
    (WM.if_neg (by simp [coreAllowed_cls _ hc h8 he hcap, AccSize.bytes]) ?_))
  rw [hc]
  refine WM.if_neg (by decide) (WM.bind_of_eq hr ((chipM_apply _ u).trans ?_))
  exact congrArg (fun x : Reply => ((), u.onChip fun c => c.reply (coreKey core) x)) hx

end

/-! The memory of the Sacristan. -/

theorem target_sacMem {a : Nat} (hlo : 0x41000000 ≤ a) (hhi : a < mbWindow) : target a = .sacMem :=
  (if_neg (not_regs_of_le hlo rfl)).trans ((if_neg (not_lt_of_literal_le hlo rfl)).trans ((if_neg (not_lt_of_literal_le hlo rfl)).trans
    ((if_neg (not_lt_of_literal_le hlo rfl)).trans (if_pos ⟨hlo, Nat.lt_trans hhi (by decide)⟩))))

theorem coreStore_bytes {pa : Nat} {bytes : List Byte} (h : pa + bytes.length ≤ mbWindow) (w : Work) :
    coreStore pa bytes w = ((), w.put (byteOps pa bytes)) := by
  have loop : ∀ (l : List (Byte × Nat)) (v : Work), (∀ x ∈ l, x.2 < bytes.length) → (forIn l PUnit.unit fun x _ => do
      let a := pa + x.2
      if mbWindow ≤ a ∧ a < mbWindow + 0x80 then
        chipM fun c => c.setFld 0x008 (0x040 + (a - mbWindow) / 4 * 4) (8 * (a % 4)) 8 x.1.toNat
      else emit (.byte a x.1)
      pure (ForInStep.yield PUnit.unit) : WM PUnit) v = (PUnit.unit, v.put (l.map fun x => .byte (pa + x.2) x.1)) := by
    intro l
    induction l with
    | nil => exact fun v _ => rfl
    | cons x l ih =>
      intro v hx
      have hlt := hx x List.mem_cons_self
      rw [List.forIn_cons]
      have hi := ih (v.put [.byte (pa + x.2) x.1]) fun y hy => hx y (List.mem_cons_of_mem _ hy)
      rw [Work.put_put] at hi
      exact WM.bind_of_eq (a := ForInStep.yield PUnit.unit) (v := v.put [.byte (pa + x.2) x.1]) (WM.if_neg (fun hn => Nat.not_lt_of_le hn.1 ((Nat.add_lt_add_left hlt pa).trans_le h)) rfl) hi
  have hmem : ∀ x ∈ bytes.zipIdx, x.2 < bytes.length := fun x hx => (Nat.zero_add bytes.length) ▸ (List.mem_zipIdx hx).2.1
  exact WM.bind_of_eq (loop bytes.zipIdx w hmem) (WM.if_neg (fun hn => absurd (hn.1 ▸ (Nat.le_add_right pa _).trans h) (by decide)) rfl)

section
variable {core : CoreId} {pa : Nat} {v : DWord} {w : Work} (hlo : 0x41000000 ≤ pa) (hhi : pa + 4 ≤ mbWindow)
include hlo hhi

theorem target_window : target pa = .sacMem :=
  target_sacMem hlo (Nat.lt_of_succ_le ((Nat.add_le_add_left (by decide : 1 ≤ 4) pa).trans hhi))

theorem coreAllowed_sacMem (c : Chip) (store : Bool) : c.coreAllowed store pa 4 = true := by
  have h0 := target_window hlo hhi
  have h3 : target (pa + 3) = .sacMem := target_sacMem (hlo.trans (Nat.le_add_right pa 3)) hhi
  rw [Chip.coreAllowed, h0, show pa + 4 - 1 = pa + 3 from rfl, h3]
  rfl

theorem coreAccess_storeSac (hp : w.chip.pmpAllows core true pa 4 = true) : coreAccess core .store pa .b4 v w =
    ((), (w.put (byteOps pa (leBytes 4 v.toNat))).onChip fun c => c.reply (coreKey core) .none) := by
  have hp' : w.chip.pmpAllows core (AccKind.store == .store) pa AccSize.b4.bytes = true := hp
  have ha : w.chip.coreAllowed (AccKind.store == .store) pa AccSize.b4.bytes = true := coreAllowed_sacMem hlo hhi _ _
  refine WM.bind_of_eq (getChip_apply w) (WM.if_neg (by rw [hp']; decide) (WM.if_neg (by rw [ha]; decide) ?_))
  rw [target_window hlo hhi]
  exact WM.if_pos rfl (WM.bind_of_eq (coreStore_bytes (by rw [leBytes_length]; exact hhi) w) rfl)

omit hlo hhi in
theorem coreAccess_loadMem {size : AccSize} {x : Nat} (ht : target pa = .sacMem)
    (hp : w.chip.pmpAllows core (AccKind.load == .store) pa size.bytes = true)
    (ha : w.chip.coreAllowed (AccKind.load == .store) pa size.bytes = true)
    (hx : leNat ((List.range size.bytes).map fun i => some (w.coreByte (pa + i))) = some x) :
    coreAccess core .load pa size v w = ((), w.onChip fun c => c.reply (coreKey core) (.data (BitVec.ofNat 64 x))) := by
  refine WM.bind_of_eq (getChip_apply w) (WM.if_neg (by rw [hp]; decide) (WM.if_neg (by rw [ha]; decide) ?_))
  rw [ht]
  refine WM.if_neg (by decide) (WM.bind_of_eq (WM.get_apply w) ?_)
  rw [hx]
  exact chipM_apply _ w

theorem coreAccess_loadSac (hp : w.chip.pmpAllows core false pa 4 = true) : coreAccess core .load pa .b4 v w = ((), w.onChip fun c =>
    c.reply (coreKey core) (.data (BitVec.ofNat 64 (((List.range 4).map fun i => (w.byteAt (pa + i)).toNat * 256 ^ i).sum)))) := by
  refine coreAccess_loadMem (target_window hlo hhi) hp (coreAllowed_sacMem hlo hhi _ _) ((congrArg leNat ?_).trans (leNat_bytesAt w pa 4))
  rw [Work.bytesAt, List.map_map]
  refine List.map_congr_left fun i hi => congrArg some (if_neg fun hn => ?_)
  exact Nat.not_le_of_lt ((Nat.add_lt_add_left (List.mem_range.mp hi) pa).trans_le hhi) hn.1

end

section
variable {s t : State} {pa : Nat} {bytes : List Byte} (hlo : 0x41000000 ≤ pa) (hhi : pa + bytes.length ≤ mbWindow)
  (hmap : s.chip.SameMap t.chip) (hmemc : t.chip.memc = s.chip.memc) (hmem : t.mem = s.mem.applyAll (byteOps pa bytes))
include hlo hhi hmem

theorem byte_storedSac {i : Nat} (hi : i < bytes.length) : t.byte (pa + i) = bytes.getD i 0 := by
  have ht : target (pa + i) = .sacMem :=
    target_sacMem (hlo.trans (Nat.le_add_right pa i)) ((Nat.add_lt_add_left hi pa).trans_le hhi)
  have hcell : t.chip.cellOf (pa + i) = pa + i := t.chip.cellOf_other (by simp [ht]) (by simp [ht])
  have hl : aget t.mem.cells (t.chip.cellOf (pa + i)) = some (bytes.getD i 0) := by
    rw [hcell, hmem, cell_applyAll_byteOps, if_pos ⟨Nat.le_add_right pa i, Nat.add_lt_add_left hi pa⟩, Nat.add_sub_cancel_left, listedByte, ht]
    exact if_neg (by simp)
  have hb : t.byte (pa + i) = (aget t.mem.cells (t.chip.cellOf (pa + i))).getD (Config.rawByte t.chip.memc.rawEpoch (t.chip.cellOf (pa + i))) := by
    simp only [State.byte, Work.byteAt, ht]
    rfl
  rw [hb, hl, Option.getD_some]

include hmap hmemc in
/-- Bytes stored in the memory of the Sacristan leave the rest of memory as it was. -/
theorem memBut_storedSac : s.memBut t fun x => pa ≤ x ∧ x < pa + bytes.length := by
  have hhost := host_applyAll_byteOps pa bytes s.mem
  have hout : ∀ x, ¬(pa ≤ x ∧ x < pa + bytes.length) → ¬(pa ≤ s.chip.cellOf x ∧ s.chip.cellOf x < pa + bytes.length) := by
    intro x hx hr
    have ht : target x = .sacMem := by rw [← s.chip.target_cellOf]; exact target_sacMem (hlo.trans hr.1) (hr.2.trans_le hhi)
    rw [s.chip.cellOf_other (by simp [ht]) (by simp [ht])] at hr
    exact hx hr
  refine ⟨fun x hx => ⟨?_, ?_⟩, by rw [hmem]; exact hhost.1, by rw [hmem]; exact hhost.2⟩
  · refine Work.byteAt_congr (w := s.work) (v := t.work) hmap ?_ (fun _ => congrArg MemCtl.lpEpoch hmemc) (congrArg MemCtl.rawEpoch hmemc)
    show aget t.mem.cells _ = aget s.mem.cells _
    rw [hmem, cell_applyAll_byteOps]
    exact if_neg (hout x hx)
  · refine Work.markOf_congr (w := s.work) (v := t.work) hmap ?_ (fun hf n hn => ?_) (fun _ => congrArg MemCtl.lpEpoch hmemc)
      (congrArg MemCtl.rawEpoch hmemc)
    · show aget t.mem.marks _ = aget s.mem.marks _
      rw [hmem, marks_applyAll_byteOps]
    · refine anyListed_congr fun y hy hy' => ?_
      show aget t.mem.cells _ = aget s.mem.cells _
      rw [hmem, cell_applyAll_byteOps]
      refine if_neg fun hr => ?_
      have hx : (target (s.chip.cellOf x)).hasFreeMarks = true := s.chip.target_cellOf x ▸ hf
      have hy : s.chip.cellOf x ≤ y := hy
      have hy' : y < s.chip.cellOf x + n := hy'
      obtain hx' | hx' := Target.free_cases hx
      · have hend : y < 0x21000020 := hy'.trans_le (Nat.add_le_add (target_stall_iff.mp hx').2.le hn)
        exact Nat.not_le_of_lt (hend.trans (by decide)) (hlo.trans hr.1)
      · exact Nat.not_le_of_lt (hr.2.trans_le hhi) (Nat.le_trans (by decide) ((target_lp5x_iff.mp hx').1.trans hy))

end

/-! What takes no store, and the register pages. -/

theorem coreAllowed_noStore (c : Chip) {pa n : Nat} (h : target pa = .rom ∨ target pa = .stall ∨ target pa = .host ∨ target pa = .hole) :
    c.coreAllowed true pa n = false := by
  rcases h with h | h | h | h <;> simp [Chip.coreAllowed, h]

theorem Chip.busRead_plain {c : Chip} (req : Requester) {a : Nat} (h4 : a % 4 = 0) (hp : pageClass (a / 0x1000) ≠ none)
    (hs : c.clockStopped (a / 0x1000) = false) (hlo : pairLo (a / 0x1000) (a % 0x1000) = none)
    (hhi : pairHi (a / 0x1000) (a % 0x1000) = none) : c.busRead req a = (c.answer (a / 0x1000) (a % 0x1000), c) := by
  have hoff : a % 0x1000 / 4 * 4 = a % 0x1000 :=
    Nat.div_mul_cancel (Nat.dvd_of_mod_eq_zero ((Nat.mod_mod_of_dvd a (by decide)).trans h4))
  unfold Chip.busRead
  dsimp only
  rw [hoff]
  exact (if_neg fun hn => hp (Option.isNone_iff_eq_none.mp hn)).trans ((if_neg (Bool.eq_false_iff.mp hs)).trans
    ((if_neg (by rw [hlo]; decide)).trans (if_neg (by rw [hhi]; decide))))

theorem Chip.busLoad_word {c : Chip} {req : Requester} {a : Nat} {v : Word} (h4 : a % 4 = 0) (h : c.busRead req a = (v, c)) :
    c.busLoad req a .b4 = (v.setWidth 64, c) := by
  have hw : BitVec.ofNat 64 ((v.toNat + 2 ^ 32 * 0) / 256 ^ 0 % 256 ^ 4) = v.setWidth 64 := BitVec.eq_of_toNat_eq <| by
    rw [BitVec.toNat_ofNat, BitVec.toNat_setWidth, Nat.mul_zero, Nat.add_zero, pow_zero, Nat.div_one, Nat.mod_eq_of_lt (show v.toNat < 256 ^ 4 from v.isLt)]
  rw [Chip.busLoad, h, h4]
  exact congrArg (·, c) hw

theorem coreAllowed_regs (c : Chip) {pa : Nat} (h : pa < 0x1000000) (h4 : pa % 4 = 0) : c.coreAllowed false pa 4 = true := by
  have h0 : target pa = .regs := if_pos h
  have h3 : target (pa + 4 - 1) = .regs := if_pos (Nat.lt_of_lt_of_le (Nat.lt_succ_self _) (add_le_of_dvd (Nat.dvd_of_mod_eq_zero h4) (by decide) h))
  rw [Chip.coreAllowed, h0, h3]
  rfl

theorem coreAccess_loadRegs {core : CoreId} {pa : Nat} {v : DWord} {w : Work} (h : pa < 0x1000000) (h4 : pa % 4 = 0)
    (hp : w.chip.pmpAllows core false pa 4 = true) {x : Word} (hr : w.chip.busRead (coreReq core) pa = (x, w.chip)) :
    coreAccess core .load pa .b4 v w = ((), w.onChip fun c => c.reply (coreKey core) (.data (x.setWidth 64))) := by
  have hp' : w.chip.pmpAllows core (AccKind.load == .store) pa AccSize.b4.bytes = true := hp
  have ha : w.chip.coreAllowed (AccKind.load == .store) pa AccSize.b4.bytes = true := coreAllowed_regs _ h h4
  refine WM.bind_of_eq (getChip_apply w) (WM.if_neg (by rw [hp']; decide) (WM.if_neg (by rw [ha]; decide) ?_))
  rw [show target pa = .regs from if_pos h]
  have hl : coreRegs core (AccKind.load == .store) pa .b4 v = chipM fun c =>
      (c.busLoad (coreReq core) pa .b4).2.reply (coreKey core) (.data (c.busLoad (coreReq core) pa .b4).1) := rfl
  refine (congrFun hl w).trans ((chipM_apply _ w).trans ?_)
  rw [Chip.busLoad_word h4 hr]
  rfl

theorem Chip.notePoison_cls (c : Chip) {pa : Nat} (h : target pa = .cls) : c.notePoison pa = (c.count 0x071 0x04C).raise 0x071 2 := by
  simp only [Chip.notePoison, h]

/-! The statement. -/

theorem exec_coreAccess (core : CoreId) (kind : AccKind) (pa : BitVec 48) (size : AccSize) (v : DWord) (s : State) :
    exec (.coreAccess core kind pa size v) s = s.onMem (coreAccess core kind pa.toNat size v) := rfl

theorem stored_storedBy {s : State} {src a : Nat} {bytes : List Byte} (hc : target a = .cls) (h8 : a % 8 = 0) (hl : bytes.length = 8)
    (l : List (Nat × Word)) (f : Chip → Chip) (hf : ∀ c, (f c).regs = c.regs ∧ (f c).cho = c.cho ∧ (f c).memc = c.memc) :
    s.Stored (s.leave ((s.work.storedBy src a bytes l).onChip f)) a bytes none := by
  have hm : ∀ c : Chip, c.SameMap (f c) ∧ (f c).memc = c.memc := fun c =>
    ⟨.of_regs (hf c).1 (congrArg ChoirState.copies (hf c).2.1) (congrArg MemCtl.failed (hf c).2.2), (hf c).2.2⟩
  have hw := s.chip.waited_memc src a 8
  have hd : (s.chip.waited src a 8).SameMap (((s.chip.waited src a 8).dropWb (s.chip.clsCell a)).withTorn l) := .of_regs rfl rfl rfl
  refine State.stored_leave hc h8 hl ((s.chip.waited_sameMap src a 8).trans (hd.trans (hm _).1)) ?_ ?_ (List.append_nil _)
  · refine (congrArg MemCtl.lpEpoch (hm _).2).trans ?_
    show (s.chip.waited src a 8).memc.lpEpoch = _
    rw [hw]
  · refine (congrArg MemCtl.rawEpoch (hm _).2).trans ?_
    show (s.chip.waited src a 8).memc.rawEpoch = _
    rw [hw]

theorem leave_put_keeps (s : State) (l : List MemOp) (f : Chip → Chip)
    (hf : ∀ c, (f c).regs = c.regs ∧ (f c).cho = c.cho ∧ (f c).memc = c.memc) :
    let t := s.leave ((s.work.put l).onChip f)
    s.chip.SameMap t.chip ∧ t.chip.memc = s.chip.memc ∧ t.mem = s.mem.applyAll l := by
  obtain ⟨hr, hc, hm⟩ := hf s.chip
  refine ⟨.trans (.of_regs hr (congrArg ChoirState.copies hc) (congrArg MemCtl.failed hm)) (.settle _), hm, ?_⟩
  exact congrArg s.mem.applyAll (by simp [Work.put, Work.onChip, State.work])

/-- Settles O20: an access passes the PMP and the storage's own check, and its meaning follows the target; a store to Cloister leaves
the list of slots with undefined commands open. -/
theorem coreAccesses : Obligations.CoreAccesses := by
  unfold Obligations.CoreAccesses
  intro core pa v s a waited
  refine ⟨fun kind size h => s.onMem_of_eq (coreAccess_denied (w := s.work) h), fun hc h8 he hcap => ⟨fun hp => ?storeCls, fun hp hm => ?loadClean, fun hp hm => ?loadPoison⟩,
    fun hlo hhi => ⟨fun hp => ?storeSac, fun hp => s.onMem_of_eq (coreAccess_loadSac (w := s.work) hlo hhi hp)⟩,
    fun ht hp => s.onMem_of_eq (coreAccess_refused (w := s.work) hp (coreAllowed_noStore _ ht)),
    fun hr h4 hpg hs hlo hhi hp => s.onMem_of_eq (coreAccess_loadRegs (w := s.work) hr h4 hp (Chip.busRead_plain _ h4 hpg hs hlo hhi))⟩
  case storeCls =>
    obtain ⟨l, h⟩ := coreAccess_storeCls (v := v) (w := s.work) hc h8 he hcap hp
    have hst := stored_storedBy (s := s) (src := 0xFF) hc h8 (leBytes_length 8 v.toNat) l
      (fun c => c.reply (coreKey core) .none) fun c => ⟨rfl, rfl, rfl⟩
    refine ⟨_, (exec_coreAccess ..).trans (s.onMem_leave h), s.leave_pending _, s.leave_fuses _, fun i => ?_, hst.mark_at,
      hst.memBut_range, rfl⟩
    exact (hst.byte_at i.isLt).trans (leBytes_getD _ i.isLt)
  case loadClean =>
    have hx := leNat_bytesAt s.work a 8
    have hd : (match leNat ((s.work.bytesAt a 8).map some) with | some x => Reply.data (BitVec.ofNat 64 x) | none => .accessFault) =
        .data (BitVec.ofNat 64 ((List.range 8).map fun i => (s.byte (a + i)).toNat * 256 ^ i).sum) := by rw [hx]; rfl
    exact s.onMem_of_eq (coreAccess_loadCls (v := v) (w := s.work) hc h8 he hcap hp (readPhys_clean 0xFF hc h8 s.work hm) hd)
  case loadPoison =>
    have h := coreAccess_loadCls (v := v) (w := s.work) (r := .accessFault) hc h8 he hcap hp (readPhys_poison 0xFF hc h8 s.work hm) rfl
    refine (s.onMem_of_eq (f := fun c => ((c.waited 0xFF a 8).notePoison a).reply (coreKey core) .accessFault) h).trans
      (congrArg _ (s.onChip_congr _ _ ?_))
    exact congrArg (fun d : Chip => d.reply (coreKey core) .accessFault) (Chip.notePoison_cls _ hc)
  case storeSac =>
    have h := coreAccess_storeSac (v := v) (w := s.work) hlo hhi hp
    have hl := leBytes_length 4 v.toNat
    obtain ⟨hmap, hmemc, hmem⟩ := leave_put_keeps s (byteOps a (leBytes 4 v.toNat)) (fun c => c.reply (coreKey core) .none)
      fun c => ⟨rfl, rfl, rfl⟩
    have hout := memBut_storedSac hlo (by rw [hl]; exact hhi) hmap hmemc hmem
    rw [hl] at hout
    refine ⟨_, (exec_coreAccess ..).trans (s.onMem_leave h), s.leave_pending _, s.leave_fuses _, fun i => ?_, hout, rfl⟩
    exact (byte_storedSac hlo (by rw [hl]; exact hhi) hmem (by rw [hl]; exact i.isLt)).trans (leBytes_getD _ i.isLt)

end Sys2Proof.Machine
end

section
/-! Accesses through the Rood: one burst read or written (R100, R111), the computations that write nothing through it, and the host's
accesses through BAR2 (R86, R97, R100, R109, R111). -/

namespace Sys2Proof.Machine

/-! Computations that write nothing through the Rood: translations, and the accesses of the walker and of the windows' copies. -/

def WritesNone {α : Type} (m : WM α) : Prop := ∀ w, (m w).2.wrote = w.wrote

namespace WritesNone

theorem pure {α : Type} (a : α) : WritesNone (pure a) := fun _ => rfl

theorem bind {α β : Type} {m : WM α} {k : α → WM β} (hm : WritesNone m) (hk : ∀ a, WritesNone (k a)) : WritesNone (m >>= k) :=
  fun w => (hk (m w).1 (m w).2).trans (hm w)

theorem get : WritesNone get := fun _ => rfl
theorem getChip : WritesNone getChip := fun _ => rfl
theorem emit (op : MemOp) : WritesNone (emit op) := fun _ => rfl
theorem drawM : WritesNone drawM := fun _ => rfl
theorem chipM (f : Chip → Chip) : WritesNone (chipM f) := fun _ => rfl

theorem ite {α : Type} {p : Prop} [Decidable p] {a b : WM α} (ha : WritesNone a) (hb : WritesNone b) : WritesNone (if p then a else b) := by
  split
  · exact ha
  · exact hb

theorem mapM {α β : Type} {f : α → WM β} (h : ∀ a, WritesNone (f a)) : ∀ l : List α, WritesNone (l.mapM f)
  | [] => by simpa using pure _
  | a :: l => by
    rw [List.mapM_cons]
    exact bind (h a) fun _ => bind (mapM h l) fun _ => pure _

theorem loop {α β : Type} {f : α → β → WM (ForInStep β)} (h : ∀ a b, WritesNone (f a b)) :
    ∀ (l : List α) (b : β), WritesNone (forIn l b f)
  | [], b => by simpa using pure _
  | a :: l, b => by
    rw [List.forIn_cons]
    refine bind (h a b) fun x => ?_
    cases x with
    | done b => exact pure b
    | yield b => exact loop h l b

theorem readGranule (src pa n : Nat) : WritesNone (readGranule src pa n) := by
  refine .bind .get fun w => ?_
  split
  · exact .pure _
  · exact .bind (.chipM _) fun _ => .bind (.emit _) fun _ => .pure _
  · exact .bind (.chipM _) fun _ => .bind (.emit _) fun _ => .pure _
  · exact .bind (.chipM _) fun _ => .pure _

theorem storeGranule (pa : Nat) (bytes : List Byte) (m : Option Mark) : WritesNone (storeGranule pa bytes m) := by
  refine .bind .getChip fun c => .bind (.loop (fun _ _ => .bind (.emit _) fun _ => .pure _) _ _) fun _ => .ite ?_ (.pure _)
  exact .bind (.emit _) fun _ => .chipM _

theorem hostRead (pa n : Nat) : WritesNone (hostRead pa n) := by
  refine .bind .get fun w => .ite (.bind (.chipM _) fun _ => .pure _) (.ite (.bind (.chipM _) fun _ => .pure _) ?_)
  split
  · exact .bind (.chipM _) fun _ => .pure _
  · exact .pure _

theorem waitAccess (src pa n : Nat) : WritesNone (waitAccess src pa n) :=
  .ite (.bind (.chipM _) fun _ => .chipM _) (.pure _)

theorem readPhys (src pa n : Nat) : WritesNone (readPhys src pa n) := by
  refine .ite (.bind (hostRead pa n) fun _ => .pure _) ?_
  refine .bind (waitAccess src pa n) fun _ => .bind .getChip fun c => .bind (.mapM (fun a => ?_) _) fun _ => .pure _
  refine .bind (readGranule _ _ _) fun x => ?_
  cases x <;> exact .pure _

theorem copyDone : WritesNone copyDone := by
  refine .bind .getChip fun c => ?_
  split
  · exact .pure _
  · refine .bind (.bind (.loop (fun g _ => .bind .get fun w => .ite (.bind (readGranule _ _ _) fun x => ?_) (.pure _)) _ _) fun _ => .pure _)
      fun _ => .chipM _
    cases x with
    | some bs => exact .bind (storeGranule _ _ _) fun _ => .pure _
    | none => exact .bind (.chipM _) fun _ => .pure _

theorem copiesTo (i : Nat) : ∀ n, WritesNone (copiesTo n i)
  | 0 => .pure _
  | n + 1 => .bind .getChip fun _ => .ite (.bind copyDone fun _ => copiesTo i n) (.pure _)

theorem readEntry (table idx : Nat) : WritesNone (readEntry table idx) := by
  refine .bind .getChip fun c => .ite (.pure _) (.ite (.pure _) (.bind (readPhys _ _ _) fun bs => ?_))
  cases leNat bs <;> exact .pure _

theorem walk (ctx va : Nat) : WritesNone (walk ctx va) := by
  refine .bind .getChip fun c => .bind (readEntry _ _) fun x => ?_
  cases x with
  | error e => exact .pure _
  | ok e1 =>
    refine .ite (.pure _) (.bind (readEntry _ _) fun x => ?_)
    cases x with
    | error e => exact .pure _
    | ok e2 =>
      refine .ite (.pure _) (.ite (.pure _) (.bind (readEntry _ _) fun x => ?_))
      cases x with
      | error e => exact .pure _
      | ok e3 => exact .ite (.pure _) (.pure _)

theorem lookup (ctx va : Nat) : WritesNone (lookup ctx va) := by
  refine .bind .get fun w => ?_
  cases w.chip.cachedLeaf ctx va with
  | none =>
    refine .bind (walk ctx va) fun r => ?_
    cases r with
    | ok l => exact .bind (.chipM _) fun _ => .pure _
    | error e => exact .pure _
  | some l => exact .ite (.pure _) (.bind .drawM fun _ => .ite (.pure _) (walk ctx va))

theorem translate (ctx : Nat) (k : AccType) (va : Nat) : WritesNone (translate ctx k va) := by
  refine .bind .getChip fun c => .ite (.pure _) (.ite (.pure _) (.bind (lookup ctx va) fun x => ?_))
  cases x with
  | error e => exact .pure _
  | ok l =>
    refine .ite (.pure _) (.bind (.ite (.bind .getChip fun _ => copiesTo _ _) (.pure _)) fun _ => .bind .getChip fun _ => ?_)
    exact .ite (.pure _) (.pure _)

end WritesNone

/-! One burst. -/

theorem EM.bind_of_error {α β : Type} {m : EM α} {k : α → EM β} {w v : Work} {e : Nat} (hm : m.run w = (.error e, v)) :
    (m >>= k).run w = (.error e, v) := by
  rw [ExceptT.run_bind]
  exact WM.bind_of_eq hm rfl

section
variable {ctx src va pa e n : Nat} {k : AccType} {w u : Work}

theorem burstPa_ok (h : translate ctx k va w = (.ok pa, u)) : burstPa ctx src k va w = (some pa, u) := WM.bind_of_eq h rfl

theorem burstPa_fault (h : translate ctx k va w = (.error e, u)) :
    burstPa ctx src k va w = (none, u.onChip fun c => c.roodFault ctx k va e src) := WM.bind_of_eq h rfl

theorem readVaAs_ok (code : Nat) (hb : bursts va n = [(va, n)]) (ht : translate ctx k va w = (.ok pa, u)) {bs : List (Option Byte)} {v : Work}
    (hr : readPhys src pa n u = (bs, v)) : (readVaAs code ctx src k va n).run w = (.ok bs, v) := by
  unfold readVaAs
  rw [hb, List.mapM_cons, List.mapM_nil]
  refine EM.bind_of_ok (a := [bs]) (EM.bind_of_ok (EM.bind_of_ok (EM.liftM_apply (burstPa_ok ht)) (EM.liftM_apply hr)) rfl) ?_
  simp

theorem readVaAs_fault (code : Nat) (hb : bursts va n = [(va, n)]) (ht : translate ctx k va w = (.error e, u)) :
    (readVaAs code ctx src k va n).run w = (.error code, u.onChip fun c => c.roodFault ctx k va e src) := by
  unfold readVaAs
  rw [hb, List.mapM_cons]
  exact EM.bind_of_error (EM.bind_of_error (EM.bind_of_ok (EM.liftM_apply (burstPa_fault ht)) rfl))

theorem writeVa_ok {bytes : List (Option Byte)} (hb : bursts va bytes.length = [(va, bytes.length)]) (ht : translate ctx 1 va w = (.ok pa, u))
    {v : Work} (hr : writePhys src pa bytes u = (true, v)) :
    (writeVa ctx src va bytes).run w = (.ok (), { v with wrote := (pa, bytes.length) :: v.wrote }) := by
  unfold writeVa
  rw [hb, List.forIn_cons]
  have hbytes : (bytes.drop (va - va)).take bytes.length = bytes := by simp
  refine EM.bind_of_ok (a := PUnit.unit) (EM.bind_of_ok (a := ForInStep.yield PUnit.unit)
    (EM.bind_of_ok (EM.liftM_apply (burstPa_ok ht)) (EM.bind_of_ok (a := true) (v := v) (EM.liftM_apply (by rw [hbytes]; exact hr)) rfl)) rfl) rfl

theorem writeVa_fault {bytes : List (Option Byte)} (hb : bursts va bytes.length = [(va, bytes.length)])
    (ht : translate ctx 1 va w = (.error e, u)) :
    (writeVa ctx src va bytes).run w = (.error 0x24, u.onChip fun c => c.roodFault ctx 1 va e src) := by
  unfold writeVa
  rw [hb, List.forIn_cons]
  exact EM.bind_of_error (EM.bind_of_error (EM.bind_of_ok (EM.liftM_apply (burstPa_fault ht)) rfl))

end

/-! BAR2. -/

theorem State.leave_onChip_chip (s : State) (w : Work) (f : Chip → Chip) : (s.leave (w.onChip f)).chip = (f w.chip).settle := rfl

theorem bar2Read_ok {off n : Nat} {w v : Work} {bs : List (Option Byte)} {r : Reply}
    (h : (readVa (w.chip.fld 0x072 0x300 0 4) 0x50 (clsBase + off) n).run w = (.ok bs, v))
    (hr : (match leNat bs with | some v => .data (BitVec.ofNat 64 v) | none => .poison) = r) : bar2Read off n w = (r, v) :=
  WM.bind_of_eq (getChip_apply w) (WM.bind_of_eq h (congrArg (·, v) hr))

theorem bar2Read_fault {off n e : Nat} {w v : Work}
    (h : (readVa (w.chip.fld 0x072 0x300 0 4) 0x50 (clsBase + off) n).run w = (.error e, v)) :
    bar2Read off n w = (.faulted (BitVec.ofNat 64 (256 ^ n - 1)), v) :=
  WM.bind_of_eq (getChip_apply w) (WM.bind_of_eq h rfl)

section
variable {offset : BitVec 25} {v : DWord} {s : State} (h8 : offset.toNat % 8 = 0)

theorem exec_bar2Read {r : Reply} {w : Work} (h : bar2Read offset.toNat 8 s.work = (r, w)) :
    exec (.bar2Access false offset .b8 v) s = .next (s.leave (w.onChip fun c => c.reply 8 r)) :=
  s.onMem_leave (m := do
      let ctx := (← getChip).fld 0x072 0x300 0 4
      if false then
        let _ ← (writeVa ctx 0x50 (clsBase + offset.toNat) ((leBytes AccSize.b8.bytes v.toNat).map some)).run
        let _ ← noteWrites
      else
        let r ← bar2Read offset.toNat AccSize.b8.bytes
        chipM fun c => c.reply 8 r) (WM.bind_of_eq (getChip_apply _) (WM.bind_of_eq h rfl))

theorem exec_bar2Write {r : Except Nat Unit} {w u : Work} {rs : List (Nat × Nat)}
    (h : (writeVa (s.chip.fld 0x072 0x300 0 4) 0x50 (clsBase + offset.toNat) ((leBytes 8 v.toNat).map some)).run s.work = (r, w))
    (hn : noteWrites w = (rs, u)) : exec (.bar2Access true offset .b8 v) s = .next (s.leave u) :=
  s.onMem_leave (m := do
      let ctx := (← getChip).fld 0x072 0x300 0 4
      if true then
        let _ ← (writeVa ctx 0x50 (clsBase + offset.toNat) ((leBytes AccSize.b8.bytes v.toNat).map some)).run
        let _ ← noteWrites
      else
        let r ← bar2Read offset.toNat AccSize.b8.bytes
        chipM fun c => c.reply 8 r) (WM.bind_of_eq (getChip_apply _) (WM.bind_of_eq h (WM.bind_of_eq hn rfl)))

include h8

theorem bursts_bar2 : bursts (clsBase + offset.toNat) 8 = [(clsBase + offset.toNat, 8)] :=
  bursts_granule (by unfold clsBase; lia)

theorem bar2_readFault {e : Nat} {w : Work} (ht : translate (s.chip.fld 0x072 0x300 0 4) 0 (clsBase + offset.toNat) s.work = (.error e, w)) :
    exec (.bar2Access false offset .b8 v) s = .next (s.leave (w.onChip fun c =>
      (c.roodFault (s.chip.fld 0x072 0x300 0 4) 0 (clsBase + offset.toNat) e 0x50).reply 8 (.faulted (BitVec.allOnes 64)))) :=
  exec_bar2Read (bar2Read_fault (readVaAs_fault 0x24 (bursts_bar2 h8) ht))

theorem bar2_writeFault {e : Nat} {w : Work} (ht : translate (s.chip.fld 0x072 0x300 0 4) 1 (clsBase + offset.toNat) s.work = (.error e, w)) :
    exec (.bar2Access true offset .b8 v) s = .next (s.leave (w.onChip fun c =>
      c.roodFault (s.chip.fld 0x072 0x300 0 4) 1 (clsBase + offset.toNat) e 0x50)) := by
  have hlen : ((leBytes 8 v.toNat).map some).length = 8 := by rw [List.length_map, leBytes_length]
  have hw : w.wrote = [] := by
    have := WritesNone.translate (s.chip.fld 0x072 0x300 0 4) 1 (clsBase + offset.toNat) s.work
    rw [ht] at this
    exact this
  exact exec_bar2Write (writeVa_fault (by rw [hlen]; exact bursts_bar2 h8) ht) (noteWrites_of_unwritten (w := w.onChip _) hw)

section
variable {pa : Nat} {w : Work} (hc : target pa = .cls) (ha : pa % 8 = 0)
  (ht : translate (s.chip.fld 0x072 0x300 0 4) 0 (clsBase + offset.toNat) s.work = (.ok pa, w))
include hc ha ht

theorem bar2_readClean (hm : w.markOf pa = none) : exec (.bar2Access false offset .b8 v) s = .next (s.leave (w.onChip fun c =>
    (c.waited 0x50 pa 8).reply 8 (.data (BitVec.ofNat 64 (((List.range 8).map fun i => (w.byteAt (pa + i)).toNat * 256 ^ i).sum))))) := by
  have hr : (match leNat ((w.bytesAt pa 8).map some) with | some v => Reply.data (BitVec.ofNat 64 v) | none => .poison) =
      .data (BitVec.ofNat 64 ((List.range 8).map fun i => (w.byteAt (pa + i)).toNat * 256 ^ i).sum) := by rw [leNat_bytesAt]
  exact exec_bar2Read (bar2Read_ok (readVaAs_ok 0x24 (bursts_bar2 h8) ht (readPhys_clean 0x50 hc ha w hm)) hr)

theorem bar2_readPoison (hm : w.markOf pa = some .poison) : exec (.bar2Access false offset .b8 v) s = .next (s.leave (w.onChip fun c =>
    ((c.waited 0x50 pa 8).notePoison pa).reply 8 .poison)) :=
  exec_bar2Read (bar2Read_ok (readVaAs_ok 0x24 (bursts_bar2 h8) ht (readPhys_poison 0x50 hc ha w hm)) rfl)

end

theorem bar2_write {pa : Nat} {w : Work} (hc : target pa = .cls) (ha : pa % 8 = 0)
    (ht : translate (s.chip.fld 0x072 0x300 0 4) 1 (clsBase + offset.toNat) s.work = (.ok pa, w)) :
    ∃ l, exec (.bar2Access true offset .b8 v) s = .next (s.leave (w.storedBy 0x50 pa (leBytes 8 v.toNat) l)) := by
  have hlen : ((leBytes 8 v.toNat).map some).length = 8 := by rw [List.length_map, leBytes_length]
  have hw := writeVa_ok (by rw [hlen]; exact bursts_bar2 h8) ht (writePhys_granule 0x50 hc ha w (leBytes_length 8 v.toNat))
  obtain ⟨l, hl⟩ := noteWrites_apply _
  exact ⟨l, exec_bar2Write hw hl⟩

end

/-- A granule stored in work whose registers, memory control and windows are the state's own. -/
theorem stored_translated {s : State} {w : Work} {src a : Nat} {bytes : List Byte} (hc : target a = .cls) (h8 : a % 8 = 0)
    (hl : bytes.length = 8) (hops : w.ops = []) (hmemc : w.chip.memc = s.chip.memc) (hregs : w.chip.regs = s.chip.regs)
    (hcho : w.chip.cho = s.chip.cho) (l : List (Nat × Word)) : s.Stored (s.leave (w.storedBy src a bytes l)) a bytes none := by
  have hsame : s.chip.SameMap w.chip := .of_regs hregs (congrArg ChoirState.copies hcho) (congrArg MemCtl.failed hmemc)
  have hw := w.chip.waited_memc src a 8
  have hd : (w.chip.waited src a 8).SameMap (((w.chip.waited src a 8).dropWb (w.chip.clsCell a)).withTorn l) := .of_regs rfl rfl rfl
  refine State.stored_leave hc h8 hl (hsame.trans ((w.chip.waited_sameMap src a 8).trans hd)) ?_ ?_ ?_
  · refine Eq.trans (b := (w.chip.waited src a 8).memc.lpEpoch) rfl ?_
    rw [hw, hmemc]
  · refine Eq.trans (b := (w.chip.waited src a 8).memc.rawEpoch) rfl ?_
    rw [hw, hmemc]
  · rw [← hsame.clsCell hc]
    exact (congrArg ((granuleOps (w.chip.clsCell a) bytes none).reverse ++ ·) hops).trans (List.append_nil _)

theorem State.leave_storedBy (s : State) (w : Work) (src a : Nat) (bytes : List Byte) (l : List (Nat × Word)) :
    (s.leave (w.storedBy src a bytes l)).chip = (((w.chip.waited src a 8).dropWb (w.chip.clsCell a)).withTorn l).settle := rfl

theorem Chip.eq_settle_torn {c d : Chip} {l : List (Nat × Word)} (h : c = (d.withTorn l).settle) :
    c = { d with queues := { d.queues with torn := c.queues.torn } }.settle := by
  have ht : c.queues.torn = l := by rw [h]; rfl
  rw [ht]
  exact h

/-- Settles O21: a burst of eight bytes lies in one granule, and what the translation leaves is what the access works on. -/
theorem bar2Accesses : Obligations.Bar2Accesses := by
  unfold Obligations.Bar2Accesses
  intro offset v s h8 ctx va waited ends
  refine ⟨fun pa w ht hc ha => ⟨fun hm => ?clean, fun hm => ?poison⟩, fun e w ht => ?readFault, fun e w ht => ?writeFault,
    fun pa w ht hops _ hc ha hmemc hregs hcho => ?write⟩
  case clean => exact ⟨_, bar2_readClean h8 hc ha ht hm, s.leave_pending _, s.leave_fuses _, rfl, s.leave_onChip_chip w _⟩
  case poison => exact ⟨_, bar2_readPoison h8 hc ha ht hm, s.leave_pending _, s.leave_fuses _, rfl, s.leave_onChip_chip w _⟩
  case readFault => exact ⟨_, bar2_readFault h8 ht, s.leave_pending _, s.leave_fuses _, rfl, s.leave_onChip_chip w _⟩
  case writeFault => exact ⟨_, bar2_writeFault h8 ht, s.leave_pending _, s.leave_fuses _, rfl, s.leave_onChip_chip w _⟩
  case write =>
    obtain ⟨l, h⟩ := bar2_write (v := v) h8 hc ha ht
    have hst := stored_translated (src := 0x50) hc ha (leBytes_length 8 v.toNat) hops hmemc hregs hcho l
    refine ⟨_, h, s.leave_pending _, s.leave_fuses _, fun i => ?_, hst.mark_at, hst.memBut_range, Chip.eq_settle_torn (s.leave_storedBy w ..)⟩
    exact (hst.byte_at i.isLt).trans (leBytes_getD _ i.isLt)

end Sys2Proof.Machine
end

section
/-! Contexts, registered regions and the descriptor commands (R101-R103, R131, R132, R139-R141). -/

namespace Sys2Proof.Machine

/-! Contexts and region commands. -/

section
variable {req : Requester} {s : State}

theorem exec_inval {ctx : Fin 16} (hg : s.passes req 0x072 (ctxOff ctx)) :
    exec (.inval req ctx) s = .next (s.onChip fun c => c.setBit 0x072 (ctxOff ctx) 1 true) :=
  congrArg _ (s.onChip_gated req 0x072 _ _ hg)

theorem exec_ctxDisable {ctx : Fin 16} (hg : s.passes req 0x072 (ctxOff ctx)) :
    exec (.ctxDisable req ctx) s = .next (s.onChip fun c => (c.setBit 0x072 (ctxOff ctx) 0 false).dropTlb ctx) :=
  congrArg _ (s.onChip_gated req 0x072 _ _ hg)

theorem exec_invalDone (ctx : Fin 16) (s : State) : exec (.invalDone ctx) s = .next (s.onChip fun c =>
    if c.bit 0x072 (ctxOff ctx) 1 then (c.dropTlb ctx).setBit 0x072 (ctxOff ctx) 1 false else c) := rfl

variable (hg : s.passes req 0x073 0x054)
include hg

theorem exec_rgnRegister : exec (.rgnRegister req) s = .next (s.onChip fun c => c.rgnCmd req true false) :=
  congrArg _ (s.onChip_gated req 0x073 0x054 _ hg)

theorem exec_rgnFree : exec (.rgnFree req) s = .next (s.onChip fun c => c.rgnCmd req false true) :=
  congrArg _ (s.onChip_gated req 0x073 0x054 _ hg)

end

/-- Either command while one is in progress. -/
theorem Chip.rgnCmd_busy {c : Chip} (req : Requester) (h : c.bit 0x073 0x058 31 = true) (b : Bool) :
    c.rgnCmd req b (!b) = c.logUse 0x073 0x09 req (regAddr 0x073 0x054) := by
  cases b <;> simp [Chip.rgnCmd, h]

theorem Chip.rgnCmd_start {c : Chip} (req : Requester) (h : c.bit 0x073 0x058 31 = false) (b : Bool) :
    c.rgnCmd req b (!b) = { c.setBit 0x073 0x058 31 true with rood := { c.rood with
      cmd := some (if b then .register (c.rd64 0x073 0x040) (c.rd64 0x073 0x048) (c.rd 0x073 0x050) else .free (c.fld 0x073 0x05C 0 10)) } } := by
  cases b <;> simp [Chip.rgnCmd, h]

theorem State.leave_onChip_mem (s : State) (w : Work) (f : Chip → Chip) : (s.leave (w.onChip f)).mem = s.mem.applyAll w.ops.reverse := rfl

theorem Chip.rgnEnd_eq (c : Chip) (code : Nat) : c.rgnEnd code =
    let d := (((c.setBit 0x073 0x058 31 false).setFld 0x073 0x058 0 8 code).raise 0x073 1).wr 0x073 0x060 (word c.rood.regions.length)
    { d with rood := { d.rood with cmd := none } } := rfl

theorem exec_rgnDone (s : State) : exec .rgnDone s = s.onMem rgnDone := rfl

theorem rgnDone_idle {w : Work} (h : w.chip.rood.cmd = none) : rgnDone w = ((), w) :=
  WM.bind_of_eq (getChip_apply w) (by rw [h]; rfl)

section
variable {w : Work} {base size : Nat} {attr : Word} (h : w.chip.rood.cmd = some (.register base size attr))
include h

theorem rgnDone_registered {r : Region} {u : Work} {n : Nat} (hr : rgnCheck base size attr w = ((0, some r), u))
    (hn : freeHandle w.chip.rood.regions = some n) :
    rgnDone w = ((), u.onChip fun c => ((c.setRegions (aput c.rood.regions n r)).setFld 0x073 0x058 16 10 n).rgnEnd 0) := by
  refine WM.bind_of_eq (getChip_apply w) ?_
  rw [h]
  refine WM.bind_of_eq hr ?_
  dsimp only
  rw [hn]
  rfl

theorem rgnDone_refused {code : Nat} {u : Work} (hr : rgnCheck base size attr w = ((code, none), u)) :
    rgnDone w = ((), u.onChip fun c => (c.setFld 0x073 0x058 16 10 0).rgnEnd code) := by
  refine WM.bind_of_eq (getChip_apply w) ?_
  rw [h]
  exact WM.bind_of_eq hr rfl

end

section
variable {w : Work} {n : Nat} (h : w.chip.rood.cmd = some (.free n))
include h

theorem rgnDone_free : rgnDone w = (if (aget w.chip.rood.regions n).isNone then chipM fun c => c.rgnEnd 0x0B
    else if w.chip.desc.slots.any fun d => d.2.names n then chipM fun c => c.rgnEnd 0x0C
    else chipM fun c => (c.setRegions (adel c.rood.regions n)).rgnEnd 0x00) w :=
  WM.bind_of_eq (getChip_apply w) (by rw [h])

theorem rgnDone_unused (hn : aget w.chip.rood.regions n = none) : rgnDone w = ((), w.onChip fun c => c.rgnEnd 0x0B) :=
  (rgnDone_free h).trans (WM.if_pos (by rw [hn]; rfl) rfl)

variable (hn : aget w.chip.rood.regions n ≠ none)
include hn

theorem rgnDone_inUse (hu : (w.chip.desc.slots.any fun d => d.2.names n) = true) : rgnDone w = ((), w.onChip fun c => c.rgnEnd 0x0C) :=
  (rgnDone_free h).trans (WM.if_neg (by simpa using hn) (WM.if_pos hu rfl))

theorem rgnDone_freed (hu : (w.chip.desc.slots.any fun d => d.2.names n) = false) :
    rgnDone w = ((), w.onChip fun c => (c.setRegions (adel c.rood.regions n)).rgnEnd 0x00) :=
  (rgnDone_free h).trans (WM.if_neg (by simpa using hn) (WM.if_neg (by simp [hu]) rfl))

end

/-- Settles O22: each command starts with the registers' values, and its end follows the checks. -/
theorem contextsAndRegions : Obligations.ContextsAndRegions := by
  unfold Obligations.ContextsAndRegions
  refine ⟨fun req ctx s hg => ⟨exec_inval hg, exec_ctxDisable hg⟩, fun ctx s => ⟨fun h => ?dropped, fun h => ?kept⟩,
    fun req s hg => ⟨fun h => ⟨?register, ?free⟩, fun h i hi => ?busy⟩, fun s => ⟨fun h => ?none, fun base size attr h => ⟨?done, ?failed⟩,
      fun n h => ⟨fun hn => ?unused, fun hn hu => ?inUse, fun hn hu => ?freed⟩⟩⟩
  case dropped => exact (exec_invalDone ctx s).trans (congrArg _ (s.onChip_congr _ _ (if_pos h)))
  case kept => exact (exec_invalDone ctx s).trans (congrArg _ (s.onChip_congr _ id (if_neg (by rw [h]; decide))))
  case register => exact (exec_rgnRegister hg).trans (congrArg _ (s.onChip_congr _ _ (Chip.rgnCmd_start req h true)))
  case free => exact (exec_rgnFree hg).trans (congrArg _ (s.onChip_congr _ _ (Chip.rgnCmd_start req h false)))
  case busy =>
    rcases hi with rfl | rfl
    · exact (exec_rgnRegister hg).trans (congrArg _ (s.onChip_congr _ _ (Chip.rgnCmd_busy req h true)))
    · exact (exec_rgnFree hg).trans (congrArg _ (s.onChip_congr _ _ (Chip.rgnCmd_busy req h false)))
  case none => exact s.onMem_of_eq (rgnDone_idle (w := s.work) h)
  case done => exact fun r w hr n hn => ⟨_, s.onMem_leave (rgnDone_registered (w := s.work) h hr hn),
    (s.leave_onChip_chip w _).trans (congrArg Chip.settle (Chip.rgnEnd_eq _ _)), s.leave_onChip_mem w _⟩
  case failed => exact fun code w hr => ⟨_, s.onMem_leave (rgnDone_refused (w := s.work) h hr),
    (s.leave_onChip_chip w _).trans (congrArg Chip.settle (Chip.rgnEnd_eq _ _)), s.leave_onChip_mem w _⟩
  case unused => exact s.onMem_of_eq (rgnDone_unused (w := s.work) h hn)
  case inUse => exact s.onMem_of_eq (rgnDone_inUse (w := s.work) h hn hu)
  case freed => exact s.onMem_of_eq (rgnDone_freed (w := s.work) h hn hu)

/-! Descriptor commands. -/

section
variable {req : Requester} {s : State} (hg : s.passes req 0x073 0x244)
include hg

theorem exec_create : exec (.create req) s = .next (s.onChip fun c => c.descCmd req 1) := congrArg _ (s.onChip_gated req 0x073 0x244 _ hg)
theorem exec_destroy : exec (.destroy req) s = .next (s.onChip fun c => c.descCmd req 2) := congrArg _ (s.onChip_gated req 0x073 0x244 _ hg)
theorem exec_descRead : exec (.descRead req) s = .next (s.onChip fun c => c.descCmd req 4) := congrArg _ (s.onChip_gated req 0x073 0x244 _ hg)

end

/-- Each command's bit of DESC_CMD with its number. -/
def descOps : List (Nat × Nat) := [(1, 0), (2, 1), (4, 2)]

theorem Chip.descCmd_busy {c : Chip} (req : Requester) {v n : Nat} (hv : (v, n) ∈ descOps) (h : c.bit 0x073 0x248 31 = true) :
    c.descCmd req v = c.logUse 0x073 0x0A req (regAddr 0x073 0x244) := by
  have hb : ∀ x ∈ descOps, bits x.1 0 3 ≠ 0 := by decide
  rw [Chip.descCmd, if_neg (hb _ hv), if_pos h]

theorem Chip.descCmd_start {c : Chip} (req : Requester) {v n : Nat} (hv : (v, n) ∈ descOps) (h : c.bit 0x073 0x248 31 = false) :
    c.descCmd req v = { c.setBit 0x073 0x248 31 true with desc := { c.desc with cmd := some (DescCmd.mk n (c.fld 0x073 0x240 0 16)
      ((List.range 16).map fun k => c.rd 0x073 (0x200 + 4 * k)) (ownerCode req)) } } := by
  have hb : ∀ x ∈ descOps, bits x.1 0 3 ≠ 0 := by decide
  have hp : ∀ x ∈ descOps, Chip.descCmd.popcount3 (bits x.1 0 3) = 1 := by decide
  have ho : ∀ x ∈ descOps, (if bits x.1 0 1 = 1 then 0 else if bits x.1 1 1 = 1 then 1 else 2) = x.2 := by decide
  simp only [Chip.descCmd, if_neg (hb _ hv), h, Bool.false_eq_true, if_false, ne_eq, hp _ hv, not_true_eq_false, ho _ hv]

theorem State.keepsMem_onChip (s : State) (f : Chip → Chip) : s.keepsMem (s.onChip f) := ⟨rfl, rfl, rfl⟩

/-- A command that acts on the registers answers what the registers then hold. -/
theorem Answers.of_onChip {i : Instr} {s : State} {f : Chip → Chip} {P : State → Prop} (hexec : exec i s = .next (s.onChip f))
    (h : ∀ t, s.keepsMem t → t.chip = (f s.chip).settle → t.chip.regs = (f s.chip).regs → P t) : Answers i s P :=
  ⟨_, hexec, h _ (s.keepsMem_onChip f) (s.onChip_chip f) rfl⟩

/-- A command on the registers under a premise that settles a branch of its function. -/
theorem exec_onChip_congr {i : Instr} {s : State} {f g : Chip → Chip} (hexec : exec i s = .next (s.onChip f)) (h : f s.chip = g s.chip) :
    exec i s = .next (s.onChip g) := hexec.trans (congrArg _ (s.onChip_congr f g h))

theorem exec_descDone (s : State) : exec .descDone s = .next (s.onChip Chip.descDone) := rfl

theorem Chip.descDone_idle {c : Chip} (h : c.desc.cmd = none) : c.descDone = c := by simp [Chip.descDone, h]

section
variable {c : Chip} {k : DescCmd} (h : c.desc.cmd = some k)
include h

theorem Chip.descDone_create (ho : k.op = 0) : c.descDone =
    (if c.createCheck k.handle (stageWords k.stage) = 0 then c.storeSlot k.handle { qw := stageWords k.stage, owner := k.owner } else c).descEnd
      (c.createCheck k.handle (stageWords k.stage)) := by
  simp only [Chip.descDone, h, ho, if_true]

theorem Chip.descDone_empty (ho : k.op = 1 ∨ k.op = 2) (hn : k.handle % 4096 = 0 ∨ aget c.desc.slots k.handle = none) :
    c.descDone = c.descEnd 0x18 := by
  have hs : (if k.handle % 4096 = 0 then none else aget c.desc.slots k.handle) = none := by
    rcases hn with hn | hn
    · exact if_pos hn
    · rw [hn, ite_self]
  have h0 : k.op ≠ 0 := by lia
  simp only [Chip.descDone, h, h0, if_false, hs]

variable {d : DescSlot} (hh : k.handle % 4096 ≠ 0) (hd : aget c.desc.slots k.handle = some d)
include hh hd

theorem Chip.descDone_destroy (ho : k.op = 1) : c.descDone =
    if c.descQuarantined k.handle ∨ (k.owner ≠ d.owner ∧ k.owner ≠ 2) then c.descEnd 0x19 else (c.emptySlot k.handle).descEnd 0x00 := by
  simp [Chip.descDone, h, hh, hd, ho]

theorem Chip.descDone_read (ho : k.op = 2) : c.descDone = if d.poison then c.descEnd 0x1A else
    ((List.range 16).foldl (fun c i => c.wr 0x073 (0x200 + 4 * i) (word (bits (d.qw.getD (i / 2) 0).toNat (32 * (i % 2)) 32)))
      (c.noteDescCe d)).descEnd 0x00 := by
  simp [Chip.descDone, h, hh, hd, ho]

end

/-! What the end of a command leaves. -/

theorem Chip.wordAt_raise_ne (c : Chip) (p b : Nat) {a : Nat} (h : a ≠ regAddr p 0x014) : (c.raise p b).wordAt a = c.wordAt a :=
  c.wordAt_wr_ne _ h

theorem Chip.descEnd_rd (c : Chip) (code : Nat) : (c.descEnd code).rd 0x073 0x248 = word code := by
  have h : ((c.wr 0x073 0x248 (word code)).raise 0x073 2).rd 0x073 0x248 = word code := by
    rw [Chip.rd_raise_ne _ _ _ _ _ (by decide), Chip.rd_wr_same]
  exact h

theorem Chip.descEnd_wordAt (c : Chip) (code : Nat) {a : Nat} (h : a ∉ [regAddr 0x073 0x248, regAddr 0x073 0x014]) :
    (c.descEnd code).wordAt a = c.wordAt a := by
  simp only [List.mem_cons, List.not_mem_nil, or_false, not_or] at h
  have : ((c.wr 0x073 0x248 (word code)).raise 0x073 2).wordAt a = c.wordAt a := by
    rw [Chip.wordAt_raise_ne _ _ _ h.2, Chip.wordAt_wr_ne _ _ h.1]
  exact this

/-- Consecutive registers written from a function. -/
def Chip.wrWords (c : Chip) (p off n : Nat) (f : Nat → Word) : Chip := (List.range n).foldl (fun c i => c.wr p (off + 4 * i) (f i)) c

theorem Chip.wrWords_succ (c : Chip) (p off n : Nat) (f : Nat → Word) :
    c.wrWords p off (n + 1) f = (c.wrWords p off n f).wr p (off + 4 * n) (f n) := by
  simp [Chip.wrWords, List.range_succ]

theorem Chip.wrWords_rd_ne (c : Chip) (p off n : Nat) (f : Nat → Word) {p' o : Nat} (h : ∀ i, i < n → regAddr p (off + 4 * i) ≠ regAddr p' o) :
    (c.wrWords p off n f).rd p' o = c.rd p' o := by
  induction n with
  | zero => rfl
  | succ n ih => rw [Chip.wrWords_succ, Chip.rd_wr_ne _ _ _ _ _ _ (h n (by omega)), ih fun i hi => h i (by omega)]

theorem Chip.wrWords_rd (c : Chip) (p off : Nat) (f : Nat → Word) {n i : Nat} (h : i < n) :
    (c.wrWords p off n f).rd p (off + 4 * i) = f i := by
  induction n with
  | zero => lia
  | succ n ih =>
    rw [Chip.wrWords_succ]
    by_cases hi : i = n
    · rw [hi, Chip.rd_wr_same]
    · rw [Chip.rd_wr_ne _ _ _ _ _ _ (regAddr_off_ne _ _ _ (by lia)), ih (by lia)]

theorem Chip.wrWords_fields (c : Chip) (p off n : Nat) (f : Nat → Word) : c.wrWords p off n f = { c with regs := (c.wrWords p off n f).regs } := by
  induction n with
  | zero => rfl
  | succ n ih => rw [Chip.wrWords_succ, ih]; rfl

theorem Chip.noteDescCe_rd (c : Chip) (d : DescSlot) : (c.noteDescCe d).rd 0x073 0x250 = c.rd 0x073 0x250 + word d.ce.toNat := by
  unfold Chip.noteDescCe
  cases d.ce with
  | true => exact c.rd_count_same 0x073 0x250 1
  | false => simp [word]

/-- What DESTROY leaves of its slot and of the others. -/
theorem Chip.emptySlot_wordAt (c : Chip) (h : Nat) {a : Nat} (ha : a ≠ regAddr 0x073 0x24C) : (c.emptySlot h).wordAt a = c.wordAt a := by
  unfold Chip.emptySlot
  exact Chip.wordAt_wr_ne _ _ ha

/-- The chip once a READ has shown the stored words. -/
def Chip.descShown (c : Chip) (d : DescSlot) : Chip :=
  ((c.noteDescCe d).wrWords 0x073 0x200 16 fun i => word (bits (d.qw.getD (i / 2) 0).toNat (32 * (i % 2)) 32)).descEnd 0

theorem Chip.descShown_stage (c : Chip) (d : DescSlot) {i : Nat} (hi : i < 16) :
    (c.descShown d).rd 0x073 (0x200 + 4 * i) = word (bits (d.qw.getD (i / 2) 0).toNat (32 * (i % 2)) 32) := by
  refine Eq.trans (Chip.descEnd_wordAt _ 0 (a := regAddr 0x073 (0x200 + 4 * i)) ?_) (Chip.wrWords_rd _ _ _ _ hi)
  simp only [regAddr, List.mem_cons, List.not_mem_nil, or_false]
  lia

theorem Chip.descShown_ce (c : Chip) (d : DescSlot) : (c.descShown d).rd 0x073 0x250 = c.rd 0x073 0x250 + word d.ce.toNat := by
  refine Eq.trans (Chip.descEnd_wordAt _ 0 (a := regAddr 0x073 0x250) (by decide)) (Eq.trans (Chip.wrWords_rd_ne _ _ _ _ _ fun i hi => ?_)
    (Chip.noteDescCe_rd _ d))
  exact regAddr_off_ne _ _ _ (by lia)

/-- Settles O23: a command ends by its own check, and READ writes the sixteen words of DESC_STAGE. -/
theorem descriptorCommands : Obligations.DescriptorCommands := by
  unfold Obligations.DescriptorCommands
  refine ⟨fun req s hg => ⟨fun h i n hi => ?start, fun h i hi => ?busy⟩, fun s h => ?idle, fun s k h => ⟨fun ho hc => ?created, fun ho hc => ?refused,
    fun ho hn => ?empty, fun d hh hd => ⟨fun ho hq => ?denied, fun ho hq hw => ?destroyed, fun ho hp => ?poisoned, fun ho hp => ?read⟩⟩⟩
  case start =>
    simp only [List.mem_cons, Prod.mk.injEq, List.not_mem_nil, or_false] at hi
    rcases hi with ⟨rfl, rfl⟩ | ⟨rfl, rfl⟩ | ⟨rfl, rfl⟩
    · exact (exec_create hg).trans (congrArg _ (s.onChip_congr _ _ (Chip.descCmd_start req (by decide) h)))
    · exact (exec_destroy hg).trans (congrArg _ (s.onChip_congr _ _ (Chip.descCmd_start req (by decide) h)))
    · exact (exec_descRead hg).trans (congrArg _ (s.onChip_congr _ _ (Chip.descCmd_start req (by decide) h)))
  case busy =>
    simp only [List.mem_cons, List.not_mem_nil, or_false] at hi
    rcases hi with rfl | rfl | rfl
    · exact (exec_create hg).trans (congrArg _ (s.onChip_congr _ _ (Chip.descCmd_busy req (n := 0) (by decide) h)))
    · exact (exec_destroy hg).trans (congrArg _ (s.onChip_congr _ _ (Chip.descCmd_busy req (n := 1) (by decide) h)))
    · exact (exec_descRead hg).trans (congrArg _ (s.onChip_congr _ _ (Chip.descCmd_busy req (n := 2) (by decide) h)))
  case idle => exact (exec_descDone s).trans (congrArg _ (s.onChip_congr _ id (Chip.descDone_idle h)))
  case created =>
    refine (exec_descDone s).trans (congrArg _ (s.onChip_congr _ _ ((Chip.descDone_create h ho).trans ?_)))
    rw [hc, if_pos rfl]
    rfl
  case refused =>
    refine (exec_descDone s).trans (congrArg _ (s.onChip_congr _ _ ((Chip.descDone_create h ho).trans ?_)))
    rw [if_neg hc]
    rfl
  case empty => exact (exec_descDone s).trans (congrArg _ (s.onChip_congr _ _ (Chip.descDone_empty h ho hn)))
  case denied =>
    exact (exec_descDone s).trans (congrArg _ (s.onChip_congr _ _ ((Chip.descDone_destroy h hh hd ho).trans (if_pos hq))))
  case destroyed =>
    have hn : ¬(s.chip.descQuarantined k.handle = true ∨ k.owner ≠ d.owner ∧ k.owner ≠ 2) := by rw [hq]; simp; tauto
    have hc := s.onChip_congr _ (fun c => (c.emptySlot k.handle).descEnd 0) ((Chip.descDone_destroy h hh hd ho).trans (if_neg hn))
    refine ⟨_, (exec_descDone s).trans (congrArg _ hc), s.keepsMem_onChip _, aget_adel_same _ _, fun x hx => aget_adel_ne _ _ _ hx.symm, rfl,
      Chip.descEnd_rd _ _, fun a ha => ?_⟩
    rw [List.mem_cons, not_or] at ha
    exact (Chip.descEnd_wordAt _ _ ha.2).trans (Chip.emptySlot_wordAt _ _ ha.1)
  case poisoned =>
    exact (exec_descDone s).trans (congrArg _ (s.onChip_congr _ _ ((Chip.descDone_read h hh hd ho).trans (if_pos hp))))
  case read =>
    have hc := s.onChip_congr _ (fun c => c.descShown d) ((Chip.descDone_read h hh hd ho).trans (if_neg (by rw [hp]; decide)))
    refine ⟨_, (exec_descDone s).trans (congrArg _ hc), s.keepsMem_onChip _, ?_, fun i => ?_, ?_⟩ <;> rw [State.onChip_chip, Chip.settle_rd]
    · exact Chip.descEnd_rd _ _
    · exact Chip.descShown_stage _ d i.isLt
    · exact Chip.descShown_ce _ d

end Sys2Proof.Machine
end

section
/-! Elements and vectors: patterns of lanes (R120, R122), the lossless code (R57, R293) and block scales (R127). -/

namespace Sys2Proof.Machine

/-! The pattern of a value in its type. -/

theorem unsext_lt (w : Nat) (x : Int) : unsext w x < 2 ^ w := by
  have h0 : (0 : Int) < (2 ^ w : Nat) := Int.natCast_pos.mpr (Nat.two_pow_pos w)
  exact (Int.toNat_lt (Int.emod_nonneg x h0.ne')).mpr (Int.emod_lt_of_pos x h0)

/-- A value lies in the range of w bits, signed or not. -/
def fitsBits (sgn : Bool) (w : Nat) (x : Int) : Prop :=
  if sgn then -(2 ^ (w - 1) : Nat) ≤ x ∧ x < (2 ^ (w - 1) : Nat) else 0 ≤ x ∧ x < (2 ^ w : Nat)

/-- A signed value of w + 1 bits is a number below 2^w, or the negative of a number up to 2^w. -/
theorem fitsBits_signed {w : Nat} {x : Int} (h : fitsBits true (w + 1) x) :
    (∃ n : Nat, n < 2 ^ w ∧ x = n) ∨ ∃ n : Nat, n < 2 ^ w ∧ x = Int.negSucc n := by
  obtain ⟨hlo, hhi⟩ := h
  cases x with
  | ofNat n => exact .inl ⟨n, Int.ofNat_lt.mp hhi, rfl⟩
  | negSucc n => exact .inr ⟨n, Int.ofNat_le.mp (Int.neg_le_neg_iff.mp hlo), rfl⟩

theorem lt_two_pow_succ {n w : Nat} (h : n < 2 ^ w) : n < 2 ^ (w + 1) := h.trans_le (Nat.pow_le_pow_right (by decide) (Nat.le_succ w))

theorem unsext_natCast {n w : Nat} (h : n < 2 ^ w) : unsext w n = n := Nat.mod_eq_of_lt h

theorem unsext_negSucc {n w : Nat} (h : n < 2 ^ w) : unsext w (Int.negSucc n) = 2 ^ w - (n + 1) := by
  have hm : Int.negSucc n % (2 ^ w : Nat) = Int.subNatNat (2 ^ w) (n % 2 ^ w + 1) := rfl
  rw [unsext, hm, Nat.mod_eq_of_lt h, Int.subNatNat_of_le h]
  rfl

theorem sext_unsext {w : Nat} {x : Int} (hw : 0 < w) (h : fitsBits true w x) : sext w (unsext w x) = x := by
  obtain ⟨w, rfl⟩ := Nat.exists_eq_succ_of_ne_zero hw.ne'
  rw [sext, Nat.mod_eq_of_lt (unsext_lt _ _)]
  obtain ⟨n, hn, rfl⟩ | ⟨n, hn, rfl⟩ := fitsBits_signed h
  · rw [unsext_natCast (lt_two_pow_succ hn)]
    exact if_neg (Nat.not_le_of_lt hn)
  · have hle := lt_two_pow_succ hn
    have hb : 2 ^ w ≤ 2 ^ (w + 1) - (n + 1) :=
      Nat.le_sub_of_add_le ((Nat.add_le_add_left hn (2 ^ w)).trans (Nat.mul_two (2 ^ w)).ge)
    rw [unsext_negSucc hle]
    refine (if_pos hb).trans ?_
    rw [Int.ofNat_sub hle]
    exact sub_sub_cancel_left _ _

theorem unsext_of_nonneg {w : Nat} {x : Int} (h : fitsBits false w x) : ((unsext w x : Nat) : Int) = x := by
  obtain ⟨n, rfl⟩ := Int.eq_ofNat_of_zero_le h.1
  rw [unsext_natCast (Int.ofNat_lt.mp h.2)]

theorem typeBits_mem (t : Nat) : typeBits t ∈ [4, 8, 16, 32] := by
  unfold typeBits
  split_ifs <;> decide

theorem typeBits_le (t : Nat) : 0 < typeBits t ∧ typeBits t ≤ 32 :=
  (by decide : ∀ b ∈ [4, 8, 16, 32], 0 < b ∧ b ≤ 32) _ (typeBits_mem t)

theorem fromPattern_unsext {t : Nat} {x : Int} (h : fitsBits (typeSigned t) (typeBits t) x) :
    fromPattern t (unsext (typeBits t) x) = x := by
  unfold fromPattern
  cases hs : typeSigned t with
  | true => rw [hs] at h; exact sext_unsext (typeBits_le t).1 h
  | false =>
    rw [hs] at h
    rw [if_neg (by decide), Nat.mod_eq_of_lt (unsext_lt _ _)]
    exact unsext_of_nonneg h

/-- Only the low bits of a pattern count. -/
theorem fromPattern_mod (t v : Nat) : fromPattern t (v % 2 ^ typeBits t) = fromPattern t v := by
  simp only [fromPattern, sext, Nat.mod_mod]

/-- The range that the statements give a value of a type. -/
theorem fitsBits_type {t : Nat} {x : Int} (h : if t = 5 then 0 ≤ x ∧ x < 65536 else typeMin t ≤ x ∧ x ≤ typeMax t) :
    fitsBits (typeSigned t) (typeBits t) x := by
  by_cases h5 : t = 5
  · subst h5
    exact h
  · rw [if_neg h5, typeMin, typeMax] at h
    unfold fitsBits
    cases hs : typeSigned t with
    | true =>
      rw [hs] at h
      exact h.imp_right Int.lt_of_le_sub_one
    | false =>
      rw [hs] at h
      exact h.imp_right Int.lt_of_le_sub_one

/-! Little-endian bytes. -/

theorem leBytes_succ (n v : Nat) : leBytes (n + 1) v = BitVec.ofNat 8 v :: leBytes n (v / 256) := by
  simp only [leBytes, List.range_succ_eq_map, List.map_cons, List.map_map, pow_zero, Nat.div_one]
  refine congrArg (_ :: ·) (List.map_congr_left fun i _ => ?_)
  simp only [Function.comp_apply, Nat.succ_eq_add_one, pow_succ', Nat.div_div_eq_div_mul]

theorem leNat_leBytes (n v : Nat) : leNat ((leBytes n v).map some) = some (v % 256 ^ n) := by
  induction n generalizing v with
  | zero => exact congrArg some (Nat.mod_one v).symm
  | succ n ih =>
    rw [leBytes_succ, List.map_cons, leNat_cons _ (ih _), pow_succ', Nat.mod_mul]
    rfl

/-- The part of a concatenation of parts of one length. -/
theorem slice_flatMap {α β : Type} (f : α → List β) {n : Nat} (hf : ∀ x, (f x).length = n) :
    ∀ (xs : List α) (l : Nat) (h : l < xs.length), ((xs.flatMap f).drop (n * l)).take n = f xs[l]
  | x :: xs, 0, _ => by simp [hf]
  | x :: xs, l + 1, h => by
    have hd : ((x :: xs).flatMap f).drop (n * (l + 1)) = (xs.flatMap f).drop (n * l) := by
      rw [List.flatMap_cons, Nat.mul_succ, Nat.add_comm, ← List.drop_drop, ← hf x, List.drop_left]
    rw [hd, slice_flatMap f hf xs l (Nat.lt_of_succ_lt_succ h)]
    rfl

/-! Lanes. -/

/-- Lanes of four bits lie two to a byte. -/
theorem lane_nibble {a b : Nat} (ha : a < 16) (hb : b < 16) (l : Nat) :
    (BitVec.ofNat 8 (a + 16 * b)).toNat / 16 ^ (l % 2) % 16 = if l % 2 = 0 then a else b := by
  have hv : (BitVec.ofNat 8 (a + 16 * b)).toNat = a + 16 * b :=
    (BitVec.toNat_ofNat _ 8).trans (Nat.mod_eq_of_lt (Nat.add_comm .. ▸ Nat.mul_comm .. ▸ digit_lt (m := 16) hb ha))
  rw [hv]
  obtain h | h := Nat.mod_two_eq_zero_or_one l
  · rw [h, pow_zero, Nat.div_one, Nat.add_mul_mod_self_left, Nat.mod_eq_of_lt ha, if_pos rfl]
  · rw [h, pow_one, Nat.add_mul_div_left _ _ (by decide), Nat.div_eq_of_lt ha, Nat.zero_add, Nat.mod_eq_of_lt hb, if_neg (by decide)]

section
variable {xs : List Int} (hl : xs.length = 32) {l : Nat} (h : l < 32)
include hl h

theorem decodeLanes_nibble (hx : ∀ x ∈ xs, fitsBits true 4 x) :
    ((encodeLanes 0 (xs.map some)).getD (l / 2) none).map (fun b => fromPattern 0 (b.toNat / 16 ^ (l % 2))) = some xs[l] := by
  have hk : l / 2 < 16 := Nat.div_lt_of_lt_mul h
  have hhi : 2 * (l / 2) + 1 < xs.length := hl ▸ Nat.mul_comm 2 (l / 2) ▸ digit_lt (m := 16) hk (by decide)
  have hget : ∀ k (hk : k < xs.length), (xs.map some).getD k none = some xs[k] := fun k hk => by
    rw [List.getD_eq_getElem _ _ (by rw [List.length_map]; exact hk), List.getElem_map]
  have he : (encodeLanes 0 (xs.map some)).getD (l / 2) none =
      some (BitVec.ofNat 8 (unsext 4 (xs[2 * (l / 2)]'(Nat.lt_of_succ_lt hhi)) + 16 * unsext 4 xs[2 * (l / 2) + 1])) := by
    rw [encodeLanes, if_pos (show typeBits 0 = 4 from rfl), List.getD_eq_getElem _ _ (by rw [List.length_map, List.length_range]; exact hk), List.getElem_map,
      List.getElem_range, hget _ (Nat.lt_of_succ_lt hhi), hget _ hhi]
  rw [he, Option.map_some, ← fromPattern_mod]
  have hn := lane_nibble (unsext_lt 4 (xs[2 * (l / 2)]'(Nat.lt_of_succ_lt hhi))) (unsext_lt 4 xs[2 * (l / 2) + 1]) l
  have ht : fromPattern 0 (unsext 4 xs[l]) = xs[l] := fromPattern_unsext (t := 0) (hx _ (List.getElem_mem _))
  refine congrArg some ((congrArg (fromPattern 0) hn).trans (Eq.trans (congrArg (fromPattern 0) ?_) ht))
  have hd := Nat.div_add_mod l 2
  obtain h2 | h2 := Nat.mod_two_eq_zero_or_one l <;> rw [h2] at hd
  · rw [if_pos h2]
    simp only [show 2 * (l / 2) = l from hd]
  · rw [if_neg (by rw [h2]; decide)]
    simp only [hd]

theorem decodeLanes_bytes {n t : Nat} (hn : typeBits t = 8 * n) (hx : ∀ x ∈ xs, fitsBits (typeSigned t) (typeBits t) x) :
    (leNat ((((xs.map some).flatMap fun x => match x with
      | some a => (leBytes n (unsext (8 * n) a)).map some
      | none => List.replicate n none).drop (n * l)).take n)).map (fromPattern t) = some xs[l] := by
  rw [slice_flatMap _ (fun x => by cases x <;> simp [leBytes]) _ l (by simp [hl, h])]
  simp only [List.getElem_map]
  rw [leNat_leBytes, Option.map_some, show 256 ^ n = 2 ^ (8 * n) by rw [pow_mul]; norm_num, Nat.mod_eq_of_lt (unsext_lt _ _), ← hn]
  exact congrArg some (fromPattern_unsext (hx _ (List.getElem_mem _)))

end

/-- Settles O24: a lane's bytes, or its half of a byte, spell its pattern, and the pattern spells the value. -/
theorem lanesReadBackAsStored : Obligations.LanesReadBackAsStored := by
  unfold Obligations.LanesReadBackAsStored
  intro t xs ht hl hx
  have hfit : ∀ x ∈ xs, fitsBits (typeSigned t) (typeBits t) x := fun x hm => fitsBits_type (hx x hm)
  refine List.ext_getElem (by simp [decodeLanes, hl]) fun l h1 h2 => ?_
  have h : l < 32 := by simpa [decodeLanes] using h1
  simp only [decodeLanes, List.getElem_map, List.getElem_range]
  by_cases h4 : typeBits t = 4
  · obtain rfl : t = 0 := of_ite_eq_left h4 (ite_ne (by decide) (ite_ne (by decide) (by decide)))
    rw [if_pos h4]
    exact decodeLanes_nibble hl h hfit
  · have hn : typeBits t = 8 * (typeBits t / 8) :=
      (by decide : ∀ b ∈ [4, 8, 16, 32], b ≠ 4 → b = 8 * (b / 8)) _ (typeBits_mem t) h4
    rw [if_neg h4]
    simp only [encodeLanes, if_neg h4]
    exact decodeLanes_bytes hl h hn hfit

/-! Block scales (R127). -/

theorem deriveScale_eq (t : Nat) (xs : List Int) : deriveScale t xs = 31 ∧
      ((List.range 32).find? fun e => xs.all fun x => !(satType t (rshift x e)).2) = none ∨
    ((List.range 32).find? fun e => xs.all fun x => !(satType t (rshift x e)).2) = some (deriveScale t xs) := by
  unfold deriveScale
  cases (List.range 32).find? fun e => xs.all fun x => !(satType t (rshift x e)).2 with
  | none => exact .inl ⟨rfl, rfl⟩
  | some e => exact .inr rfl

/-- Some value saturates under every exponent below the scale. -/
theorem saturates_below_scale {t e : Nat} {xs : List Int} (h : e < deriveScale t xs) : ∃ x ∈ xs, (satType t (rshift x e)).2 = true := by
  have hn : (xs.all fun x => !(satType t (rshift x e)).2) = false := by
    rcases deriveScale_eq t xs with ⟨he, hf⟩ | hf
    · simpa using List.find?_eq_none.mp hf e (List.mem_range.mpr ((h.trans_le he.le).trans (by decide)))
    · simpa using (List.find?_range_eq_some.mp hf).2.2 e h
  simpa using hn

theorem fits_under_scale {t : Nat} {xs : List Int} (h : deriveScale t xs < 31) {x : Int} (hx : x ∈ xs) :
    (satType t (rshift x (deriveScale t xs))).2 = false := by
  rcases deriveScale_eq t xs with ⟨he, -⟩ | hf
  · exact absurd he h.ne
  · have := (List.find?_range_eq_some.mp hf).1
    simpa using List.all_eq_true.mp this x hx

theorem deriveScale_le (t : Nat) (xs : List Int) : deriveScale t xs ≤ 31 := by
  rcases deriveScale_eq t xs with ⟨he, -⟩ | hf
  · exact he.le
  · exact Nat.le_of_lt_succ (List.mem_range.mp (List.mem_of_find?_eq_some hf))

/-- The rounding shift loses at most half a step. -/
theorem rshift_error (x : Int) (e : Nat) : 2 * |rshift x e * 2 ^ e - x| ≤ 2 ^ e := by
  cases e with
  | zero => simp [rshift]
  | succ e =>
    have hb : (0 : Int) < 2 ^ e := by positivity
    have hp : (2 : Int) ^ (e + 1) = 2 * 2 ^ e := by ring
    simp only [rshift, Nat.add_sub_cancel, if_neg (Nat.succ_ne_zero e), hp]
    generalize (2 : Int) ^ e = b at *
    have hd := Int.mul_ediv_add_emod (x + b) (2 * b)
    have h0 := Int.emod_nonneg (x + b) (b := 2 * b) (by omega)
    have h1 := Int.emod_lt_of_pos (x + b) (b := 2 * b) (by omega)
    have hq : (x + b) / (2 * b) * (2 * b) - x = b - (x + b) % (2 * b) := by rw [mul_comm]; lia
    rw [hq]
    have : |b - (x + b) % (2 * b)| ≤ b := abs_le.mpr ⟨by lia, by omega⟩
    lia

/-- Settles O26: the scale is the first exponent found, and a rounded value is off by at most half a step. -/
theorem blockScaleIsLeast : Obligations.BlockScaleIsLeast :=
  fun t xs _ => ⟨fun _ => saturates_below_scale, fun h _ => fits_under_scale h, deriveScale_le t xs, rshift_error⟩

/-! The lossless code (R293). -/

theorem unzigzag_zigzag {sgn : Bool} {w : Nat} (hw : 0 < w) {x : Int} (h : fitsBits sgn w x) : unzigzag sgn (zigzag sgn w x) = x := by
  obtain ⟨w, rfl⟩ := Nat.exists_eq_succ_of_ne_zero hw.ne'
  cases sgn with
  | false =>
    obtain ⟨n, rfl⟩ := Int.eq_ofNat_of_zero_le h.1
    exact congrArg Int.ofNat (Nat.mod_eq_of_lt (Int.ofNat_lt.mp h.2))
  | true =>
    have hdouble : ∀ {n b : Nat}, n < 2 ^ w → b < 2 → n * 2 + b < 2 ^ (w + 1) := digit_lt
    obtain ⟨n, hn, rfl⟩ | ⟨n, hn, rfl⟩ := fitsBits_signed h
    · have hz : zigzag true (w + 1) n = 2 * n :=
        (congrArg (· % 2 ^ (w + 1)) (if_neg (Int.not_lt.mpr (Int.natCast_nonneg n)))).trans
          (Nat.mod_eq_of_lt (show 2 * n < 2 ^ (w + 1) from Nat.mul_comm n 2 ▸ hdouble hn (b := 0) (by decide)))
      rw [hz, unzigzag, if_pos rfl, Nat.mul_mod_right, if_neg (by decide), Nat.mul_div_cancel_left n (by decide)]
    · have hneg : -2 * Int.negSucc n - 1 = (2 * n + 1 : Nat) := by
        rw [Int.negSucc_eq]
        lia
      have hz : zigzag true (w + 1) (Int.negSucc n) = 2 * n + 1 := by
        refine (congrArg (· % 2 ^ (w + 1)) (if_pos (Int.negSucc_lt_zero n))).trans ?_
        rw [hneg]
        exact Nat.mod_eq_of_lt (show 2 * n + 1 < 2 ^ (w + 1) from Nat.mul_comm n 2 ▸ hdouble hn (by decide))
      rw [hz, unzigzag, if_pos rfl, Nat.mul_add_mod, if_pos rfl, Nat.mul_add_div (by decide)]
      rfl

theorem zigzag_lt (sgn : Bool) (w : Nat) (x : Int) : zigzag sgn w x < 2 ^ w := by
  unfold zigzag
  split <;> exact Nat.mod_lt _ (by positivity)

theorem lt_two_pow_widthOf {z m : Nat} (h : z ≤ m) : z < 2 ^ widthOf m := by
  unfold widthOf
  split
  next h0 => exact h0 ▸ h.trans_lt (h0 ▸ Nat.one_pos)
  · exact h.trans_lt Nat.lt_log2_self

theorem widthOf_le {m w : Nat} (h : m < 2 ^ w) : widthOf m ≤ w := by
  unfold widthOf
  split
  next => exact Nat.zero_le w
  next h0 => exact (Nat.log2_lt h0).mpr h

/-- The payload as a number whose digits are the fields. -/
theorem packFields_eq (n bytes : Nat) (zs : List Nat) (h : ∀ z ∈ zs, z < 2 ^ n) :
    packFields n bytes zs = leBytes bytes (Nat.ofDigits (2 ^ n) zs) := by
  have : ∀ (l : List Nat) (k : Nat), (∀ z ∈ l, z < 2 ^ n) →
      ((l.zipIdx k).map fun (z, i) => z % 2 ^ n * 2 ^ (n * i)).sum = 2 ^ (n * k) * Nat.ofDigits (2 ^ n) l := by
    intro l
    induction l with
    | nil => intro k _; simp
    | cons z l ih =>
      intro k hz
      rw [List.zipIdx_cons, List.map_cons, List.sum_cons, ih (k + 1) fun y hy => hz y (List.mem_cons_of_mem _ hy)]
      dsimp only
      rw [Nat.mod_eq_of_lt (hz z List.mem_cons_self), Nat.ofDigits_cons, Nat.mul_succ n k, Nat.pow_add, Nat.mul_assoc,
        Nat.mul_comm z, ← Nat.mul_add]
  unfold packFields
  dsimp only
  rw [this zs 0 h]
  simp

theorem bits_ofDigits {n : Nat} {zs : List Nat} (h : ∀ z ∈ zs, z < 2 ^ n) {i : Nat} (hi : i < zs.length) :
    bits (Nat.ofDigits (2 ^ n) zs) (n * i) n = zs[i] := by
  unfold bits
  rw [pow_mul, Nat.ofDigits_div_pow_eq_ofDigits_drop i (by positivity) zs h, List.drop_eq_getElem_cons hi, Nat.ofDigits_cons,
    Nat.add_mul_mod_self_left, Nat.mod_eq_of_lt (h _ (List.getElem_mem hi))]

/-- A number of digits below a base of 1 or more is below its power. -/
theorem ofDigits_lt_pow {b : Nat} {zs : List Nat} (h : ∀ z ∈ zs, z < b) : Nat.ofDigits b zs < b ^ zs.length := by
  induction zs with
  | nil => simp
  | cons z zs ih =>
    have hz := h z List.mem_cons_self
    have hs := ih fun y hy => h y (List.mem_cons_of_mem _ hy)
    rw [Nat.ofDigits_cons, List.length_cons, pow_succ']
    have hd : z + b * Nat.ofDigits b zs < b * (Nat.ofDigits b zs + 1) := by
      rw [Nat.mul_succ, Nat.add_comm]
      exact Nat.add_lt_add_left hz _
    exact hd.trans_le (Nat.mul_le_mul_left b hs)

theorem foldl_max_lt_iff {b : Nat} (zs : List Nat) : ∀ m : Nat, zs.foldl max m < b ↔ m < b ∧ ∀ z ∈ zs, z < b := by
  induction zs with
  | nil => simp
  | cons z zs ih => intro m; simp [ih, and_assoc]

section
variable {d : Desc} (hc : d.comp = 1) {xs : List Int} (hl : xs.length = 32)
  (hfit : ∀ x ∈ xs, fitsBits (typeSigned d.type) (typeBits d.type) x)

/-- The fields of a vector under the lossless code, and their width. -/
def Desc.zigzags (d : Desc) (xs : List Int) : List Nat := xs.map (zigzag (typeSigned d.type) (typeBits d.type))
def Desc.fieldWidth (d : Desc) (xs : List Int) : Nat := widthOf ((d.zigzags xs).foldl max 0)

theorem Desc.zigzags_lt (d : Desc) (xs : List Int) : ∀ z ∈ d.zigzags xs, z < 2 ^ d.fieldWidth xs := fun z hz =>
  lt_two_pow_widthOf (Nat.lt_succ_iff.mp (((foldl_max_lt_iff (b := (d.zigzags xs).foldl max 0 + 1) _ 0).mp (Nat.lt_succ_self _)).2 z hz))

theorem Desc.fieldWidth_le (d : Desc) (xs : List Int) : d.fieldWidth xs ≤ typeBits d.type := by
  refine widthOf_le ((foldl_max_lt_iff _ 0).mpr ⟨by positivity, fun z hz => ?_⟩)
  obtain ⟨x, -, rfl⟩ := List.mem_map.mp hz
  exact zigzag_lt _ _ x

include hc

theorem compressVec_lossless : compressVec d xs =
    BitVec.ofNat 8 (d.fieldWidth xs) :: leBytes (4 * typeBits d.type) (Nat.ofDigits (2 ^ d.fieldWidth xs) (d.zigzags xs)) := by
  rw [← packFields_eq _ _ _ (d.zigzags_lt xs)]
  simp [compressVec, hc, Desc.fieldWidth, Desc.zigzags, Desc.slotBytes]

theorem headerBits_lossless : headerBits d (BitVec.ofNat 8 (d.fieldWidth xs)).toNat = some (d.fieldWidth xs) := by
  have hw := d.fieldWidth_le xs
  have hb := typeBits_le d.type
  have hn : (BitVec.ofNat 8 (d.fieldWidth xs)).toNat = d.fieldWidth xs := 
    (BitVec.toNat_ofNat _ 8).trans (Nat.mod_eq_of_lt ((hw.trans hb.2).trans_lt (by decide)))
  rw [hn, headerBits, if_pos (hc ▸ by decide)]
  exact if_neg fun h => h.elim (Nat.not_le_of_lt ((hw.trans hb.2).trans_lt (by decide))) (Nat.not_lt_of_le hw)

include hl

omit hc in
/-- The fields fit the slot. -/
theorem fields_lt : Nat.ofDigits (2 ^ d.fieldWidth xs) (d.zigzags xs) < 256 ^ (4 * typeBits d.type) := by
  refine (ofDigits_lt_pow (d.zigzags_lt xs)).trans_le ?_
  rw [show (d.zigzags xs).length = 32 by simp [Desc.zigzags, hl], show (256 : Nat) = 2 ^ 8 by norm_num, ← pow_mul, ← pow_mul]
  have := d.fieldWidth_le xs
  exact Nat.pow_le_pow_right (by decide) ((Nat.mul_le_mul_right 32 this).trans (Nat.le_of_eq (by rw [← Nat.mul_assoc, Nat.mul_comm])))

include hfit

theorem decodeField_lossless {i : Nat} (hi : i < 32) (h : Nat) :
    decodeField d h (d.fieldWidth xs) (bits (Nat.ofDigits (2 ^ d.fieldWidth xs) (d.zigzags xs)) (d.fieldWidth xs * i) (d.fieldWidth xs)) = xs[i] := by
  have hz : i < (d.zigzags xs).length := by simp [Desc.zigzags, hl, hi]
  rw [bits_ofDigits (d.zigzags_lt xs) hz, decodeField, if_pos hc]
  simp only [Desc.zigzags, List.getElem_map]
  exact unzigzag_zigzag (typeBits_le d.type).1 (hfit _ (List.getElem_mem _))

end

/-- Settles O25: the payload's digits are the zig-zag codes, and the header names a width that holds each. -/
theorem losslessCodeIsLossless : Obligations.LosslessCodeIsLossless := by
  unfold Obligations.LosslessCodeIsLossless
  intro d xs ht _ hc hl hx
  have hfit : ∀ x ∈ xs, fitsBits (typeSigned d.type) (typeBits d.type) x := fun x hm => fitsBits_type (hx x hm)
  refine ⟨_, _, d.fieldWidth xs, compressVec_lossless hc, ?_, headerBits_lossless hc, fun i => ?_⟩
  · simp [leBytes_length, Desc.slotBytes, hc]
  · rw [leNat_leBytes, Option.getD_some, Nat.mod_eq_of_lt (fields_lt hl), decodeField_lossless hc hl hfit i.isLt]
    simp [hl]

end Sys2Proof.Machine
end

section
/-! The pages of the queues (R166, R182, R184, R186-R188, R525), the retirement of commands (R167, R173, R184), and the end of a WAIT
(R178, R187). -/

namespace Sys2Proof.Machine

/-! TAIL and the doorbells. -/

section
variable {req : Requester} {q : Fin 128} {v : Word} {s : State}

theorem exec_qtailWrite (hg : s.passes req (pgQ q) 0x05C) : exec (.qtailWrite req q v) s = .next (s.onChip fun c => c.tailWrite req q v) :=
  congrArg _ (s.onChip_gated req (pgQ q) 0x05C _ hg)

theorem exec_doorbell_write (offset : BitVec 16) : exec (.doorbell offset (some v)) s = .next (s.onChip fun c =>
    if offset.toNat % 8 = 0 ∧ offset.toNat / 8 < 128 then
      c.gated .host (pgQ (offset.toNat / 8)) 0x05C fun c => c.tailWrite .host (offset.toNat / 8) v
    else c) := rfl

theorem exec_doorbell_other {offset : BitVec 16} (h : ¬(offset.toNat % 8 = 0 ∧ offset.toNat / 8 < 128)) :
    exec (.doorbell offset (some v)) s = .next (s.onChip id) :=
  (exec_doorbell_write offset).trans (congrArg _ (s.onChip_congr _ id (if_neg h)))

/-- A write at a queue's own offset of BAR4 is the host's write of its TAIL. -/
theorem exec_doorbell_bell : exec (.doorbell (BitVec.ofNat 16 (8 * q)) (some v)) s = exec (.qtailWrite .host q v) s := by
  have hq : (BitVec.ofNat 16 (8 * q.val)).toNat = 8 * q := by rw [BitVec.toNat_ofNat]; lia
  have hd : 8 * q.val / 8 = q := Nat.mul_div_cancel_left _ (by decide)
  have hb : 8 * q.val % 8 = 0 ∧ q.val < 128 := by lia
  rw [exec_doorbell_write, hq, hd]
  exact congrArg _ (s.onChip_congr _ _ (if_pos hb))

theorem exec_doorbell_read (offset : BitVec 16) : exec (.doorbell offset none) s = .next (s.onChip fun c =>
    if offset.toNat % 8 = 0 ∧ offset.toNat / 8 < 128 then c.draw.2.reply 9 (.data (BitVec.ofNat 64 (Config.choice c.draw.1 % 2 ^ 32)))
    else c.reply 9 (.data 0)) := rfl

end

/-! SKIP, DRAIN and ENABLE. -/

section
variable {req : Requester} {q : Fin 128} {s : State}

theorem exec_skip (hg : s.passes req (pgQ q) 0x064) : exec (.skip req q) s = .next (s.onChip fun c => c.qcmd req q true false) :=
  congrArg _ (s.onChip_gated req (pgQ q) 0x064 _ hg)

theorem exec_drain (hg : s.passes req (pgQ q) 0x064) : exec (.drain req q) s = .next (s.onChip fun c => c.qcmd req q false true) :=
  congrArg _ (s.onChip_gated req (pgQ q) 0x064 _ hg)

theorem exec_queueEnable (hg : s.passes req (pgQ q) 0x00C) : exec (.queueEnable req q) s = .next (s.onChip fun c => c.queueEnableTo q true) :=
  congrArg _ (s.onChip_gated req (pgQ q) 0x00C _ hg)

theorem exec_queueDisable (hg : s.passes req (pgQ q) 0x00C) : exec (.queueDisable req q) s = .next (s.onChip fun c => c.queueEnableTo q false) :=
  congrArg _ (s.onChip_gated req (pgQ q) 0x00C _ hg)

end

namespace Chip

variable {c : Chip} {q : Nat}

theorem enabled_wrHead (c : Chip) (q : Nat) (v : Word) : (c.wr (pgQ q) 0x058 v).enabled (pgQ q) = c.enabled (pgQ q) := by
  unfold Chip.enabled Chip.bit Chip.fld
  rw [Chip.rd_wr_ne _ _ _ _ _ _ (regAddr_off_ne _ _ _ (by decide))]

theorem qstate_setEnable (c : Chip) (q : Nat) (b : Bool) : (c.setBit (pgQ q) 0x00C 0 b).qstate q = c.qstate q :=
  congrArg (fun v : Word => bits v.toNat 0 3) (c.rd_setBit_ne _ _ _ _ _ _ (regAddr_off_ne _ _ _ (by decide)))

theorem qcmd_refused (req : Requester) {b : Bool} (h : c.qstate q ≠ qError) :
    c.qcmd req q b (!b) = c.logUse (pgQ q) 0x07 req (regAddr (pgQ q) 0x064) := by
  cases b <;> simp [Chip.qcmd, h]

theorem qcmd_skip (req : Requester) (h : c.qstate q = qError) : c.qcmd req q true false =
    (c.wr (pgQ q) 0x058 (c.qhead q + 1)).setQstate q (if c.enabled (pgQ q) then qRunning else qStopped) := by
  simp [Chip.qcmd, h, enabled_wrHead]

theorem qcmd_drain (req : Requester) (h : c.qstate q = qError) : c.qcmd req q false true =
    (c.wr (pgQ q) 0x058 (c.qtail q)).setQstate q (if c.enabled (pgQ q) then qRunning else qStopped) := by
  simp [Chip.qcmd, h, enabled_wrHead]

theorem queueEnableTo_on (c : Chip) (q : Nat) : c.queueEnableTo q true = if c.qstate q = qStopped then
    (c.setBit (pgQ q) 0x00C 0 true).setQstate q qRunning else c.setBit (pgQ q) 0x00C 0 true := by
  simp [Chip.queueEnableTo, qstate_setEnable]

theorem running_setBit (c : Chip) (q p off b : Nat) (v : Bool) : (c.setBit p off b v).running q = c.running q := rfl

theorem queueEnableTo_off (c : Chip) (q : Nat) : c.queueEnableTo q false =
    let d := c.setBit (pgQ q) 0x00C 0 false
    if !c.enabled (pgQ q) then d
    else if c.qstate q = qRunning ∧ (c.running q).isNone then (d.setQstate q qStopped).raise (pgQ q) 2
    else if (c.running q).any fun r => r.op == 0x01 && !r.finished then ((d.setRunning q none).setQstate q qStopped).raise (pgQ q) 2
    else d := by
  simp [Chip.queueEnableTo, qstate_setEnable, running_setBit] <;> rfl

end Chip

/-- Settles O27: each command's case is one branch of the page's rule. -/
theorem queuePages : Obligations.QueuePages := by
  unfold Obligations.QueuePages
  refine ⟨fun req q v s => ⟨fun hg => ⟨fun h => ?taken, fun h => ?refused⟩, exec_doorbell_bell, fun hg h => ?bell⟩,
    fun offset v s => ⟨fun h => ⟨?write, ?read⟩, fun h h' => ?open_⟩, fun req q s => ⟨fun hg => ⟨fun h => ⟨?skip, ?drain⟩, fun h i hi => ?no⟩,
      fun hg => ⟨fun h => ?run, fun h => ?set, fun h => ?clear, fun he hn hr => ?stop, fun r hr => ⟨fun he ho hf => ?abandon, fun h => ?leave⟩⟩⟩⟩
  case taken => exact (exec_qtailWrite hg).trans (congrArg _ (s.onChip_congr _ _ (if_pos h)))
  case refused => exact (exec_qtailWrite hg).trans (congrArg _ (s.onChip_congr _ _ (if_neg h)))
  case bell => exact exec_doorbell_bell.trans ((exec_qtailWrite hg).trans (congrArg _ (s.onChip_congr _ _ (if_pos h))))
  case write => exact exec_doorbell_other (by omega)
  case read => exact (exec_doorbell_read offset).trans (congrArg _ (s.onChip_congr _ _ (if_neg (by omega))))
  case open_ =>
    refine ⟨BitVec.ofNat 32 (Config.choice s.chip.draw.1), (exec_doorbell_read offset).trans
      (congrArg _ (s.onChip_congr _ _ ((if_pos (by lia)).trans ?_)))⟩
    refine congrArg (fun x => s.chip.draw.2.reply 9 (.data x)) (BitVec.eq_of_toNat_eq ?_)
    simp only [BitVec.toNat_ofNat, BitVec.toNat_setWidth]
  case skip => exact (exec_skip hg).trans (congrArg _ (s.onChip_congr _ _ (Chip.qcmd_skip req h)))
  case drain => exact (exec_drain hg).trans (congrArg _ (s.onChip_congr _ _ (Chip.qcmd_drain req h)))
  case no =>
    simp only [List.mem_cons, List.not_mem_nil, or_false] at hi
    rcases hi with rfl | rfl
    · exact (exec_skip hg).trans (congrArg _ (s.onChip_congr _ _ (Chip.qcmd_refused req (b := true) h)))
    · exact (exec_drain hg).trans (congrArg _ (s.onChip_congr _ _ (Chip.qcmd_refused req (b := false) h)))
  case run => exact (exec_queueEnable hg).trans (congrArg _ (s.onChip_congr _ _ ((s.chip.queueEnableTo_on q).trans (if_pos h))))
  case set => exact (exec_queueEnable hg).trans (congrArg _ (s.onChip_congr _ _ ((s.chip.queueEnableTo_on q).trans (if_neg h))))
  case clear =>
    refine (exec_queueDisable hg).trans (congrArg _ (s.onChip_congr _ _ ((s.chip.queueEnableTo_off q).trans ?_)))
    rcases h with h | ⟨hr, hq⟩ <;> simp [*]
  case stop =>
    refine (exec_queueDisable hg).trans (congrArg _ (s.onChip_congr _ _ ((s.chip.queueEnableTo_off q).trans ?_)))
    simp [he, hn, hr]
  case abandon =>
    refine (exec_queueDisable hg).trans (congrArg _ (s.onChip_congr _ _ ((s.chip.queueEnableTo_off q).trans ?_)))
    simp [he, hr, ho, hf]
  case leave =>
    refine (exec_queueDisable hg).trans (congrArg _ (s.onChip_congr _ _ ((s.chip.queueEnableTo_off q).trans ?_)))
    rcases h with h | h <;> simp [hr, h]

/-! Retirement. -/

/-- A command that is not ready does not retire. -/
theorem retireCommand_idle {q : Nat} {w : Work}
    (h : w.chip.running q = none ∨ w.chip.tripped = true ∨ ∃ r, w.chip.running q = some r ∧ (r.finished = false ∨ r.awaiting ≠ [])) :
    retireCommand q w = (none, w) := by
  refine WM.bind_of_eq (getChip_apply w) ?_
  cases hr : w.chip.running q with
  | none => rfl
  | some r =>
    refine WM.if_neg (fun hn => ?_) rfl
    obtain ⟨hf, ha, ht⟩ := hn
    rcases h with h | h | ⟨r', h, h'⟩
    · simp [h] at hr
    · simp [h] at ht
    · obtain rfl : r' = r := by simpa [h] using hr
      rcases h' with h' | h'
      · simp [h'] at hf
      · exact h' ha

theorem exec_commandRetire_idle {q : Fin 128} {s : State}
    (h : s.chip.running q = none ∨ s.chip.tripped = true ∨ ∃ r, s.chip.running q = some r ∧ (r.finished = false ∨ r.awaiting ≠ [])) :
    exec (.commandRetire q) s = .next (s.onChip id) :=
  s.onMem_of_eq (WM.bind_of_eq (retireCommand_idle (w := s.work) h) rfl)

/-- A command that is ready, and whose retirement acts on no counter of this chip, retires. -/
theorem retireCommand_plain {q : Nat} {r : Running} {w : Work} (hr : w.chip.running q = some r) (ht : w.chip.tripped = false)
    (hf : r.finished = true) (ha : r.awaiting = []) (hs : r.status ≠ 0 ∨ w.chip.signalsHere r = false) :
    retireCommand q w = (some r, (w.recorded q r).onChip (·.retired q r)) := by
  refine WM.bind_of_eq (getChip_apply w) ?_
  rw [hr]
  dsimp only
  rw [if_pos (by simp [hf, ha, ht]), if_neg (by rcases hs with h | h <;> simp [h])]
  refine WM.bind_of_eq (WM.pure_apply r w) ?_
  exact WM.ite_of_eq (fun h => WM.bind_of_eq (retireErr_apply h q w) rfl) fun h => WM.bind_of_eq (retireOk_apply (not_not.mp h) q w) rfl

theorem exec_commandRetire_plain {q : Fin 128} {r : Running} {s : State} (hr : s.chip.running q = some r) (ht : s.chip.tripped = false)
    (hf : r.finished = true) (ha : r.awaiting = []) (hp : s.chip.posted q r.count = false)
    (hs : r.status ≠ 0 ∨ s.chip.signalsHere r = false) :
    Answers (.commandRetire q) s fun t => s.after t (s.work.recorded q r) (·.retired q r) := by
  refine ⟨_, exec_commandRetire q s, s.after_onWork _ (WM.bind_of_eq (retireCommand_plain (w := s.work) hr ht hf ha hs) ?_)⟩
  refine graphRetired_of_not_posted q _ _ ((Chip.posted_congr ?_ q r.count).trans hp)
  exact (Chip.retired_prc _ _ _).trans (Work.recorded_prc _ _ _)

/-- The chip after a retirement without error, with the boundary written out. -/
theorem Chip.boundary_eq (c : Chip) (q op : Nat) : c.boundary q (op == 0x03) =
    if op = 0x03 ∨ c.enabled (pgQ q) = false then (c.setQstate q qStopped).raise (pgQ q) 2 else c.setQstate q qRunning := by
  simp [Chip.boundary]

/-- Settles O31: a command that is ready retires by its status, and no slot of a graph hears of one that no frame posted. -/
theorem commandRetirement : Obligations.CommandRetirement := by
  unfold Obligations.CommandRetirement
  refine fun q s => ⟨fun h => ?idle, fun r hr => ⟨fun h => ?waits, fun ht hf ha hp => ⟨fun hs hh => ?ok, fun hs => ?err⟩⟩⟩
  case idle => exact exec_commandRetire_idle (h.elim (.inr ∘ .inl) .inl)
  case waits => exact exec_commandRetire_idle (.inr (.inr ⟨r, hr, h⟩))
  case ok =>
    obtain ⟨t, h, hafter⟩ := exec_commandRetire_plain hr ht hf ha hp (.inr hh)
    refine ⟨t, h, ?_⟩
    simp only [Chip.retired, if_neg (not_not.mpr hs), Chip.retiredOk, Chip.boundary_eq] at hafter
    exact hafter
  case err =>
    obtain ⟨t, h, hafter⟩ := exec_commandRetire_plain hr ht hf ha hp (.inl hs)
    refine ⟨t, h, ?_⟩
    simp only [Chip.retired, if_pos hs] at hafter
    exact hafter

/-! The end of a WAIT by its timeout: the account of the command's writes and the RESPs that it awaited go with it, so that a state which
lists some for a queue that waits comes out otherwise than the statement says. -/

theorem Chip.Passed.advanceTb (c : Chip) (v : Nat) : c.Passed (c.advanceTb v) := by
  unfold Chip.advanceTb
  split
  · exact .refl c
  · exact .advance c _

theorem Chip.endRunning_flight {c : Chip} {q : Nat} {r : Running} (h : c.running q = some r) (code : Nat) :
    (c.endRunning q code).queues.flight = adel c.queues.flight q := by
  simp [Chip.endRunning, h, Chip.setRunning]

theorem Chip.waitTimeout_flight {c : Chip} {q : Nat} {r : Running} (h : c.waiting q = some r) (hu : bits (r.w 2) 0 32 ≠ 0)
    (hm : c.waitMet r = false) : (c.waitTimeout q).queues.flight = adel c.queues.flight q := by
  have hq := (Chip.Passed.advanceTb c (r.started + 1000 * bits (r.w 2) 0 32)).rest
  have hr : (c.advanceTb (r.started + 1000 * bits (r.w 2) 0 32)).running q = some r := by
    rw [hq]
    exact (Option.filter_eq_some_iff.mp h).1
  have hf : (c.advanceTb (r.started + 1000 * bits (r.w 2) 0 32)).queues.flight = c.queues.flight := by rw [hq]
  rw [Chip.waitTimeout, h]
  dsimp only
  rw [if_neg (by simp [hu, hm])]
  exact (Chip.endRunning_flight hr 0x28).trans (by rw [hf])

/-- A WAIT for 1 on counter 0 with a timeout of 1 us. -/
def loneWait : Running := { count := 0, cw := [0x01, 1, 1], started := 0, executed := true }

/-- A queue that waits, with an account of writes left open for it. -/
def accountedWait : State :=
  { State.reset with chip := { State.reset.chip with queues := { State.reset.chip.queues with run := [(0, loneWait)], flight := [(0, {})] } } }

/-- Refutes O29: the timeout of a WAIT drops the account of its queue's writes, which the statement keeps. -/
theorem not_waitingCommands : ¬ Obligations.WaitingCommands := by
  unfold Obligations.WaitingCommands
  intro h
  obtain ⟨-, -, hto, -⟩ := h 0 accountedWait loneWait
  have hw : accountedWait.chip.waiting (0 : Fin 128) = some loneWait := by decide
  have hlt : accountedWait.chip.evt (bits loneWait.param 0 8) < loneWait.w 1 := by decide
  have hm : accountedWait.chip.waitMet loneWait = false := by simp [Chip.waitMet, hlt]
  have he := (hto hw hlt).2 (by decide)
  have hx : exec (.waitTimeout 0) accountedWait = .next (accountedWait.onChip fun c => c.waitTimeout 0) := rfl
  have hl : (accountedWait.chip.waitTimeout 0).queues.flight = [] :=
    (Chip.waitTimeout_flight (q := 0) hw (by decide) hm).trans (by decide)
  have hq := (Chip.Passed.advanceTb accountedWait.chip (loneWait.started + 1000 * bits (loneWait.w 2) 0 32)).rest
  have hr : (accountedWait.chip.advanceTb (loneWait.started + 1000 * bits (loneWait.w 2) 0 32)).queues.flight = [(0, {})] := by rw [hq]; rfl
  have hsame := congrArg (fun t : State => t.chip.queues.flight) (Host.Outcome.next.inj (hx.symm.trans he))
  rw [State.onChip_chip, Chip.settle_queues, hl, State.onChip_chip, Chip.settle_queues] at hsame
  exact absurd (hsame.trans hr) (by decide)

end Sys2Proof.Machine
end


section
/-! What a read through the Rood leaves of the units: the queues, the engines' work in hand, the link and the ports. -/

namespace Sys2Proof.Machine

/-- The parts of the chip that no access to memory changes. -/
def Chip.units (c : Chip) : Chip :=
  { c with regs := [], time := {}, bus := {}, vrg := {}, rood := {}, desc := {}, memc := {}, pcie := {}, cho := {}, pwr := {}, dma := {} }

/-! Changes of the chip that an access makes. -/

@[simp] theorem Chip.wr_units (c : Chip) (p off : Nat) (v : Word) : (c.wr p off v).units = c.units := rfl
@[simp] theorem Chip.setFld_units (c : Chip) (p off lo w v : Nat) : (c.setFld p off lo w v).units = c.units := rfl
@[simp] theorem Chip.setBit_units (c : Chip) (p off i : Nat) (v : Bool) : (c.setBit p off i v).units = c.units := rfl
@[simp] theorem Chip.count_units (c : Chip) (p off : Nat) : (c.count p off).units = c.units := rfl
@[simp] theorem Chip.raise_units (c : Chip) (p i : Nat) : (c.raise p i).units = c.units := rfl
@[simp] theorem Chip.journal_units (c : Chip) (e : JrnEntry) : (c.journal e).units = c.units := by
  unfold Chip.journal
  split <;> rfl
@[simp] theorem Chip.logErr_units (c : Chip) (p cls code info : Nat) (v : Word) : (c.logErr p cls code info v).units = c.units :=
  (Chip.journal_units _ _).trans rfl
@[simp] theorem Chip.draw_units (c : Chip) : c.draw.2.units = c.units := rfl
@[simp] theorem Chip.stamp_units (c : Chip) (bound : Nat) : (c.stamp bound).2.units = c.units := rfl
@[simp] theorem Chip.countSat_units (c : Chip) (p off w n : Nat) : (c.countSat p off w n).units = c.units := rfl
@[simp] theorem Chip.dropWb_units (c : Chip) (g : Nat) : (c.dropWb g).units = c.units := rfl
@[simp] theorem Chip.retireDone_units (c : Chip) (s : Nat) : (c.retireDone s).units = c.units := rfl
@[simp] theorem Chip.advance_units (c : Chip) (t : Nat) : (c.advance t).units = c.units := by
  rw [(Chip.Passed.advance c t).rest]
  rfl

/-- Changes that each leave the units as they are leave them so together. -/
theorem Chip.foldl_units {α : Type} (c : Chip) (l : List α) (f : Chip → α → Chip) (h : ∀ d a, (f d a).units = d.units) :
    (l.foldl f c).units = c.units :=
  List.foldlRecOn l f (motive := fun d => d.units = c.units) rfl fun d hd a _ => (h d a).trans hd

@[simp] theorem Chip.dropLocks_units (c : Chip) (ns : List Nat) : (c.dropLocks ns).units = c.units :=
  c.foldl_units ns _ fun _ _ => rfl

theorem Chip.memc_units (c : Chip) (m : MemCtl) : { c with memc := m }.units = c.units := rfl

@[simp] theorem Chip.clsWait_units (c : Chip) : c.clsWait.units = c.units := by
  unfold Chip.clsWait
  split
  · exact (Chip.memc_units _ _).trans ((Chip.setBit_units _ _ _ _ _).trans (c.advance_units _))
  · rfl

@[simp] theorem Chip.noteCe_units (c : Chip) (pa : Nat) : (c.noteCe pa).units = c.units := by
  unfold Chip.noteCe
  split <;> simp

@[simp] theorem Chip.noteUe_units (c : Chip) (pa src : Nat) : (c.noteUe pa src).units = c.units := by
  unfold Chip.noteUe
  split <;> simp

@[simp] theorem Chip.notePoison_units (c : Chip) (pa : Nat) : (c.notePoison pa).units = c.units := by
  unfold Chip.notePoison
  split <;> simp

@[simp] theorem Chip.pendWb_units (c : Chip) (g : Nat) : (c.pendWb g).units = c.units := by
  unfold Chip.pendWb
  split <;> rfl

@[simp] theorem Chip.refreshStalls_units (c : Chip) : c.refreshStalls.units = c.units := by
  rw [Chip.refreshStalls, Chip.wr_units]
  exact c.foldl_units _ _ fun _ _ => rfl

@[simp] theorem Chip.roodFault_units (c : Chip) (ctx : Nat) (k : AccType) (va code src : Nat) :
    (c.roodFault ctx k va code src).units = c.units := by
  unfold Chip.roodFault
  split
  next t d hd =>
    have h : d.units = c.units := by rw [← c.stamp_units 5, hd]
    dsimp only
    rw [← h]
    split <;> exact ((Chip.logErr_units _ _ _ _ _ _).trans rfl : _ = _)

/-! Computations. -/

/-- The computation leaves the units as it finds them. -/
def KeepsUnits {α : Type} (m : WM α) : Prop := ∀ w, (m w).2.chip.units = w.chip.units

theorem KeepsUnits.pure {α : Type} (a : α) : KeepsUnits (pure a) := fun _ => rfl

theorem KeepsUnits.bind {α β : Type} {m : WM α} {k : α → WM β} (hm : KeepsUnits m) (hk : ∀ a, KeepsUnits (k a)) : KeepsUnits (m >>= k) :=
  fun w => (hk (m w).1 (m w).2).trans (hm w)

theorem KeepsUnits.map {α β : Type} {m : WM α} (f : α → β) (hm : KeepsUnits m) : KeepsUnits (f <$> m) := fun w => hm w

theorem KeepsUnits.get : KeepsUnits get := fun _ => rfl
theorem KeepsUnits.getChip : KeepsUnits getChip := fun _ => rfl
theorem KeepsUnits.emit (op : MemOp) : KeepsUnits (emit op) := fun _ => rfl
theorem KeepsUnits.drawM : KeepsUnits drawM := fun _ => rfl

theorem KeepsUnits.onChip {f : Chip → Chip} (h : ∀ c, (f c).units = c.units) : KeepsUnits (chipM f) := fun w => h w.chip

theorem KeepsUnits.ite {α : Type} {p : Prop} [Decidable p] {a b : WM α} (ha : KeepsUnits a) (hb : KeepsUnits b) :
    KeepsUnits (if p then a else b) := by
  split
  · exact ha
  · exact hb

theorem KeepsUnits.mapM {α β : Type} {f : α → WM β} (h : ∀ a, KeepsUnits (f a)) : ∀ l : List α, KeepsUnits (l.mapM f)
  | [] => by simpa using pure _
  | a :: l => by
    rw [List.mapM_cons]
    exact bind (h a) fun _ => bind (mapM h l) fun _ => pure _

theorem KeepsUnits.loop {α β : Type} {f : α → β → WM (ForInStep β)} (h : ∀ a b, KeepsUnits (f a b)) :
    ∀ (l : List α) (b : β), KeepsUnits (forIn l b f)
  | [], b => by simpa using pure _
  | a :: l, b => by
    rw [List.forIn_cons]
    refine bind (h a b) fun x => ?_
    cases x with
    | done b => exact pure b
    | yield b => exact loop h l b

/-! The same for computations that may end with an error. -/

theorem KeepsUnits.bindE {α β : Type} {m : EM α} {k : α → EM β} (hm : KeepsUnits m.run) (hk : ∀ a, KeepsUnits (k a).run) :
    KeepsUnits (m >>= k).run := by
  rw [ExceptT.run_bind]
  refine bind hm fun x => ?_
  cases x with
  | ok a => exact hk a
  | error e => exact pure _

theorem KeepsUnits.mapE {α β : Type} {f : α → EM β} (h : ∀ a, KeepsUnits (f a).run) : ∀ l : List α, KeepsUnits (l.mapM f).run
  | [] => by simpa using pure _
  | a :: l => by
    rw [List.mapM_cons]
    exact bindE (h a) fun _ => bindE (mapE h l) fun _ => pure _

/-! Memory. -/

theorem readGranule_keepsUnits (src pa n : Nat) : KeepsUnits (readGranule src pa n) := by
  refine .bind .get fun w => ?_
  split
  · exact .pure _
  · exact .bind (.onChip fun c => by simp) fun _ => .bind (.emit _) fun _ => .pure _
  · exact .bind (.onChip fun c => by simp) fun _ => .bind (.emit _) fun _ => .pure _
  · exact .bind (.onChip fun c => by simp) fun _ => .pure _

theorem storeGranule_keepsUnits (pa : Nat) (bytes : List Byte) (m : Option Mark) : KeepsUnits (storeGranule pa bytes m) := by
  refine .bind .getChip fun c => .bind (.loop (fun _ _ => .bind (.emit _) fun _ => .pure _) _ _) fun _ => .ite ?_ (.pure _)
  exact .bind (.emit _) fun _ => .onChip fun c => by simp

theorem hostRead_keepsUnits (pa n : Nat) : KeepsUnits (hostRead pa n) := by
  refine .bind .get fun w => .ite (.bind (.onChip fun c => by simp) fun _ => .pure _) ?_
  refine .ite (.bind (.onChip fun c => rfl) fun _ => .pure _) ?_
  split
  · exact .bind (.onChip fun c => by simp) fun _ => .pure _
  · exact .pure _

theorem waitAccess_keepsUnits (src pa n : Nat) : KeepsUnits (waitAccess src pa n) :=
  .ite (.bind (.onChip fun c => by simp) fun _ => .onChip fun c => by simp) (.pure _)

theorem readPhys_keepsUnits (src pa n : Nat) : KeepsUnits (readPhys src pa n) := by
  refine .ite (.bind (hostRead_keepsUnits pa n) fun _ => .pure _) ?_
  refine .bind (waitAccess_keepsUnits src pa n) fun _ => .bind .getChip fun c => .bind (.mapM (fun a => ?_) _) fun _ => .pure _
  refine .bind (readGranule_keepsUnits _ _ _) fun x => ?_
  cases x <;> exact .pure _

/-! The windows' copies that an access waits for (R296, R298). -/

theorem copyWindow_keepsUnits (k : ChoCopy) : KeepsUnits (copyWindow k) := by
  refine .bind (.loop (fun g _ => .bind .get fun w => ?_) _ _) fun _ => .pure _
  refine .ite (.bind (readGranule_keepsUnits _ _ _) fun x => ?_) (.pure _)
  cases x with
  | some bs => exact .bind (storeGranule_keepsUnits _ _ _) fun _ => .pure _
  | none => exact .bind (.onChip fun c => by simp) fun _ => .pure _

theorem copyDone_keepsUnits : KeepsUnits copyDone := by
  refine .bind .getChip fun c => ?_
  split
  · exact .pure _
  · exact .bind (copyWindow_keepsUnits _) fun _ => .onChip fun c => (Chip.refreshStalls_units _).trans rfl

theorem copiesTo_keepsUnits (i : Nat) : ∀ n, KeepsUnits (copiesTo n i)
  | 0 => .pure _
  | n + 1 => .bind .getChip fun _ => .ite (.bind copyDone_keepsUnits fun _ => copiesTo_keepsUnits i n) (.pure _)

theorem windowWait_keepsUnits (pa : Nat) : KeepsUnits (windowWait pa) := .ite (.bind .getChip fun _ => copiesTo_keepsUnits _ _) (.pure _)

/-! The Rood (R98-R101, R111). -/

theorem readEntry_keepsUnits (table idx : Nat) : KeepsUnits (readEntry table idx) := by
  refine .bind .getChip fun c => .ite (.pure _) (.ite (.pure _) (.bind (readPhys_keepsUnits _ _ _) fun bs => ?_))
  cases leNat bs <;> exact .pure _

theorem walk_keepsUnits (ctx va : Nat) : KeepsUnits (walk ctx va) := by
  refine .bind .getChip fun c => .bind (readEntry_keepsUnits _ _) fun x => ?_
  cases x with
  | error e => exact .pure _
  | ok e1 =>
    refine .ite (.pure _) (.bind (readEntry_keepsUnits _ _) fun x => ?_)
    cases x with
    | error e => exact .pure _
    | ok e2 =>
      refine .ite (.pure _) (.ite (.pure _) (.bind (readEntry_keepsUnits _ _) fun x => ?_))
      cases x with
      | error e => exact .pure _
      | ok e3 => exact .ite (.pure _) (.pure _)

theorem walkAndCache_keepsUnits (ctx va : Nat) : KeepsUnits (walkAndCache ctx va) := by
  refine .bind (walk_keepsUnits ctx va) fun r => ?_
  cases r with
  | ok l => exact .bind (.onChip fun c => rfl) fun _ => .pure _
  | error e => exact .pure _

theorem lookup_keepsUnits (ctx va : Nat) : KeepsUnits (lookup ctx va) := by
  refine .bind .get fun w => ?_
  cases w.chip.cachedLeaf ctx va with
  | none => exact walkAndCache_keepsUnits ctx va
  | some l => exact .ite (.pure _) (.bind .drawM fun _ => .ite (.pure _) (walk_keepsUnits ctx va))

theorem translate_keepsUnits (ctx : Nat) (k : AccType) (va : Nat) : KeepsUnits (translate ctx k va) := by
  refine .bind .getChip fun c => .ite (.pure _) (.ite (.pure _) (.bind (lookup_keepsUnits ctx va) fun x => ?_))
  cases x with
  | error e => exact .pure _
  | ok l => exact .ite (.pure _) (.bind (windowWait_keepsUnits _) fun _ => .bind .getChip fun _ => .ite (.pure _) (.pure _))

theorem burstPa_keepsUnits (ctx src : Nat) (k : AccType) (va : Nat) : KeepsUnits (burstPa ctx src k va) := by
  refine .bind (translate_keepsUnits ctx k va) fun x => ?_
  cases x with
  | ok pa => exact .pure _
  | error e => exact .bind (.onChip fun c => by simp) fun _ => .pure _

theorem readVaAs_keepsUnits (code ctx src : Nat) (k : AccType) (va n : Nat) : KeepsUnits (readVaAs code ctx src k va n).run := by
  refine .bindE (.mapE (fun a => .bindE (.map _ (burstPa_keepsUnits _ _ _ _)) fun x => ?_) _) fun _ => .pure _
  cases x with
  | none => exact .pure _
  | some pa => exact .map _ (readPhys_keepsUnits _ _ _)

end Sys2Proof.Machine
end


section
/-! The fetch of a command: the choice of a queue, and what becomes of the slot read. -/

namespace Sys2Proof.Machine

/-! The queue that a unit starts next. -/

theorem le_foldl_max {l : List Nat} {x : Nat} (a : Nat) (h : x ∈ l) : x ≤ l.foldl max a := by
  by_contra hn
  obtain ⟨-, hall⟩ := (foldl_max_lt_iff l a).mp (Nat.lt_of_not_le hn)
  exact absurd (hall x h) (Nat.lt_irrefl x)

theorem Chip.pickQueue_spec {c : Chip} {u : EngUnit} {q : Nat} (h : c.pickQueue u = some q) : q ∈ unitQueues u ∧ c.qready q = true ∧
    ∀ p, p ∈ unitQueues u → c.qready p = true → c.fld (pgQ p) 0x04C 4 2 ≤ c.fld (pgQ q) 0x04C 4 2 := by
  by_cases hb : (unitSerial u && (c.vecActive u).isSome) = true
  · simp [Chip.pickQueue, hb] at h
  · simp only [Chip.pickQueue, if_neg hb] at h
    have hm : q ∈ ((unitQueues u).filter c.qready).filter fun q => c.fld (pgQ q) 0x04C 4 2 ==
        (((unitQueues u).filter c.qready).map fun q => c.fld (pgQ q) 0x04C 4 2).foldl max 0 := by
      split at h
      · next hf => exact Option.some.inj h ▸ List.mem_of_find?_eq_some hf
      · exact List.mem_of_mem_head? h
    obtain ⟨hr, hp⟩ := List.mem_filter.mp hm
    obtain ⟨hu, hq⟩ := List.mem_filter.mp hr
    refine ⟨hu, hq, fun p hpu hpr => ?_⟩
    rw [beq_iff_eq.mp hp]
    exact le_foldl_max 0 (List.mem_map_of_mem (List.mem_filter.mpr ⟨hpu, hpr⟩))

/-! A fetched command. -/

/-- The command that a unit has read from its slot, before its checks. -/
def Chip.read32 (c : Chip) (u : EngUnit) (q : Nat) (cw : List DWord) : Running :=
  { count := c.qhead q, cw := cw, started := c.time.tb.toNat, debug := c.debugOn (pgQ q :: c.unitPages u) }

/-- A command that ends with a code before it is executed. -/
def Running.refused (r : Running) (code : Nat) : Running := { r with status := code, finished := true, executed := true }

/-- What a unit makes of a command whose words it has read. -/
def Chip.taken (c : Chip) (u : EngUnit) (q : Nat) (r : Running) : Chip :=
  if c.unitFailed u then c.setRunning q (some (r.refused 0x2C))
  else match c.startCheck q r with
    | .error e => (c.noteDescReads (c.startReads q r)).setRunning q (some (r.refused e))
    | .ok ds =>
      if r.op < 4 ∧ c.noStall q then c.setRunning q (some (r.refused 0x80))
      else (c.noteDescReads (c.startReads q r)).setRunning q (some { r with descs := ds })

/-- The mark of a slot that was rewritten between HEAD and TAIL goes as the slot is read. -/
def Chip.untorn (c : Chip) (q : Nat) (head : Word) : Chip :=
  { c with queues := { c.queues with torn := c.queues.torn.filter fun t => t != (q, head) } }

/-- A unit turns to a queue. -/
def Chip.turn (c : Chip) (u : EngUnit) (q : Nat) : Chip :=
  { c with queues := { c.queues with last := aput c.queues.last (unitNum u) q } }

section
variable {c : Chip} {u : EngUnit} {q : Nat} {r : Running}

theorem Chip.taken_failed (h : c.unitFailed u = true) : (c.taken u q r).running q = some (r.refused 0x2C) := by
  rw [Chip.taken, if_pos h, Chip.running_setRunning_same]

theorem Chip.taken_error {e : Nat} (h : c.unitFailed u = false) (he : c.startCheck q r = .error e) :
    (c.taken u q r).running q = some (r.refused e) := by
  rw [Chip.taken, if_neg (by simp [h]), he, Chip.running_setRunning_same]

theorem Chip.taken_noStall {ds : List (Option (List DWord))} (h : c.unitFailed u = false) (he : c.startCheck q r = .ok ds)
    (hn : r.op < 4 ∧ c.noStall q = true) : (c.taken u q r).running q = some (r.refused 0x80) := by
  rw [Chip.taken, if_neg (by simp [h]), he]
  dsimp only
  rw [if_pos hn, Chip.running_setRunning_same]

theorem Chip.taken_ok {ds : List (Option (List DWord))} (h : c.unitFailed u = false) (he : c.startCheck q r = .ok ds)
    (hn : ¬(r.op < 4 ∧ c.noStall q = true)) : (c.taken u q r).running q = some { r with descs := ds } := by
  rw [Chip.taken, if_neg (by simp [h]), he]
  dsimp only
  rw [if_neg hn, Chip.running_setRunning_same]

theorem Chip.taken_count (c : Chip) (u : EngUnit) (q : Nat) (r : Running) : ∃ r', (c.taken u q r).running q = some r' ∧ r'.count = r.count := by
  cases h : c.unitFailed u with
  | true => exact ⟨_, Chip.taken_failed h, rfl⟩
  | false => cases he : c.startCheck q r with
    | error e => exact ⟨_, Chip.taken_error h he, rfl⟩
    | ok ds => by_cases hn : r.op < 4 ∧ c.noStall q = true
               · exact ⟨_, Chip.taken_noStall h he hn, rfl⟩
               · exact ⟨_, Chip.taken_ok h he hn, rfl⟩

end

/-! The stages of a fetch. -/

/-- The read of the slot at HEAD. -/
def Chip.slotRead (c : Chip) (u : EngUnit) (q : Nat) : WM (Except Nat (List (Option Byte))) :=
  (readVaAs 0x2E (c.qctx q) (c.unitSrc u) 2 (c.rd64 (pgQ q) 0x040 + 32 * ((c.qhead q).toNat % c.qslots q)) 32).run

/-- The words of a slot that was read clean. -/
def slotWords (bs : List (Option Byte)) : Option (List Nat) := (List.range 4).mapM fun i => leNat ((bs.drop (8 * i)).take 8)

/-- What a unit does with the words of a slot. -/
def takeWords (u : EngUnit) (q : Nat) (r : Running) : WM Unit := do
  let c ← getChip
  if c.unitFailed u then chipM fun c => c.setRunning q (some (r.refused 0x2C))
  else match c.startCheck q r with
    | .error e => chipM fun c => (c.noteDescReads (c.startReads q r)).setRunning q (some (r.refused e))
    | .ok ds =>
      if r.op < 4 ∧ c.noStall q then chipM fun c => c.setRunning q (some (r.refused 0x80))
      else chipM fun c => (c.noteDescReads (c.startReads q r)).setRunning q (some { r with descs := ds })

theorem takeWords_apply (u : EngUnit) (q : Nat) (r : Running) (w : Work) : takeWords u q r w = ((), w.onChip (·.taken u q r)) := by
  refine WM.bind_of_eq (getChip_apply w) (WM.ite_of_eq (fun h => ?_) fun h => ?_)
  · rw [chipM_apply, Work.onChip, Chip.taken, if_pos h]
  · rw [Work.onChip, Chip.taken, if_neg h]
    cases w.chip.startCheck q r with
    | error e => rfl
    | ok ds => exact WM.ite_of_eq (fun h => by dsimp only; rw [if_pos h]; rfl) fun h => by dsimp only; rw [if_neg h]; rfl

theorem WM.bind_congr {α β : Type} {m : WM α} {k k' : α → WM β} {w : Work} (h : ∀ a v, k a v = k' a v) : (m >>= k) w = (m >>= k') w := by
  rw [WM.bind_apply, WM.bind_apply, h]

/-- What follows the read of a slot. -/
def Chip.fetched (c : Chip) (u : EngUnit) (q : Nat) : Except Nat (List (Option Byte)) → WM Unit
  | .error e => chipM fun d => d.setRunning q (some ((c.read32 u q []).refused e))
  | .ok bs =>
    match slotWords bs with
    | none => chipM fun d => d.setRunning q (some ((c.read32 u q ((leNat (bs.take 8)).toList.map (BitVec.ofNat 64))).refused 0x2F))
    | some ws => do
      let ws ← if c.queues.torn.contains (q, c.qhead q) then tornWords else pure ws
      chipM (·.untorn q (c.qhead q))
      takeWords u q (c.read32 u q (ws.map (BitVec.ofNat 64)))

theorem fetchQueue_apply (u : EngUnit) (q : Nat) (w : Work) :
    fetchQueue u q w = (do w.chip.fetched u q (← w.chip.slotRead u q)) (w.onChip (·.turn u q)) := by
  refine WM.bind_of_eq rfl (WM.bind_of_eq rfl (WM.bind_congr fun x v => ?_))
  cases x with
  | error e => rfl
  | ok bs =>
    unfold Chip.fetched slotWords
    dsimp only
    cases (List.range 4).mapM fun i => leNat ((bs.drop (8 * i)).take 8) <;> rfl

section
variable {u : EngUnit} {q : Nat} {c : Chip} {v : Work} {bs : List (Option Byte)}

theorem Chip.fetched_fault (e : Nat) : c.fetched u q (.error e) v = ((), v.onChip (·.setRunning q (some ((c.read32 u q []).refused e)))) := rfl

theorem Chip.fetched_poison (h : slotWords bs = none) : c.fetched u q (.ok bs) v = ((), v.onChip (·.setRunning q (some
    ((c.read32 u q ((leNat (bs.take 8)).toList.map (BitVec.ofNat 64))).refused 0x2F)))) := by
  rw [Chip.fetched, h]
  rfl

/-- The words of a clean slot, free ones where it was rewritten, start the command. -/
theorem Chip.fetched_words {ws ws' : List Nat} {v' : Work} (h : slotWords bs = some ws)
    (hd : (if c.queues.torn.contains (q, c.qhead q) then tornWords else pure ws : WM (List Nat)) v = (ws', v')) :
    c.fetched u q (.ok bs) v =
      ((), v'.onChip fun d => (d.untorn q (c.qhead q)).taken u q (c.read32 u q (ws'.map (BitVec.ofNat 64)))) := by
  rw [Chip.fetched, h]
  have hend := takeWords_apply u q (c.read32 u q (ws'.map (BitVec.ofNat 64))) (v'.onChip (·.untorn q (c.qhead q)))
  refine WM.ite_of_eq (fun ht => ?_) fun ht => ?_
  · rw [if_pos ht] at hd
    exact WM.bind_of_eq hd (WM.bind_of_eq rfl hend)
  · rw [if_neg ht] at hd
    exact WM.bind_of_eq hd (WM.bind_of_eq rfl hend)

theorem Chip.slotRead_torn {w : Work} {x : Except Nat (List (Option Byte))} (h : c.slotRead u q (w.onChip (·.turn u q)) = (x, v)) :
    v.chip.queues.torn = w.chip.queues.torn := by
  have hk := readVaAs_keepsUnits 0x2E (c.qctx q) (c.unitSrc u) 2 (c.rd64 (pgQ q) 0x040 + 32 * ((c.qhead q).toNat % c.qslots q)) 32
    (w.onChip (·.turn u q))
  rw [show (readVaAs _ _ _ _ _ _).run (w.onChip (·.turn u q)) = (x, v) from h] at hk
  exact (congrArg (fun c : Chip => c.queues.torn) hk : v.chip.units.queues.torn = (w.chip.turn u q).units.queues.torn)

end

theorem tornWords_keeps (v : Work) : (tornWords v).2.ops = v.ops := by
  simp [tornWords, List.range, List.range.loop, List.mapM_cons]

/-! The command. -/

section
variable {u : EngUnit} {q : Nat} {s : State} {w v : Work}

theorem State.work_queues (s : State) : s.work.chip.queues = s.chip.queues := rfl

theorem exec_commandFetch_idle (h : s.chip.unitRuns u = false ∧ s.chip.unitFailed u = false ∨ s.chip.pickQueue u = none) :
    exec (.commandFetch u) s = .next (s.onChip id) := by
  refine s.onMem_of_eq (WM.bind_of_eq (getChip_apply s.work) ?_)
  rcases h with ⟨hr, hf⟩ | hp
  · exact WM.if_neg (by simp [State.work, hr, hf]) rfl
  · refine WM.ite_of_eq (fun _ => ?_) fun _ => rfl
    rw [show s.work.chip.pickQueue u = none from hp]
    rfl

theorem exec_commandFetch_pick (hu : s.chip.unitRuns u = true ∨ s.chip.unitFailed u = true) (hq : s.chip.pickQueue u = some q) :
    exec (.commandFetch u) s = s.onMem (fetchQueue u q) := by
  refine congrArg (fun x : Unit × Work => Host.Outcome.next (s.leave x.2)) ?_
  refine WM.bind_of_eq (getChip_apply s.work) (WM.if_pos hu ?_)
  rw [show s.work.chip.pickQueue u = some q from hq]
  rfl

/-- A fetch leaves what follows the read of its slot. -/
theorem fetch_after {x : Except Nat (List (Option Byte))} {f : Chip → Chip} (hu : s.chip.unitRuns u = true ∨ s.chip.unitFailed u = true)
    (hq : s.chip.pickQueue u = some q) (hr : s.chip.slotRead u q (s.work.onChip (·.turn u q)) = (x, w))
    (h : s.chip.fetched u q x w = ((), v.onChip f)) : Answers (.commandFetch u) s fun t => s.after t v f :=
  ⟨_, exec_commandFetch_pick hu hq, s.after_onWork _ ((fetchQueue_apply u q s.work).trans (WM.bind_of_eq hr h))⟩

/-- A fetch of a clean slot starts its command. -/
theorem fetch_words {bs : List (Option Byte)} {ws : List Nat} (hu : s.chip.unitRuns u = true ∨ s.chip.unitFailed u = true)
    (hq : s.chip.pickQueue u = some q) (hr : s.chip.slotRead u q (s.work.onChip (·.turn u q)) = (.ok bs, w))
    (hw : slotWords bs = some ws) (ht : w.chip.queues.torn.contains (q, s.chip.qhead q) = false) :
    Answers (.commandFetch u) s fun t =>
      t.chip.running q = ((w.chip.untorn q (s.chip.qhead q)).taken u q (s.chip.read32 u q (ws.map (BitVec.ofNat 64)))).running q ∧
      t.mem = s.mem.applyAll w.ops.reverse := by
  obtain ⟨t, he, -, -, hm, hc⟩ := fetch_after hu hq hr (Chip.fetched_words hw (by rw [← s.work_queues, ← Chip.slotRead_torn hr, ht]; rfl))
  exact ⟨t, he, by rw [hc]; rfl, hm⟩

/-- A slot that was rewritten is fetched with free words. -/
theorem fetch_torn {bs : List (Option Byte)} {ws : List Nat} (hu : s.chip.unitRuns u = true ∨ s.chip.unitFailed u = true)
    (hq : s.chip.pickQueue u = some q) (hr : s.chip.slotRead u q (s.work.onChip (·.turn u q)) = (.ok bs, w))
    (hw : slotWords bs = some ws) (ht : w.chip.queues.torn.contains (q, s.chip.qhead q) = true) :
    Answers (.commandFetch u) s fun t =>
      t.mem = s.mem.applyAll w.ops.reverse ∧ (t.chip.running q).any (fun r => r.count == s.chip.qhead q) = true := by
  obtain ⟨ws', v, hd⟩ : ∃ ws' v, tornWords w = (ws', v) := ⟨_, _, rfl⟩
  obtain ⟨t, he, -, -, hm, hc⟩ := fetch_after hu hq hr
    (Chip.fetched_words hw (WM.if_pos (by rw [← s.work_queues, ← Chip.slotRead_torn hr, ht]) hd))
  obtain ⟨r, hr, hcount⟩ := Chip.taken_count (v.chip.untorn q (s.chip.qhead q)) u q (s.chip.read32 u q (ws'.map (BitVec.ofNat 64)))
  have hops : v.ops = w.ops := (congrArg (fun x => x.2.ops) hd).symm.trans (tornWords_keeps w)
  refine ⟨t, he, hm.trans (by rw [hops]), ?_⟩
  rw [hc, show ∀ c : Chip, c.settle.running q = c.running q from fun _ => rfl, hr]
  exact beq_iff_eq.mpr hcount

end

/-- Settles O28: the queue is the one chosen, and each end of the fetch is one of what follows the read of its slot. -/
theorem commandFetch : Obligations.CommandFetch := by
  unfold Obligations.CommandFetch
  refine fun u s => ⟨fun hr hf => exec_commandFetch_idle (.inl ⟨hr, hf⟩), fun hp => exec_commandFetch_idle (.inr hp),
    fun q => Chip.pickQueue_spec, fun hu q hq => ⟨fun e w hr => ?fault, fun bs w hr => ⟨fun hp => ?poison, fun ws hw ht => ?torn,
      fun ws hw ht => ⟨fun hf => ?failed, fun hf e he => ?error, fun hf ds hd => ⟨fun hn => ?start, fun ho hn => ?noStall⟩⟩⟩⟩⟩
  case fault => exact fetch_after hu hq hr (Chip.fetched_fault e)
  case poison => exact fetch_after hu hq hr (Chip.fetched_poison hp)
  case torn => exact fetch_torn hu hq hr hw ht
  case failed =>
    obtain ⟨t, ha, h, hm⟩ := fetch_words hu hq hr hw ht
    exact ⟨t, ha, h.trans (Chip.taken_failed hf), hm⟩
  case error =>
    obtain ⟨t, ha, h, hm⟩ := fetch_words hu hq hr hw ht
    exact ⟨t, ha, h.trans (Chip.taken_error hf he), hm⟩
  case start =>
    obtain ⟨t, ha, h, hm⟩ := fetch_words hu hq hr hw ht
    exact ⟨t, ha, h.trans (Chip.taken_ok hf hd hn), hm⟩
  case noStall =>
    obtain ⟨t, ha, h, hm⟩ := fetch_words hu hq hr hw ht
    exact ⟨t, ha, h.trans (Chip.taken_noStall hf hd ⟨ho, hn⟩), hm⟩

end Sys2Proof.Machine
end


section
/-! The scatter that an error ends after it has counted (R154): what the record of its command then holds. -/

namespace Sys2Proof.Machine

/-- Tables that map the 2 MiB at 0x10000000 to themselves, readable and writable (R98): entry 0 of the table at 0x11FFE000 points at a
second table, whose entry 128 is the leaf. -/
def mappedCells : List Host.Cell :=
  [(0x11FFE000, 0x03), (0x11FFE001, 0xF0), (0x11FFE002, 0xFF), (0x11FFE003, 0x11), (0x11FFF400, 0x1D), (0x11FFF403, 0x10)]

/-- Cloister and context 1, with its tables at 0x11FFE000, enabled. -/
def mappedChip : Chip :=
  [(0x070, 0x00C, 1), (0x070, 0x044, 2048), (0x072, 0x060, 1), (0x072, 0x068, 0x11FFE000), (pgQ 0, 0x04C, 1), (0x060, 0x060, 0x10000)].foldl
    (fun c (r : Nat × Nat × Nat) => c.wr r.1 r.2.1 (word r.2.2)) State.reset.chip

/-- The words of a readable and writable descriptor of two elements, under EDGE = CONST. -/
def pairDesc (base type : Nat) : List DWord :=
  [BitVec.ofNat 64 (base + type * 2 ^ 40 + 1 * 2 ^ 44 + 3 * 2 ^ 51 + 1 * 2 ^ 53), 0, 1, 0, 1, 0, 0, 0]

/-- A SCATTER of two elements of UINT8 under indices of INT16 into memory that nothing maps. -/
def droppedScatter : Running :=
  { count := 0, cw := [0x12, 0, 0, 0], started := 0,
    descs := [some (pairDesc 0x10000100 2), some (pairDesc 0x10000400 3), some (pairDesc 0x10200000 2), none] }

/-- The first index is 5, which the rule drops, and the second one is 0. -/
def droppedState : State :=
  { State.reset with
    chip := mappedChip.setRunning 0 (some droppedScatter)
    mem := { cells := (0x10000400, 5) :: mappedCells, marks := [] } }

/-- The code of an execution that an error ends. -/
def errorOf {α : Type} : Except Nat α → Option Nat
  | .ok _ => none
  | .error e => some e

theorem eq_error_of_errorOf {α : Type} {x : Except Nat α × Work} {e : Nat} (h : errorOf x.1 = some e) : ∃ w, x = (.error e, w) := by
  obtain ⟨_ | e', w⟩ := x
  · next e' => exact ⟨w, by rw [Option.some.inj h]⟩
  · cases h

/-- The store of the second element ends the command, as its destination has no translation. -/
theorem droppedScatter_ends : ∃ w, (runBody 0 (scatterBody 0) droppedScatter).run droppedState.work = (.error 0x24, w) :=
  eq_error_of_errorOf (by decide +kernel)

/-- The count of dropped elements that a command leaves in the record of a queue's command. -/
def droppedAfter (i : Instr) (s : State) (q : Nat) : Option Nat := match exec i s with
  | .next t => (t.chip.running q).map Running.dropped
  | _ => none

theorem droppedScatter_counts : droppedAfter (.scatter 0) droppedState 0 = some 1 := by decide +kernel

/-- Refutes O32: an element that is dropped before a fault ends the SCATTER counts in the command's record, which the statement takes to be
the fetched one with the code. -/
theorem not_movingCommandsExecute : ¬ Obligations.MovingCommandsExecute := by
  unfold Obligations.MovingCommandsExecute
  intro h
  obtain ⟨-, -, -, hscatter, -⟩ := h 0
  obtain ⟨-, -, -, herr⟩ := hscatter droppedState droppedScatter (by decide +kernel) (by decide +kernel) (.inl (by decide +kernel))
  obtain ⟨w, hw⟩ := droppedScatter_ends
  obtain ⟨t, ht, hr⟩ := herr 0x24 w hw (by decide) (by decide)
  have hc := droppedScatter_counts
  rw [droppedAfter, ht] at hc
  simp only [show t.chip.running 0 = _ from hr] at hc
  exact absurd (Option.some.inj hc) (by decide)

end Sys2Proof.Machine
end


section
/-! What the engines' bodies leave of the units: they read and store tensors, count on their pages, and change no queue, no port and no
graph. A command is finished by its own execution alone. -/

namespace Sys2Proof.Machine

/-! Writes. -/

theorem writeGranule_keepsUnits (src pa n off : Nat) (new : List (Option Byte)) : KeepsUnits (writeGranule src pa n off new) := by
  refine .bind .get fun w => .ite (storeGranule_keepsUnits _ _ _) ?_
  dsimp only
  split
  · exact storeGranule_keepsUnits _ _ _
  · exact .bind (.onChip fun c => by simp) fun _ => storeGranule_keepsUnits _ _ _
  · exact .bind (.onChip fun c => by simp) fun _ => storeGranule_keepsUnits _ _ _
  · exact storeGranule_keepsUnits _ _ _

theorem hostWrite_keepsUnits (pa : Nat) (bytes : List (Option Byte)) : KeepsUnits (hostWrite pa bytes) := by
  refine .bind .getChip fun c => .ite (.pure _) ?_
  split
  · exact .onChip fun c => by simp
  · exact .bind (.loop (fun _ _ => .bind (.emit _) fun _ => .pure _) _ _) fun _ => .pure _

theorem writePhys_keepsUnits (src pa : Nat) (bytes : List (Option Byte)) : KeepsUnits (writePhys src pa bytes) := by
  refine .bind (waitAccess_keepsUnits _ _ _) fun _ => .bind .getChip fun c => ?_
  split
  · exact .bind (hostWrite_keepsUnits _ _) fun _ => .pure _
  · refine .ite (.bind (.onChip fun c => by simp) fun _ => .pure _) ?_
    exact .bind (.loop (fun _ _ => .bind (writeGranule_keepsUnits _ _ _ _ _) fun _ => .pure _) _ _) fun _ => .pure _

theorem havocPhys_keepsUnits (src pa n : Nat) : KeepsUnits (havocPhys src pa n) := by
  refine .bind (.loop (fun _ _ => .bind .drawM fun _ => .pure _) _ _) fun bs => .bind .drawM fun k => ?_
  exact .bind .getChip fun c => .bind (writePhys_keepsUnits _ _ _) fun _ => .pure _

theorem havocBytes_keepsUnits (ctx src va n : Nat) : KeepsUnits (havocBytes ctx src va n) := by
  refine .bind (.loop (fun a _ => .bind .get fun w => ?_) _ _) fun _ => .pure _
  split
  · exact .pure _
  · exact .bind (havocPhys_keepsUnits _ _ _) fun _ => .pure _

theorem havocOpd_keepsUnits (o : Opd) (keep : Nat) : KeepsUnits (havocOpd o keep) := by
  refine .bind (.loop (fun lin _ => ?_) _ _) fun _ => .pure _
  have hscale : ∀ x : PUnit, KeepsUnits (if o.d.scaleEn = true then do
      havocBytes o.ctx o.src ((o.d.scaleVa : Int) + o.d.offset lin).toNat 1
      pure (ForInStep.yield x) else pure (ForInStep.yield x)) := fun _ =>
    .ite (.bind (havocBytes_keepsUnits _ _ _ _) fun _ => .pure _) (.pure _)
  exact .ite (.bind (havocBytes_keepsUnits _ _ _ _) fun _ => hscale _) (.bind (havocBytes_keepsUnits _ _ _ _) fun _ => hscale _)

theorem Chip.lbParity_units (c : Chip) (p n : Nat) : (c.lbParity p n).units = c.units := c.foldl_units _ _ fun _ _ => by simp

/-! Computations of engines. -/

/-- The computation, with or without an error, leaves the units as it finds them. -/
def BodyKeeps {α : Type} (m : EM α) : Prop := KeepsUnits m.run

namespace BodyKeeps
variable {α β : Type}

theorem pure (a : α) : BodyKeeps (pure a) := fun _ => rfl
theorem throw (e : Nat) : BodyKeeps (throw e : EM α) := fun _ => rfl
theorem get : BodyKeeps get := fun _ => rfl
theorem bind {m : EM α} {k : α → EM β} (hm : BodyKeeps m) (hk : ∀ a, BodyKeeps (k a)) : BodyKeeps (m >>= k) := KeepsUnits.bindE hm hk
theorem map {m : EM α} (f : α → β) (hm : BodyKeeps m) : BodyKeeps (f <$> m) := by
  rw [map_eq_pure_bind]
  exact bind hm fun _ => pure _
theorem lift {m : WM α} (hm : KeepsUnits m) : BodyKeeps (liftM m) := fun w => hm w
theorem ofChip {f : Chip → Chip} (h : ∀ c, (f c).units = c.units) : BodyKeeps (modify fun w => w.onChip f : EM Unit) := fun w => h w.chip
theorem ite {p : Prop} [Decidable p] {a b : EM α} (ha : BodyKeeps a) (hb : BodyKeeps b) : BodyKeeps (if p then a else b) := by
  split
  · exact ha
  · exact hb
/-- A choice with what follows it, which Lean writes after either branch. -/
theorem iteBind {p : Prop} [Decidable p] {a b : EM α} {k : α → EM β} (ha : BodyKeeps a) (hb : BodyKeeps b) (hk : ∀ x, BodyKeeps (k x)) :
    BodyKeeps (if p then a >>= k else b >>= k) := ite (bind ha hk) (bind hb hk)
theorem iteOnly {p : Prop} [Decidable p] {a : EM PUnit} {k : PUnit → EM β} (ha : BodyKeeps a) (hk : ∀ x, BodyKeeps (k x)) :
    BodyKeeps (if p then a >>= k else k ⟨⟩) := ite (bind ha hk) (hk _)
theorem mapM {f : α → EM β} (h : ∀ a, BodyKeeps (f a)) (l : List α) : BodyKeeps (l.mapM f) := KeepsUnits.mapE h l
theorem foldlM {f : β → α → EM β} (h : ∀ b a, BodyKeeps (f b a)) : ∀ (l : List α) (b : β), BodyKeeps (l.foldlM f b)
  | [], b => pure b
  | a :: l, b => bind (h b a) fun b => foldlM h l b
theorem loop {f : α → β → EM (ForInStep β)} (h : ∀ a b, BodyKeeps (f a b)) : ∀ (l : List α) (b : β), BodyKeeps (forIn l b f)
  | [], b => by simpa using pure b
  | a :: l, b => by
    rw [List.forIn_cons]
    refine bind (h a b) fun x => ?_
    cases x with
    | done b => exact pure b
    | yield b => exact loop h l b

/-! Tensors read and stored. -/

theorem readVa (ctx src va n : Nat) : BodyKeeps (readVa ctx src va n) := readVaAs_keepsUnits _ _ _ _ _ _

theorem writeVa (ctx src va : Nat) (bytes : List (Option Byte)) : BodyKeeps (writeVa ctx src va bytes) := by
  refine bind (loop (fun a _ => bind (lift (burstPa_keepsUnits _ _ _ _)) fun x => ?_) _ _) fun _ => pure _
  cases x with
  | none => exact throw _
  | some pa => exact bind (lift (writePhys_keepsUnits _ _ _)) fun b => ite (throw _) (fun _ => rfl)

theorem loadSlot (o : Opd) (lin : Nat) : BodyKeeps (loadSlot o lin) := by
  refine bind get fun w => ?_
  dsimp only
  split
  · exact bind (readVa _ _ _ _) fun _ => pure _
  · refine bind (readVa _ _ _ _) fun x => ?_
    split <;> exact pure _

theorem loadVec (o : Opd) (lin : Nat) : BodyKeeps (loadVec o lin) :=
  bind (ite (loadSlot o lin) (bind (readVa _ _ _ _) fun _ => pure _)) fun _ =>
    bind (ite (bind (readVa _ _ _ _) fun _ => pure _) (pure _)) fun _ => pure _

theorem loadFor (o : Opd) (idxs : List (List Int)) : BodyKeeps (loadFor o idxs) := by
  refine ite (throw _) ?_
  have hload : ∀ need : List Nat, BodyKeeps (need.mapM fun l => do return (l, ← Machine.loadVec o l)) := fun need =>
    mapM (fun l => bind (loadVec o l) fun _ => pure _) need
  refine ite (hload _) (bind (ite (throw _) (pure _)) fun _ => hload _)

theorem storeVec (o : Opd) (lin : Nat) (xs : List Elem) : BodyKeeps (storeVec o lin xs) := by
  refine ite (bind (writeVa _ _ _ _) fun _ => bind (writeVa _ _ _ _) fun _ => pure _) ?_
  refine ite (ite (bind (writeVa _ _ _ _) fun _ => pure _) (bind (writeVa _ _ _ _) fun _ => pure _)) ?_
  exact bind (writeVa _ _ _ _) fun _ => pure _

theorem storeTensor (o : Opd) (f : List Nat → Elem) : BodyKeeps (storeTensor o f) :=
  foldlM (fun _ _ => bind (storeVec _ _ _) fun _ => pure _) _ _

theorem storePlane (o : Opd) (k : Nat) (f : Nat → Nat → Elem) : BodyKeeps (storePlane o k f) :=
  foldlM (fun _ _ => bind (storeVec _ _ _) fun _ => pure _) _ _

theorem loadPlane (o : Opd) (k : Nat) : BodyKeeps (loadPlane o k) := bind (loadFor _ _) fun _ => pure _

theorem storeElem (o : Opd) (v : List Nat) (x : Option Int) : BodyKeeps (storeElem o v x) := writeVa _ _ _ _

/-! Checks and operands. -/

theorem check (bad : Bool) (code : Nat) : BodyKeeps (check bad code) := ite (throw _) (pure _)
theorem checkCodes (codes : List Nat) : BodyKeeps (checkCodes codes) := ite (throw _) (pure _)
theorem vecXforms (r : Running) (os : List (Nat × PortUse × Opd)) : BodyKeeps (vecXforms r os) := checkCodes _

theorem needOpd (q : Nat) (r : Running) (i : Nat) : BodyKeeps (needOpd q r i) := by
  refine bind get fun w => ?_
  cases w.chip.opd q r i with
  | some o => exact pure _
  | none => exact throw _

theorem optOpd (q : Nat) (r : Running) (i : Nat) : BodyKeeps (optOpd q r i) := bind get fun _ => pure _

/-! Images (R236-R239, R256). -/

theorem loadImg (page : Nat) (parity : List (Nat × Nat)) (slot : Nat) (o : Opd) : BodyKeeps (loadImg page parity slot o) :=
  bind (mapM (fun _ => bind (loadVec _ _) fun _ => pure _) _) fun _ => bind (ofChip fun c => c.lbParity_units _ _) fun _ => pure _

theorem storedImg (o : Opd) : BodyKeeps (storedImg o) := bind get fun _ => pure _

theorem vecCounts (page cycles px a b : Nat) : BodyKeeps (vecCounts page cycles px a b) := ofChip fun _ => rfl

/-! PYR (R240-R242). -/

theorem reduceLevel (g : Img) (o : Opd) : BodyKeeps (reduceLevel g o) :=
  bind (check _ _) fun _ => bind (storeTensor _ _) fun _ => ite (bind (storedImg _) fun _ => pure _) (pure _)

theorem pyrBuild (parity : List (Nat × Nat)) (q : Nat) (r : Running) : BodyKeeps (pyrBuild parity q r) :=
  bind (needOpd _ _ _) fun _ => bind (mapM (fun _ => needOpd _ _ _) _) fun _ => bind (vecXforms _ _) fun _ =>
  bind (check _ _) fun _ => bind (check _ _) fun _ => bind (check _ _) fun _ => bind (check _ _) fun _ => bind (check _ _) fun _ =>
  bind (loadImg _ _ _ _) fun _ => bind (foldlM (fun _ _ => bind (reduceLevel _ _) fun _ => pure _) _ _) fun _ =>
  bind (vecCounts _ _ _ _ _) fun _ => pure _

theorem pyrLaplace (parity : List (Nat × Nat)) (q : Nat) (r : Running) : BodyKeeps (pyrLaplace parity q r) :=
  bind (needOpd _ _ _) fun _ => bind (needOpd _ _ _) fun _ => bind (needOpd _ _ _) fun _ => bind (vecXforms _ _) fun _ =>
  bind (check _ _) fun _ => bind (check _ _) fun _ => bind (check _ _) fun _ => bind (check _ _) fun _ => bind (check _ _) fun _ =>
  bind (check _ _) fun _ => bind (loadImg _ _ _ _) fun _ => bind (loadImg _ _ _ _) fun _ => bind (storeTensor _ _) fun _ =>
  bind (vecCounts _ _ _ _ _) fun _ => pure _

/-! WRP (R243-R246). -/

theorem loadTable (o : Opd) (idx : List (List Int)) : BodyKeeps (loadTable o idx) := bind (loadFor _ _) fun _ => pure _

theorem wrpCheck (r : Running) (a b m : Opd) : BodyKeeps (wrpCheck r a b m) :=
  bind (vecXforms _ _) fun _ => bind (check _ _) fun _ => bind (check _ _) fun _ => bind (check _ _) fun _ => bind (check _ _) fun _ =>
  check _ _

theorem warp (parity : List (Nat × Nat)) (a b : Opd) (pos : Nat → Nat → Pos) : BodyKeeps (warp parity a b pos) :=
  bind (check _ _) fun _ => bind (loadImg _ _ _ _) fun _ => bind (storeTensor _ _) fun _ => bind (vecCounts _ _ _ _ _) fun _ => pure _

theorem wrpHomog (parity : List (Nat × Nat)) (q : Nat) (r : Running) : BodyKeeps (wrpHomog parity q r) :=
  bind (needOpd _ _ _) fun _ => bind (needOpd _ _ _) fun _ => bind (needOpd _ _ _) fun _ => bind (wrpCheck _ _ _ _) fun _ =>
  bind (check _ _) fun _ => bind (loadTable _ _) fun _ => warp _ _ _ _

theorem wrpMesh (parity : List (Nat × Nat)) (q : Nat) (r : Running) : BodyKeeps (wrpMesh parity q r) :=
  bind (needOpd _ _ _) fun _ => bind (needOpd _ _ _) fun _ => bind (needOpd _ _ _) fun _ => bind (wrpCheck _ _ _ _) fun _ =>
  bind (check _ _) fun _ => bind (loadTable _ _) fun _ => warp _ _ _ _

/-! FLW and STR (R263-R273). -/

theorem searchCheck (r : Running) (a b o : Opd) (p : Option Opd) (ty rank planes : Nat) : BodyKeeps (searchCheck r a b o p ty rank planes) :=
  bind (vecXforms _ _) fun _ => bind (check _ _) fun _ => bind (check _ _) fun _ => bind (check _ _) fun _ => bind (check _ _) fun _ =>
  bind (check _ _) fun _ => check _ _

theorem loadPrior (p : Option Opd) : BodyKeeps (loadPrior p) := by
  cases p with
  | none => exact pure _
  | some p => exact bind (loadFor _ _) fun _ => pure _

theorem flwLevel (parity : List (Nat × Nat)) (q : Nat) (r : Running) : BodyKeeps (flwLevel parity q r) :=
  bind (needOpd _ _ _) fun _ => bind (needOpd _ _ _) fun _ => bind (optOpd _ _ _) fun _ => bind (needOpd _ _ _) fun _ =>
  bind (searchCheck _ _ _ _ _ _ _ _) fun _ => bind (loadImg _ _ _ _) fun _ => bind (loadImg _ _ _ _) fun _ => bind (loadPrior _) fun _ =>
  bind (storeTensor _ _) fun _ => bind (vecCounts _ _ _ _ _) fun _ => pure _

theorem strLevel (parity : List (Nat × Nat)) (q : Nat) (r : Running) : BodyKeeps (strLevel parity q r) :=
  bind (needOpd _ _ _) fun _ => bind (needOpd _ _ _) fun _ => bind (optOpd _ _ _) fun _ => bind (needOpd _ _ _) fun _ =>
  bind (searchCheck _ _ _ _ _ _ _ _) fun _ => bind (loadImg _ _ _ _) fun _ => bind (loadImg _ _ _ _) fun _ => bind (loadPrior _) fun _ =>
  bind (storeTensor _ _) fun _ => bind (vecCounts _ _ _ _ _) fun _ => pure _

/-! DMD_OFFLINE (R207). -/

theorem dmdOffline (q : Nat) (r : Running) : BodyKeeps (dmdOffline q r) :=
  bind (needOpd _ _ _) fun _ => bind (needOpd _ _ _) fun _ => bind (checkCodes _) fun _ => bind (check _ _) fun _ => bind (check _ _) fun _ =>
  bind (check _ _) fun _ => bind get fun _ => bind (check _ _) fun _ => bind (mapM (fun _ => bind (loadPlane _ _) fun _ => pure _) _) fun _ =>
  storePlane _ _ _

/-! FTR_DETECT (R247-R252). -/

theorem storeRow (o : Opd) (lin : Nat) (poison : Bool) (ws : List Nat) : BodyKeeps (storeRow o lin poison ws) :=
  bind (storeVec _ _ _) fun _ => pure _

theorem rewriteState (o : Opd) (ts : List Int) : BodyKeeps (rewriteState o ts) :=
  bind (loop (fun _ _ => ite (bind (loop (fun _ _ => bind (storeElem _ _ _) fun _ => pure _) _ _) fun _ => pure _)
    (bind (storeVec _ _ _) fun _ => pure _)) _ _) fun _ => pure _

theorem readWords (o : Opd) (idx : List (List Int)) : BodyKeeps (readWords o idx) := bind (loadFor _ _) fun _ => pure _

theorem ftrCheck (q : Nat) (r : Running) : BodyKeeps (ftrCheck q r) := by
  refine bind (needOpd _ _ _) fun a => bind (needOpd _ _ _) fun b => iteBind (map _ (needOpd _ _ _)) (pure _) fun p => ?_
  refine bind (needOpd _ _ _) fun d => bind (vecXforms _ _) fun _ => bind (check _ _) fun _ => bind (check _ _) fun _ => ?_
  refine bind (check _ _) fun _ => bind (check _ _) fun _ => bind (check _ _) fun _ => bind (check _ _) fun _ => ?_
  refine bind (check _ _) fun _ => bind (readWords _ _) fun _ => bind (check _ _) fun _ => ?_
  cases p with
  | none => exact bind (pure _) fun _ => bind (check _ _) fun _ => bind (check _ _) fun _ => bind (check _ _) fun _ => pure _
  | some p => exact bind (readWords _ _) fun _ => bind (check _ _) fun _ => bind (check _ _) fun _ => bind (check _ _) fun _ => pure _

theorem ftrDetect (parity : List (Nat × Nat)) (q : Nat) (r : Running) : BodyKeeps (ftrDetect parity q r) := by
  refine bind (ftrCheck q r) fun i => bind (loadImg _ _ _ _) fun g => bind (storeRow _ _ _ _) fun _ => ?_
  refine bind (loop (fun _ _ => bind (storeRow _ _ _ _) fun _ => pure _) _ _) fun _ => ?_
  refine iteOnly (loop (fun _ _ => bind (storeRow _ _ _ _) fun _ => pure _) _ _) fun _ => ?_
  refine iteBind (bind (lift .drawM) fun _ => pure _) (pure _) fun clamp => ?_
  exact iteOnly (rewriteState _ _) fun _ => bind (vecCounts _ _ _ _ _) fun _ => pure _

end BodyKeeps

end Sys2Proof.Machine
end


section
/-! The execution of a queue's command (R175, R184): the account of its writes leaves every command in progress as it stands, so that
the command is finished by what its body computes. -/

namespace Sys2Proof.Machine

/-! The commands in progress. -/

/-- The computation leaves the commands in progress as it finds them. -/
def KeepsRun {α : Type} (m : WM α) : Prop := ∀ w, (m w).2.chip.queues.run = w.chip.queues.run

namespace KeepsRun
variable {α β : Type}

theorem pure (a : α) : KeepsRun (pure a) := fun _ => rfl
theorem bind {m : WM α} {k : α → WM β} (hm : KeepsRun m) (hk : ∀ a, KeepsRun (k a)) : KeepsRun (m >>= k) :=
  fun w => (hk (m w).1 (m w).2).trans (hm w)
theorem ofUnits {m : WM α} (h : KeepsUnits m) : KeepsRun m := fun w =>
  (congrArg (fun c : Chip => c.queues.run) (h w) : (m w).2.chip.units.queues.run = w.chip.units.queues.run)
theorem ite {p : Prop} [Decidable p] {a b : WM α} (ha : KeepsRun a) (hb : KeepsRun b) : KeepsRun (if p then a else b) := by
  split
  · exact ha
  · exact hb
theorem loop {f : α → β → WM (ForInStep β)} (h : ∀ a b, KeepsRun (f a b)) : ∀ (l : List α) (b : β), KeepsRun (forIn l b f)
  | [], b => by simpa using pure b
  | a :: l, b => by
    rw [List.forIn_cons]
    refine bind (h a b) fun x => ?_
    cases x with
    | done b => exact pure b
    | yield b => exact loop h l b

theorem bindE {m : EM α} {k : α → EM β} (hm : KeepsRun m.run) (hk : ∀ a, KeepsRun (k a).run) : KeepsRun (m >>= k).run := by
  rw [ExceptT.run_bind]
  refine bind hm fun x => ?_
  cases x with
  | ok a => exact hk a
  | error e => exact pure _
theorem lift {m : WM α} (hm : KeepsRun m) : KeepsRun (liftM m : EM α).run := fun w => hm w

theorem noteWrites : KeepsRun noteWrites := by
  refine bind (fun _ => rfl) fun w => ?_
  refine ite (bind (loop (fun q _ => ?_) _ _) fun _ => bind (fun _ => rfl) fun _ => pure _) (bind (fun _ => rfl) fun _ => pure _)
  exact bind (bind (fun _ => rfl) fun _ => pure _) fun torn => bind (fun _ => rfl) fun _ => pure _

theorem meetWrites (key src : Nat) : KeepsRun (meetWrites key src) := by
  refine bind noteWrites fun mine => bind (fun _ => rfl) fun c => ?_
  refine bind (loop (fun r _ => bind (ofUnits (havocPhys_keepsUnits _ _ _)) fun _ => pure _) _ _) fun _ => bind (fun _ => rfl) fun _ => ?_
  exact ite (fun _ => rfl) (pure _)

theorem runBody {q : Nat} {body : Running → EM Stats} {r : Running} (h : BodyKeeps (body r)) : KeepsRun (runBody q body r).run := by
  refine bindE (lift (ofUnits h)) fun x => bindE (lift fun _ => rfl) fun c => bindE (lift (meetWrites _ _)) fun _ => ?_
  cases x with
  | ok st => exact pure _
  | error e => exact pure _

end KeepsRun

/-! The end of an execution. -/

/-- The end of a command whose execution ends with an error. -/
def execEnd (q : Nat) (r : Running) (ds : List (Nat × Opd)) (dbg : Bool) (e : Nat) : WM Unit := do
  if 0x20 ≤ e ∧ e < 0x80 then
    for d in ds do havocDest r d
  chipM fun c => c.setRunning q (some { (c.running q).getD r with executed := true, finished := true, status := e, debug := dbg })


theorem havocDests_keepsRun (r : Running) (ds : List (Nat × Opd)) : KeepsRun (do for d in ds do havocDest r d) :=
  .bind (.loop (fun _ _ => .bind (.ofUnits (havocOpd_keepsUnits _ _)) fun _ => .pure _) _ _) fun _ => .pure _

theorem execEnd_apply {q : Nat} {r : Running} {ds : List (Nat × Opd)} {dbg : Bool} {e : Nat} {v : Work} (hv : v.chip.running q = some r) :
    ∃ v', execEnd q r ds dbg e v =
        ((), v'.onChip (·.setRunning q (some { r with executed := true, finished := true, status := e, debug := dbg }))) ∧
      (¬(0x20 ≤ e ∧ e < 0x80) → v' = v) := by
  have hlast : ∀ v' : Work, v'.chip.queues.run = v.chip.queues.run →
      chipM (fun c => c.setRunning q (some { (c.running q).getD r with executed := true, finished := true, status := e, debug := dbg })) v' =
        ((), v'.onChip (·.setRunning q (some { r with executed := true, finished := true, status := e, debug := dbg }))) := by
    intro v' h
    have hr : v'.chip.running q = some r := (congrArg (aget · q) h).trans hv
    rw [chipM_apply, Work.onChip, hr, Option.getD_some]
  by_cases he : 0x20 ≤ e ∧ e < 0x80
  · exact ⟨_, WM.if_pos he (WM.bind_of_eq rfl (hlast _ (havocDests_keepsRun r ds v))), fun hn => absurd he hn⟩
  · exact ⟨v, WM.if_neg he (hlast v rfl), fun _ => rfl⟩

section
variable {q op : Nat} {body : Running → EM Stats} {dests : Running → Nat → List (Nat × Opd)} {s : State} {r : Running} {v : Work} {e : Nat}

/-- An execution that an error ends leaves the destinations that the error names undefined, and the command with its code. -/
theorem execOp_of_error (hr : s.fetched q op r) (ht : s.chip.tripped = false) (hb : (runBody q body r).run s.work = (.error e, v))
    (hv : v.chip.running q = some r) : ∃ v', execOp q op body dests s.work = ((), v'.onChip (·.setRunning q (some (r.failed s.chip q e)))) ∧
      (¬(0x20 ≤ e ∧ e < 0x80) → v' = v) := by
  obtain ⟨hrun, hop, hex, hfin, -, -⟩ := hr
  have hrun' : s.work.chip.running q = some r := hrun
  have ht' : s.work.chip.tripped = false := ht
  have hstart : execOp q op body dests s.work = execEnd q r (dests r e) (r.debug || s.chip.debugOn (pgQ q :: s.chip.unitPages (unitOf q))) e v := by
    refine WM.bind_of_eq (getChip_apply _) ?_
    rw [hrun']
    exact WM.if_neg (by simp [hop, hex, hfin, ht']) (WM.bind_of_eq hb rfl)
  obtain ⟨v', h, hv'⟩ := execEnd_apply (dbg := r.debug || s.chip.debugOn (pgQ q :: s.chip.unitPages (unitOf q))) (e := e) (ds := dests r e) hv
  exact ⟨v', hstart.trans h, hv'⟩

end

theorem State.after.running {s t : State} {w : Work} {q : Nat} {x : Option Running} (h : s.after t w fun c => c.setRunning q x) :
    t.chip.running q = x := by
  obtain ⟨-, -, -, hc⟩ := h
  rw [hc]
  exact Chip.running_setRunning_same _ _ _

/-- A row whose body leaves the units as they are does what the body computes. -/
theorem executes_of_row {i : Instr} {q : Fin 128} {op : Nat} {body : Nat → Running → EM Stats} {is : List Nat}
    (hx : ∀ s, exec i s = opRow q op body is s) (hk : ∀ r, BodyKeeps (body q r)) : Executes i q op body fun _ _ => True := by
  intro s r hr ht _
  have hok : ∀ st w, (runBody q (body q) r).run s.work = (.ok st, w) →
      Answers i s fun t => s.after t w fun c => c.setRunning q (some (r.ended s.chip q st)) := fun st w hb =>
    ⟨_, hx s, s.after_onWork _ (execOp_of_ok (destSlots q is s.chip) hr ht hb)⟩
  have herr : ∀ e w, (runBody q (body q) r).run s.work = (.error e, w) → ∃ v', (¬(0x20 ≤ e ∧ e < 0x80) → v' = w) ∧
      Answers i s fun t => s.after t v' fun c => c.setRunning q (some (r.failed s.chip q e)) := by
    intro e w hb
    have hrun : w.chip.queues.run = s.chip.queues.run := by
      have h := KeepsRun.runBody (q := q) (hk r) s.work
      rw [hb] at h
      exact h
    obtain ⟨v', h, hv'⟩ := execOp_of_error (dests := destSlots q is s.chip) hr ht hb ((congrArg (aget · q) hrun).trans hr.1)
    exact ⟨v', hv', _, hx s, s.after_onWork _ h⟩
  have hfin : ∀ {w : Work} {x : Running}, x.finished = true → (Answers i s fun t => s.after t w fun c => c.setRunning q (some x)) →
      Answers i s fun t => (t.chip.running q).any Running.finished = true := by
    rintro w x hx ⟨t, he, hafter⟩
    exact ⟨t, he, (congrArg (Option.any Running.finished) hafter.running).trans hx⟩
  refine ⟨?finished, hok, fun e w hb he => ?code, fun e w hb hlo hhi => ?undefined⟩
  case finished =>
    obtain ⟨x, w, hb⟩ : ∃ x w, (runBody q (body q) r).run s.work = (x, w) := ⟨_, _, rfl⟩
    cases x with
    | ok st => exact hfin rfl (hok st w hb)
    | error e =>
      obtain ⟨v', -, h⟩ := herr e w hb
      exact hfin rfl h
  case code =>
    obtain ⟨v', hv', h⟩ := herr e w hb
    rw [hv' (by lia)] at h
    exact h
  case undefined =>
    obtain ⟨v', -, t, he, hafter⟩ := herr e w hb
    exact ⟨t, he, hafter.running⟩

/-- Settles O39: every body leaves the commands in progress as they are. -/
theorem visionCommandsExecute : Obligations.VisionCommandsExecute := by
  unfold Obligations.VisionCommandsExecute
  exact fun q parity => ⟨executes_of_row (fun _ => rfl) (BodyKeeps.pyrBuild parity q), executes_of_row (fun _ => rfl) (BodyKeeps.pyrLaplace parity q),
    executes_of_row (fun _ => rfl) (BodyKeeps.wrpHomog parity q), executes_of_row (fun _ => rfl) (BodyKeeps.wrpMesh parity q),
    executes_of_row (fun _ => rfl) (BodyKeeps.ftrDetect parity q), executes_of_row (fun _ => rfl) (BodyKeeps.flwLevel parity q),
    executes_of_row (fun _ => rfl) (BodyKeeps.strLevel parity q), executes_of_row (fun _ => rfl) (BodyKeeps.dmdOffline q)⟩

end Sys2Proof.Machine
end


section
/-! The enable and disable of the LIS (R190, R191, R194, R200). -/

namespace Sys2Proof.Machine

/-! A field set to what it holds. -/

theorem putBits_self (v lo w : Nat) : putBits v lo w (bits v lo w) = v := by
  have hle : bits v lo w * 2 ^ lo ≤ v :=
    (Nat.mul_le_mul_right _ (Nat.mod_le _ _)).trans (Nat.div_mul_le_self _ _)
  rw [putBits, Nat.mod_eq_of_lt (bits_lt v lo w)]
  omega

theorem Chip.wordAt_setFld_self {c : Chip} {p off lo w x : Nat} (h : c.fld p off lo w = x) (a : Nat) :
    (c.setFld p off lo w x).wordAt a = c.wordAt a := by
  subst h
  rw [Chip.setFld, Chip.fld, putBits_self, c.wordAt_wr]
  split
  · next h => rw [← h, word, BitVec.ofNat_toNat, BitVec.setWidth_eq]; rfl
  · rfl

theorem Chip.wordAt_setBit_self {c : Chip} {p off b : Nat} {v : Bool} (h : c.bit p off b = v) (a : Nat) :
    (c.setBit p off b v).wordAt a = c.wordAt a := by
  refine Chip.wordAt_setFld_self ?_ a
  have hlt : c.fld p off b 1 < 2 ^ 1 := bits_lt _ _ _
  cases v <;> simp [Chip.bit] at h ⊢ <;> lia

/-! The code states at their restart. -/

/-- The code states of sequencers put at entry 0 of their rotations and chip 0. -/
def Chip.codesAtStart (c : Chip) (ns : List Nat) : Chip := ns.foldl (fun c n => c.setCode n (c.rotCode n 0) 0 0 false) c

theorem Chip.codesAtStart_cons (c : Chip) (n : Nat) (ns : List Nat) :
    c.codesAtStart (n :: ns) = (c.setCode n (c.rotCode n 0) 0 0 false).codesAtStart ns := rfl

theorem Chip.codesAtStart_lis (c : Chip) (ns : List Nat) : (c.codesAtStart ns).lis = c.lis :=
  List.foldlRecOn ns _ (motive := fun d : Chip => d.lis = c.lis) rfl fun _ hd _ _ => hd

theorem Chip.wordAt_codesAtStart {a : Nat} : ∀ {ns : List Nat} (c : Chip), (∀ n ∈ ns, a ≠ regAddr 0x027 (seqOff n 0x24)) →
    (c.codesAtStart ns).wordAt a = c.wordAt a
  | [], _, _ => rfl
  | n :: ns, c, h => by
    rw [c.codesAtStart_cons, wordAt_codesAtStart _ fun m hm => h m (List.mem_cons_of_mem _ hm), Chip.setCode,
      c.wordAt_wr_ne _ (h n List.mem_cons_self)]

theorem Chip.rotCode_setCode (c : Chip) (m code chip rot n i : Nat) (f : Bool) : (c.setCode m code chip rot f).rotCode n i = c.rotCode n i :=
  c.fld_wr_ne _ _ _ _ _ _ _ (regAddr_off_ne _ _ _ (by unfold seqOff; lia))

theorem Chip.rd_codesAtStart {n : Nat} {ns : List Nat} (c : Chip) (h : n ∈ ns) (hd : ns.Nodup) :
    (c.codesAtStart ns).rd 0x027 (seqOff n 0x24) = word (c.rotCode n 0) := by
  induction ns generalizing c with
  | nil => exact absurd h List.not_mem_nil
  | cons m ns ih =>
    obtain ⟨hm, hd⟩ := List.nodup_cons.mp hd
    rw [c.codesAtStart_cons]
    by_cases hn : n ∈ ns
    · rw [ih _ hn hd, c.rotCode_setCode]
    · obtain rfl : n = m := (List.mem_cons.mp h).resolve_right hn
      have hne : ∀ k ∈ ns, regAddr 0x027 (seqOff n 0x24) ≠ regAddr 0x027 (seqOff k 0x24) := fun k hk =>
        have : k ≠ n := fun he => hm (he ▸ hk)
        regAddr_off_ne _ _ _ (by unfold seqOff; lia)
      rw [Chip.rd_eq_wordAt, Chip.wordAt_codesAtStart _ hne, Chip.setCode, Chip.wordAt_wr, if_pos rfl]
      simp

/-- The code state of a sequencer whose word is an entry of its rotation alone. -/
theorem Chip.codeAtStart {c : Chip} {n x : Nat} (h : c.rd 0x027 (seqOff n 0x24) = word x) (hx : x < 8) :
    c.seqCode n = x ∧ c.seqChip n = 0 ∧ c.seqRot n = 0 := by
  have hn : (word x).toNat = x := by rw [word, BitVec.toNat_ofNat, Nat.mod_eq_of_lt (by omega)]
  simp only [Chip.seqCode, Chip.seqChip, Chip.seqRot, Chip.fld, h, hn, bits]
  lia

theorem Chip.lisCfgBad_setEnable (c : Chip) (v : Bool) : (c.setBit 0x027 0x00C 0 v).lisCfgBad = c.lisCfgBad := by
  have hf : ∀ n lo w, (c.setBit 0x027 0x00C 0 v).fld 0x027 (seqOff n 0) lo w = c.fld 0x027 (seqOff n 0) lo w := fun n lo w =>
    c.fld_setFld_ne _ _ _ _ _ _ _ _ _ (regAddr_off_ne _ _ _ (by unfold seqOff; lia))
  have hr : (c.setBit 0x027 0x00C 0 v).rotCode = c.rotCode := funext fun n => funext fun i => hf n _ _
  simp only [Chip.lisCfgBad, hr, Chip.rotLen, Chip.seqPorts, Chip.seqStrobes, hf]

/-! The commands. -/

section
variable {req : Requester} {s : State}

theorem exec_lisEnable (hg : s.passes req 0x027 0x00C) : exec (.lisEnable req) s = .next (s.onChip fun c => c.lisEnableTo req true) :=
  congrArg _ (s.onChip_gated _ _ _ _ hg)

theorem exec_lisDisable (hg : s.passes req 0x027 0x00C) : exec (.lisDisable req) s = .next (s.onChip fun c => c.lisEnableTo req false) :=
  congrArg _ (s.onChip_gated _ _ _ _ hg)

theorem Chip.lisEnableTo_start {c : Chip} (he : c.enabled 0x027 = false) (hb : c.lisCfgBad = false) :
    c.lisEnableTo req true = { c.setBit 0x027 0x00C 0 true with lis := { c.lis with on := true, seqs := [] } }.codesAtStart (List.range 4) := by
  simp [Chip.lisEnableTo, he, hb, c.lisCfgBad_setEnable, Chip.lisRestart, Chip.codesAtStart]

end

/-- Settles O33: the code states are written one by one, each from its own rotation. -/
theorem lisControl : Obligations.LisControl := by
  unfold Obligations.LisControl
  refine fun req s hg => ⟨fun he hb => ?start, fun he hb => ?bad, fun he => ?again, ?stop⟩
  case start =>
    refine ⟨_, exec_lisEnable hg, ⟨rfl, rfl, rfl⟩, ?_⟩
    obtain ⟨d, hd⟩ : ∃ d, d = { s.chip.setBit 0x027 0x00C 0 true with lis := { s.chip.lis with on := true, seqs := [] } } := ⟨_, rfl⟩
    have hreg : ∀ a, d.wordAt a = (s.chip.setBit 0x027 0x00C 0 true).wordAt a := fun a => by rw [hd]; rfl
    have hc : (s.onChip fun c => c.lisEnableTo req true).chip = (d.codesAtStart (List.range 4)).settle := by
      rw [s.onChip_chip, Chip.lisEnableTo_start he hb, hd]
    have hword : ∀ a, (∀ n < 4, a ≠ regAddr 0x027 (seqOff n 0x24)) →
        (s.onChip fun c => c.lisEnableTo req true).chip.wordAt a = (s.chip.setBit 0x027 0x00C 0 true).wordAt a := fun a h => by
      rw [hc, Chip.wordAt_of_regs (Chip.settle_regs _), Chip.wordAt_codesAtStart _ fun n hn => h n (List.mem_range.mp hn), hreg]
    refine ⟨?_, ?_, fun n => ?_, fun a ha => ?_⟩
    · have hrd := hword (regAddr 0x027 0x00C) fun n _ => regAddr_off_ne _ _ _ (by unfold seqOff; lia)
      have hbit := s.chip.bit_setBit_same 0x027 0x00C 0 true (by decide)
      simp only [Chip.bit, Chip.fld, Chip.enabled, Chip.rd_eq_wordAt] at hbit ⊢
      rw [hrd]
      exact hbit
    · rw [hc, Chip.settle_lis, Chip.codesAtStart_lis, hd]
    · have hr := Chip.rd_codesAtStart d (List.mem_range.mpr n.isLt) List.nodup_range
      have hcode : d.rotCode n 0 = s.chip.rotCode n 0 := by
        rw [hd]
        exact s.chip.fld_setFld_ne _ _ _ _ _ _ _ _ _ (regAddr_off_ne _ _ _ (by unfold seqOff; lia))
      rw [hcode] at hr
      rw [hc]
      exact Chip.codeAtStart hr (bits_lt _ _ _)
    · simp only [List.mem_cons, List.not_mem_nil, or_false, not_or] at ha
      obtain ⟨h0, h1, h2, h3, h4⟩ := ha
      rw [hword a fun n hn => ?_]
      · exact s.chip.wordAt_setFld_ne _ _ _ h0
      · interval_cases n <;> assumption
  case bad =>
    refine (exec_lisEnable hg).trans (congrArg _ (s.onChip_congr _ _ ?_))
    simp [Chip.lisEnableTo, he, hb, s.chip.lisCfgBad_setEnable]
  case again =>
    refine ⟨_, (exec_lisEnable hg).trans (congrArg _ (s.onChip_congr _ (fun c => c.setBit 0x027 0x00C 0 true) ?_)), rfl, fun a _ => ?_⟩
    · simp [Chip.lisEnableTo, he]
    · exact Chip.wordAt_setBit_self he a
  case stop =>
    refine (exec_lisDisable hg).trans (congrArg _ (s.onChip_congr _ _ ?_))
    simp [Chip.lisEnableTo, Chip.lisQuiet]

end Sys2Proof.Machine
end


section
/-! What a SIGNAL on a counter of this chip reaches: the counters, the scoreboard and the graph slots, on the pages 0x010 to 0x01F, and
what the Precentor holds of its slots (R177, R302, R309). -/

namespace Sys2Proof.Machine

/-- From one chip to the next only the Precentor has learnt of a signal: its slots, its pages, and a free choice of a step's time. -/
structure Chip.Noted (c d : Chip) : Prop where
  rest : d = { c with regs := d.regs, prc := d.prc, time := { c.time with free := d.time.free } }
  word : ∀ a, a < 0x010000 ∨ 0x020000 ≤ a → d.wordAt a = c.wordAt a

namespace Chip.Noted

theorem refl (c : Chip) : c.Noted c := ⟨rfl, fun _ _ => rfl⟩

theorem trans {a b c : Chip} (h : a.Noted b) (k : b.Noted c) : a.Noted c := by
  refine ⟨?_, fun x hx => (k.word x hx).trans (h.word x hx)⟩
  rw [k.rest, h.rest]

theorem wr (c : Chip) {p off : Nat} (v : Word) (hp : 0x010 ≤ p ∧ p < 0x020) (ho : off < 0x1000) : c.Noted (c.wr p off v) :=
  ⟨rfl, fun a ha => c.wordAt_wr_ne v (by unfold regAddr; lia)⟩

theorem setGslot (c : Chip) (g : Nat) (s : Option GSlot) : c.Noted (c.setGslot g s) := ⟨rfl, fun _ _ => rfl⟩

theorem foldl {α : Type} (c : Chip) (l : List α) (f : Chip → α → Chip) (h : ∀ d : Chip, ∀ a ∈ l, d.Noted (f d a)) : c.Noted (l.foldl f c) :=
  List.foldlRecOn l f (motive := c.Noted) (refl c) fun d hd a ha => hd.trans (h d a ha)

theorem sbHit (c : Chip) (e : Nat) : c.Noted (c.sbHit e) := by
  refine foldl c _ _ fun d n hn => ?_
  have hn := List.mem_range.mp hn
  dsimp only
  split
  · exact wr d _ (by decide) (by omega)
  · exact refl d

theorem stepTime (c : Chip) (g : Nat) (s : GSlot) : c.Noted (c.stepTime g s).2 := by
  unfold Chip.stepTime
  split
  · exact refl c
  · split
    · exact refl c
    · exact ⟨rfl, fun _ _ => rfl⟩

section
variable {g : Nat} (hg : g < 8)
include hg

theorem wrSlot (c : Chip) {off : Nat} (v : Word) (ho : off < 0x1000) : c.Noted (c.wr (pgSlot g) off v) :=
  wr c v (by unfold pgSlot; lia) ho

theorem countSlot (c : Chip) {off : Nat} (n : Nat) (ho : off < 0x1000) : c.Noted (c.count (pgSlot g) off n) := wrSlot hg c _ ho
theorem raiseSlot (c : Chip) (b : Nat) : c.Noted (c.raise (pgSlot g) b) := wrSlot hg c _ (by decide)
theorem setGstate (c : Chip) (s : Nat) : c.Noted (c.setGstate g s) := wrSlot hg c _ (by decide)
theorem gFailed (c : Chip) : c.Noted (c.gFailed g) := (setGstate hg c 6).trans (raiseSlot hg _ 4)

theorem noteAdmit (c : Chip) : c.Noted (c.noteAdmit g) := by
  unfold Chip.noteAdmit
  split
  · exact refl c
  · next s hs =>
    exact (stepTime c g s).trans ((countSlot hg _ 1 (by decide)).trans ((countSlot hg _ 1 (by decide)).trans (setGslot _ _ _)))

theorem noteRun (c : Chip) (run : Bool) : c.Noted (c.noteRun g run) := by
  unfold Chip.noteRun
  split
  · exact refl c
  · dsimp only
    split
    · exact setGslot _ _ _
    · exact (setGslot _ _ _).trans ((countSlot hg _ 1 (by decide)).trans (raiseSlot hg _ 2))

theorem slotNote (c : Chip) (e inc : Nat) : c.Noted (c.slotNote g e inc) := by
  unfold Chip.slotNote
  split
  · exact refl c
  · dsimp only
    split
    · exact refl c
    split
    · exact gFailed hg c
    split
    · exact foldl c _ _ fun d _ _ => noteAdmit hg d
    · exact (setGslot _ _ _).trans (countSlot hg _ _ (by decide))
    · exact foldl c _ _ fun d _ _ => noteRun hg d true
    · exact foldl c _ _ fun d _ _ => noteRun hg d false
    · exact (setGslot _ _ _).trans (wrSlot hg _ _ (by decide))
    · exact (setGslot _ _ _).trans (setGstate hg _ 5)
    · exact refl c

end

theorem prcNote (c : Chip) (e inc : Nat) : c.Noted (c.prcNote e inc) :=
  foldl c _ _ fun d _ hg => slotNote (List.mem_range.mp hg) d e inc

theorem signal (c : Chip) {e : Nat} (inc : Nat) (he : e < 256) : c.Noted (c.signal e inc).2 := by
  simp only [Chip.signal]
  exact ((wr c _ (by decide) (by omega)).trans (wr _ _ (by decide) (by omega))).trans ((sbHit _ e).trans (prcNote _ e inc))

/-! What stands through it. -/

section
variable {c d : Chip} (h : c.Noted d)
include h

theorem lis : d.lis = c.lis := by rw [h.rest]
theorem dmd : d.dmd = c.dmd := by rw [h.rest]
theorem now : d.time.now = c.time.now := by rw [h.rest]
theorem rd {p off : Nat} (hp : p < 0x010 ∨ 0x020 ≤ p) (ho : off < 0x1000) : d.rd p off = c.rd p off :=
  h.word _ (by unfold regAddr; lia)
theorem fld {p off : Nat} (lo w : Nat) (hp : p < 0x010 ∨ 0x020 ≤ p) (ho : off < 0x1000) : d.fld p off lo w = c.fld p off lo w := by
  rw [Chip.fld, Chip.fld, h.rd hp ho]

end

end Chip.Noted

end Sys2Proof.Machine
end


section
/-! A fire of the LIS (R18, R193, R201, R205, R210): the stages of a fire that is taken, and what each leaves of the registers, of the
sequencer and of the demodulator's ports. -/

namespace Sys2Proof.Machine

theorem Chip.fld_of_word {c d : Chip} {p off : Nat} (h : d.wordAt (regAddr p off) = c.wordAt (regAddr p off)) (lo w : Nat) :
    d.fld p off lo w = c.fld p off lo w := by
  rw [Chip.fld, Chip.fld, Chip.rd_eq_wordAt, Chip.rd_eq_wordAt, h]

theorem Chip.bit_of_word {c d : Chip} {p off : Nat} (h : d.wordAt (regAddr p off) = c.wordAt (regAddr p off)) (b : Nat) :
    d.bit p off b = c.bit p off b := by
  rw [Chip.bit, Chip.bit, Chip.fld_of_word h]

theorem Chip.evt_of_words {c d : Chip} {x : Nat} (hx : x < 256) (h : ∀ a, 0x011000 ≤ a → a < 0x012000 → d.wordAt a = c.wordAt a) :
    d.evt x = c.evt x := by
  rw [Chip.evt, Chip.evt, Chip.rd64, Chip.rd64, Chip.rd_eq_wordAt, Chip.rd_eq_wordAt, Chip.rd_eq_wordAt, Chip.rd_eq_wordAt,
    h _ (by unfold regAddr; omega) (by unfold regAddr; omega), h _ (by unfold regAddr; omega) (by unfold regAddr; omega)]

@[simp] theorem Chip.seq_setSeq (c : Chip) (n : Nat) (q : SeqState) : (c.setSeq n q).seq n = q := by
  simp [Chip.seq, Chip.setSeq]

theorem Chip.seq_of_lis {c d : Chip} (h : d.lis = c.lis) (n : Nat) : d.seq n = c.seq n := by rw [Chip.seq, Chip.seq, h]

/-! The exposure loop. -/

/-- The words that the exposure loop may write. -/
def aeWords (n : Nat) : List Nat := regAddr 0x027 (seqOff n 0x10) :: regAddr 0x027 (seqOff n 0x0C) :: logAddrs 0x027

theorem Chip.aeLoop_off {c : Chip} {n : Nat} (per : Nat) (f : Bool) (h : c.bit 0x027 (seqOff n 0x10) 31 = false) : c.aeLoop n per f = c := by
  simp [Chip.aeLoop, h]

/-- What the exposure loop may do: nothing, a record that it has no measure, or its two settings. -/
theorem Chip.aeLoop_induction {P : Chip → Prop} {c : Chip} {n : Nat} (per : Nat) (f : Bool) (hoff : P c) (hnone : P (c.logErr 0x027 clsUse 0x16 0 0))
    (hset : ∀ e x, P ((c.setFld 0x027 (seqOff n 0x10) 0 20 e).setFld 0x027 (seqOff n 0x0C) 0 20 x)) : P (c.aeLoop n per f) := by
  refine iteInduction (fun _ => hoff) fun _ => ?_
  dsimp only
  generalize (if f = true then some _ else c.combinedRec n ((per : Int) - 2)) = r
  cases r with
  | none => exact hnone
  | some r => exact hset _ _

theorem Chip.aeLoop_wordAt (c : Chip) (n per : Nat) (f : Bool) {a : Nat} (ha : a ∉ aeWords n) : (c.aeLoop n per f).wordAt a = c.wordAt a := by
  simp only [aeWords, List.mem_cons, not_or] at ha
  obtain ⟨h1, h2, h3⟩ := ha
  exact Chip.aeLoop_induction per f (P := fun d => d.wordAt a = c.wordAt a) rfl (c.logErr_wordAt _ _ _ _ _ h3)
    fun _ _ => (Chip.wordAt_setFld_ne _ _ _ _ h2).trans (Chip.wordAt_setFld_ne _ _ _ _ h1)

theorem Chip.aeLoop_lis (c : Chip) (n per : Nat) (f : Bool) : (c.aeLoop n per f).lis = c.lis :=
  Chip.aeLoop_induction per f (P := fun d => d.lis = c.lis) rfl (Chip.logErr_lis _ _ _ _ _ _) fun _ _ => rfl

theorem Chip.aeLoop_dmd (c : Chip) (n per : Nat) (f : Bool) : (c.aeLoop n per f).dmd = c.dmd :=
  Chip.aeLoop_induction per f (P := fun d => d.dmd = c.dmd) rfl (Chip.logErr_dmd _ _ _ _ _ _) fun _ _ => rfl

/-! The settings latched for the demodulator. -/

section
variable {n : Nat}

theorem seqOff_lt (hn : n < 4) {k : Nat} (hk : k < 0x40) : seqOff n k < 0x1000 :=
  (Nat.add_lt_add_of_le_of_lt (Nat.add_le_add_left (Nat.mul_le_mul_left 0x40 (Nat.le_of_lt_succ hn)) 0x080) hk).trans_le (by decide)

theorem seqReg_ne (n : Nat) {j k : Nat} (h : j ≠ k) : regAddr 0x027 (seqOff n j) ≠ regAddr 0x027 (seqOff n k) :=
  regAddr_off_ne _ _ _ fun e => h (Nat.add_left_cancel e)

theorem not_aeWords (hn : n < 4) {a : Nat} (ha : ∀ off < 0x1000, a ≠ regAddr 0x027 off) (hj : a ≠ regAddr 0x005 0x05C) : a ∉ aeWords n := by
  simp only [aeWords, logAddrs, List.mem_cons, List.not_mem_nil, or_false, not_or]
  exact ⟨ha _ (seqOff_lt hn (by decide)), ha _ (seqOff_lt hn (by decide)), ha _ (by decide), ha _ (by decide), ha _ (by decide), hj⟩

/-- A register of a sequencer that the exposure loop leaves. -/
theorem seqReg_not_aeWords (hn : n < 4) {k : Nat} (hk : k < 0x40) (hne : k ≠ 0x10 ∧ k ≠ 0x0C) : regAddr 0x027 (seqOff n k) ∉ aeWords n := by
  have hge : 0x080 ≤ seqOff n k := (Nat.le_add_right _ _).trans (Nat.le_add_right _ _)
  exact List.not_mem_cons_of_ne_of_not_mem (seqReg_ne n hne.1) <| List.not_mem_cons_of_ne_of_not_mem (seqReg_ne n hne.2) <|
    not_logged (fun h => absurd ((by decide : ∀ o ∈ [0x014, 0x020, 0x024], o < 0x080) _ h) (Nat.not_lt.mpr hge)) (by decide) (seqOff_lt hn hk)

end

section
variable (c : Chip) (t0 : Nat) (ps : List Nat)

theorem Chip.latchAll_rest : ps.foldl (Chip.latchDmd · t0) c = { c with dmd := (ps.foldl (Chip.latchDmd · t0) c).dmd } :=
  List.foldlRecOn ps (Chip.latchDmd · t0) (motive := fun d : Chip => d = { c with dmd := d.dmd }) rfl fun d hd p _ => by
    rw [hd]
    rfl

/-- The settings of page 0x026 that a port latches. -/
def Chip.dmdSettings (c : Chip) (p : Nat) : DmdLatch :=
  { thresh := c.fld 0x026 (dmdOff p 0x08) 0 24, inShift := c.fld 0x026 (dmdOff p 0x0C) 16 3, satLevel := c.fld 0x026 (dmdOff p 0x0C) 0 16 }

theorem Chip.dmdPort_setDmdPort (p : Nat) (d : DmdPort) (k : Nat) : (c.setDmdPort p d).dmdPort k = if p = k then d else c.dmdPort k := by
  simp only [Chip.dmdPort, Chip.setDmdPort, aget_aput]
  split <;> rfl

theorem Chip.latchDmd_port (p k : Nat) (h : p ≠ k) : (c.latchDmd t0 p).dmdPort k = c.dmdPort k := by
  rw [Chip.latchDmd, Chip.dmdPort_setDmdPort, if_neg h]

theorem Chip.latchDmd_head (p : Nat) : ((c.latchDmd t0 p).dmdPort p).latches.head? = some (t0, c.dmdSettings p) := by
  rw [Chip.latchDmd, Chip.dmdPort_setDmdPort, if_pos rfl]
  rfl

variable {ps}

theorem Chip.latchAll_port {k : Nat} (h : k ∉ ps) : (ps.foldl (Chip.latchDmd · t0) c).dmdPort k = c.dmdPort k :=
  List.foldlRecOn ps (Chip.latchDmd · t0) (motive := fun d : Chip => d.dmdPort k = c.dmdPort k) rfl fun d hd p hp =>
    (d.latchDmd_port t0 p k fun he => h (he ▸ hp)).trans hd

theorem Chip.latchAll_head {p : Nat} (hp : p ∈ ps) :
    ((ps.foldl (Chip.latchDmd · t0) c).dmdPort p).latches.head? = some (t0, c.dmdSettings p) := by
  induction ps generalizing c with
  | nil => exact absurd hp List.not_mem_nil
  | cons m ps ih =>
    by_cases h : p ∈ ps
    · exact ih (c.latchDmd t0 m) h
    · obtain rfl : p = m := (List.mem_cons.mp hp).resolve_right h
      rw [List.foldl_cons, Chip.latchAll_port _ _ h, c.latchDmd_head]

end

/-! A code boundary. -/

section
variable (c : Chip) (n fire t0 : Nat) (f : Bool)

/-- The number of the period that begins at a code boundary. -/
def Chip.boundaryPeriod (c : Chip) (n : Nat) (f : Bool) : Nat :=
  if f && (c.seq n).boundFire.isSome && (c.seq n).boundFire == (c.seq n).gapFire then (c.seq n).next - 1 else (c.seq n).next

/-- The registers at a code boundary, before the fields are latched from them. -/
def Chip.boundaryRegs (c : Chip) (n : Nat) (f : Bool) : Chip :=
  (c.setBit 0x027 (seqOff n 0x24) 12 f).aeLoop n (c.boundaryPeriod n f) f

/-- The sequencer after a code boundary. -/
def Chip.boundarySeq (c : Chip) (n fire t0 : Nat) (f : Bool) : SeqState :=
  { c.seq n with
    cur := c.boundaryPeriod n f, next := c.boundaryPeriod n f + 1
    trigDelay := (c.boundaryRegs n f).fld 0x027 (seqOff n 0x04) 16 16
    trigWidth := (c.boundaryRegs n f).fld 0x027 (seqOff n 0x04) 0 16
    stbDelay := (c.boundaryRegs n f).fld 0x027 (seqOff n 0x08) 0 16
    stbWidth := (c.boundaryRegs n f).fld 0x027 (seqOff n 0x0C) 0 20
    recs := (c.seq n).recs.filter fun r => decide (c.boundaryPeriod n f ≤ r.1 / 4 + 2)
    boundFire := some fire, boundAt := t0 }

theorem Chip.codeBoundary_eq : c.codeBoundary n fire t0 f =
    (maskBits 4 ((c.boundaryRegs n f).seqPorts n)).foldl (Chip.latchDmd · t0)
      ((c.boundaryRegs n f).setSeq n (c.boundarySeq n fire t0 f)) := rfl

theorem Chip.codeBoundary_seq : (c.codeBoundary n fire t0 f).seq n = c.boundarySeq n fire t0 f := by
  rw [c.codeBoundary_eq, Chip.latchAll_rest]
  exact Chip.seq_setSeq _ _ _

theorem Chip.codeBoundary_regs : (c.codeBoundary n fire t0 f).regs = (c.boundaryRegs n f).regs := by
  rw [c.codeBoundary_eq, Chip.latchAll_rest]
  rfl

theorem Chip.boundaryRegs_wordAt {a : Nat} (h : a ≠ regAddr 0x027 (seqOff n 0x24)) (ha : c.bit 0x027 (seqOff n 0x10) 31 = false ∨ a ∉ aeWords n) :
    (c.boundaryRegs n f).wordAt a = c.wordAt a := by
  have hset := c.wordAt_setFld_ne 12 1 f.toNat h
  rcases ha with ha | ha
  · rw [Chip.boundaryRegs, Chip.aeLoop_off]
    · exact hset
    · exact (c.bit_setBit_ne _ _ _ _ _ _ _ (seqReg_ne n (by decide))).trans ha
  · exact (Chip.aeLoop_wordAt _ _ _ _ ha).trans hset

theorem Chip.boundaryRegs_code (hn : n < 4) (lo w : Nat) (h : lo + w ≤ 12) : (c.boundaryRegs n f).fld 0x027 (seqOff n 0x24) lo w = c.fld 0x027 (seqOff n 0x24) lo w := by
  rw [Chip.boundaryRegs, Chip.fld_of_word (Chip.aeLoop_wordAt _ _ _ _ (seqReg_not_aeWords hn (by decide) (by decide)))]
  exact c.fld_setFld_other _ _ _ _ _ _ _ (by decide) (.inr h)

end

/-! The rotation's move at a restart. -/

section
variable (c : Chip) (n : Nat)

/-- The rotation's next entry. -/
def Chip.nextRot (c : Chip) (n : Nat) : Nat := (c.seqRot n + 1) % c.rotLen n

theorem Chip.rotate_word : (c.rotate n).rd 0x027 (seqOff n 0x24) = word (c.rotCode n (c.nextRot n) + 256 * c.nextRot n) := by
  rw [show (c.rotate n).rd 0x027 (seqOff n 0x24) = (c.setCode n (c.rotCode n (c.nextRot n)) 0 (c.nextRot n) false).rd 0x027 (seqOff n 0x24) from rfl,
    Chip.setCode, Chip.rd_wr_same]
  rfl

theorem Chip.rotate_code : (c.rotate n).seqCode n = c.rotCode n (c.nextRot n) ∧ (c.rotate n).seqChip n = 0 := by
  have hc : c.rotCode n (c.nextRot n) < 8 := bits_lt _ _ _
  have hf : ∀ {lo w}, lo + w ≤ 8 → (c.rotate n).fld 0x027 (seqOff n 0x24) lo w = bits (c.rotCode n (c.nextRot n)) lo w := fun {lo w} h => by
    rw [Chip.fld, c.rotate_word, bits_word _ (h.trans (by decide)), Nat.add_comm, Nat.mul_comm]
    exact bits_add_high (k := 8) _ _ h
  exact ⟨(hf (by decide)).trans ((congrArg (· % 8) (Nat.div_one _)).trans (Nat.mod_eq_of_lt hc)),
    (hf (by decide)).trans (congrArg (· % 16) (Nat.div_eq_of_lt (hc.trans (by decide))))⟩

theorem Chip.rotate_seq : (c.rotate n).seq n = { c.seq n with restart := none, restartNext := false } := Chip.seq_setSeq _ _ _

theorem Chip.rotate_wordAt {a : Nat} (h : a ≠ regAddr 0x027 (seqOff n 0x24)) : (c.rotate n).wordAt a = c.wordAt a := c.wordAt_wr_ne _ h

end

/-! A fire that is taken. -/

/-- The stages of a fire that is taken: it is counted, the rotation moves on where the code restarts, and chip 0 is a code boundary. -/
def Chip.counted (c : Chip) (n : Nat) : Chip := c.count 0x027 (seqOff n 0x28)
def Chip.rotated (c : Chip) (n : Nat) (restart : Bool) : Chip := if restart then c.rotate n else c
def Chip.atBoundary (c : Chip) (n fire t0 : Nat) (restart : Bool) : Chip :=
  if c.seqChip n = 0 then c.codeBoundary n fire t0 restart else c

/-- The step that a fire starts. -/
def SeqState.fireStep (q : SeqState) (code chip fire t0 : Nat) (gap : Bool) : FireStep :=
  { tag := { code := code, chip := chip, fire := fire, period := if gap then none else some q.cur, bound := q.boundAt }
    trigOn := t0 + 10 * q.trigDelay, trigOff := t0 + 10 * q.trigDelay + 10 * q.trigWidth
    stbOn := t0 + 10 * q.stbDelay, stbOff := t0 + 10 * q.stbDelay + 10 * q.stbWidth
    stb := if codeLit code chip && q.stbWidth != 0 then 0 else 2 }

/-- The end of a fire: its step begins, the chip moves on, and an event counter takes one. -/
def Chip.fired (c : Chip) (n t0 chip : Nat) (st : FireStep) : Chip :=
  ((c.setSeq n { c.seq n with lastFire := some t0, step := some st }).setFld 0x027 (seqOff n 0x24) 4 4 ((chip + 1) % codeLen (c.seqCode n))).signal'
    (Config.lisEvent n % 256) 1

/-- A fire restarts the code after a flood. -/
def SeqState.restarts (q : SeqState) (fire : Nat) : Bool := q.restartNext || q.restart.any (firePast fire)

theorem Chip.takeFire_eq (c : Chip) (n t0 : Nat) : c.takeFire n t0 =
    let d := c.counted n
    let fire := d.fires n
    let restart := (d.seq n).restarts fire
    let e := d.rotated n restart
    let b := e.atBoundary n fire t0 restart
    b.fired n t0 (e.seqChip n) ((b.seq n).fireStep (b.seqCode n) (e.seqChip n) fire t0 (!restart && (d.seq n).gapFire == some fire)) := rfl

section
variable (c : Chip) (n : Nat)

theorem Chip.counted_fires : (c.counted n).fires n = (c.fires n + 1) % 2 ^ 32 := by
  rw [Chip.fires, Chip.counted, Chip.rd_count_same, BitVec.toNat_add]
  rfl

theorem Chip.counted_wordAt {a : Nat} (h : a ≠ regAddr 0x027 (seqOff n 0x28)) : (c.counted n).wordAt a = c.wordAt a := c.wordAt_wr_ne _ h

theorem Chip.rotated_code (restart : Bool) :
    (c.rotated n restart).seqCode n = (if restart then c.rotCode n (c.nextRot n) else c.seqCode n) ∧
    (c.rotated n restart).seqChip n = (if restart then 0 else c.seqChip n) := by
  cases restart with
  | false => exact ⟨rfl, rfl⟩
  | true => exact c.rotate_code n

theorem Chip.rotated_wordAt (restart : Bool) {a : Nat} (h : a ≠ regAddr 0x027 (seqOff n 0x24)) :
    (c.rotated n restart).wordAt a = c.wordAt a := by
  cases restart with
  | false => rfl
  | true => exact c.rotate_wordAt n h

end

section
variable (c : Chip) (n fire t0 : Nat) (restart : Bool)

theorem Chip.atBoundary_ne (h : c.seqChip n ≠ 0) : c.atBoundary n fire t0 restart = c := if_neg h
theorem Chip.atBoundary_zero (h : c.seqChip n = 0) : c.atBoundary n fire t0 restart = c.codeBoundary n fire t0 restart := if_pos h

theorem Chip.atBoundary_code (hn : n < 4) : (c.atBoundary n fire t0 restart).seqCode n = c.seqCode n := by
  by_cases h : c.seqChip n = 0
  · rw [c.atBoundary_zero _ _ _ _ h]
    exact (Chip.fld_of_word (Chip.wordAt_of_regs (c.codeBoundary_regs _ _ _ _) _) _ _).trans (c.boundaryRegs_code _ _ hn _ _ (by decide))
  · rw [c.atBoundary_ne _ _ _ _ h]

theorem Chip.atBoundary_wordAt {a : Nat} (h : a ≠ regAddr 0x027 (seqOff n 0x24))
    (ha : c.seqChip n ≠ 0 ∨ c.bit 0x027 (seqOff n 0x10) 31 = false ∨ a ∉ aeWords n) :
    (c.atBoundary n fire t0 restart).wordAt a = c.wordAt a := by
  by_cases hz : c.seqChip n = 0
  · rw [c.atBoundary_zero _ _ _ _ hz, Chip.wordAt_of_regs (c.codeBoundary_regs _ _ _ _)]
    exact c.boundaryRegs_wordAt _ _ h (ha.resolve_left (not_not.mpr hz))
  · rw [c.atBoundary_ne _ _ _ _ hz]

end

section
variable (c : Chip) (n t0 chip : Nat) (st : FireStep)

/-- The chip as a fire's signal finds it. -/
def Chip.unsignalled (c : Chip) (n t0 chip : Nat) (st : FireStep) : Chip :=
  (c.setSeq n { c.seq n with lastFire := some t0, step := some st }).setFld 0x027 (seqOff n 0x24) 4 4 ((chip + 1) % codeLen (c.seqCode n))

theorem Chip.fired_noted : (c.unsignalled n t0 chip st).Noted (c.fired n t0 chip st) := Chip.Noted.signal _ 1 (Nat.mod_lt _ (by decide))

theorem Chip.fired_seq : (c.fired n t0 chip st).seq n = { c.seq n with lastFire := some t0, step := some st } :=
  (Chip.seq_of_lis (c.fired_noted n t0 chip st).lis n).trans (Chip.seq_setSeq _ _ _)

theorem Chip.fired_code (hn : n < 4) : (c.fired n t0 chip st).seqCode n = c.seqCode n ∧
    (c.fired n t0 chip st).seqChip n = (chip + 1) % codeLen (c.seqCode n) % 16 := by
  have hf := fun lo w => (c.fired_noted n t0 chip st).fld (p := 0x027) (off := seqOff n 0x24) lo w (by decide) (seqOff_lt hn (by decide))
  exact ⟨(hf 0 3).trans ((c.setSeq n _).fld_setFld_other _ _ _ _ _ _ _ (by decide) (.inr (by decide))),
    (hf 4 4).trans ((c.setSeq n _).fld_setFld_same _ _ _ _ _ (by decide))⟩

theorem Chip.fired_wordAt {a : Nat} (h : a ≠ regAddr 0x027 (seqOff n 0x24)) (ha : a < 0x010000 ∨ 0x020000 ≤ a) :
    (c.fired n t0 chip st).wordAt a = c.wordAt a :=
  ((c.fired_noted n t0 chip st).word a ha).trans ((c.setSeq n _).wordAt_wr_ne _ h)

theorem Chip.fired_dmdPort (p : Nat) : (c.fired n t0 chip st).dmdPort p = c.dmdPort p := by
  rw [Chip.dmdPort, (c.fired_noted n t0 chip st).dmd]
  rfl

theorem Chip.unsignalled_evt {x : Nat} (hx : x < 256) : (c.unsignalled n t0 chip st).evt x = c.evt x :=
  Chip.evt_of_words hx fun a h1 h2 => (c.setSeq n _).wordAt_wr_ne _ fun e => absurd (e ▸ h2) (Nat.not_lt.mpr (Nat.le_add_right_of_le (by decide)))

theorem Chip.fired_evt :
    (c.fired n t0 chip st).evt (Config.lisEvent n % 256) = min (c.evt (Config.lisEvent n % 256) + 1) (2 ^ 64 - 1) ∧
    ∀ x, x < 256 → x ≠ Config.lisEvent n % 256 → (c.fired n t0 chip st).evt x = c.evt x := by
  have he : Config.lisEvent n % 256 < 256 := Nat.mod_lt _ (by decide)
  refine ⟨(Chip.signal_evt_same _ _ 1 he).trans ?_, fun x hx hne => (Chip.signal_evt_ne _ 1 hx hne).trans (c.unsignalled_evt _ _ _ _ hx)⟩
  exact congrArg (fun v => min (v + 1) (2 ^ 64 - 1)) (c.unsignalled_evt n t0 chip st he)

end

section
variable (c : Chip) (n t0 : Nat)

/-- The fire's number, whether it restarts the code, and the code and chip of its step. -/
def Chip.nextFire (c : Chip) (n : Nat) : Nat := (c.fires n + 1) % 2 ^ 32
def Chip.restarts (c : Chip) (n : Nat) : Bool := (c.seq n).restarts (c.nextFire n)
def Chip.fireCode (c : Chip) (n : Nat) : Nat := if c.restarts n then c.rotCode n (c.nextRot n) else c.seqCode n
def Chip.fireChip (c : Chip) (n : Nat) : Nat := if c.restarts n then 0 else c.seqChip n

/-- The chip once a fire is counted and the rotation has moved on, and then once its boundary has passed. -/
def Chip.fireBegun (c : Chip) (n : Nat) : Chip := (c.counted n).rotated n (c.restarts n)
def Chip.firePassed (c : Chip) (n t0 : Nat) : Chip := (c.fireBegun n).atBoundary n (c.nextFire n) t0 (c.restarts n)

theorem Chip.fireBegun_code : (c.fireBegun n).seqCode n = c.fireCode n ∧ (c.fireBegun n).seqChip n = c.fireChip n := by
  have hw : ∀ off lo w, off ≠ 0x28 → (c.counted n).fld 0x027 (seqOff n off) lo w = c.fld 0x027 (seqOff n off) lo w := fun off lo w h =>
    Chip.fld_of_word (c.counted_wordAt n (seqReg_ne n h)) _ _
  have hcode : (c.counted n).seqCode n = c.seqCode n := hw _ _ _ (by decide)
  have hchip : (c.counted n).seqChip n = c.seqChip n := hw _ _ _ (by decide)
  have hrot : (c.counted n).nextRot n = c.nextRot n := by
    rw [Chip.nextRot, Chip.nextRot, Chip.seqRot, Chip.seqRot, Chip.rotLen, Chip.rotLen, hw _ _ _ (by decide), hw _ _ _ (by decide)]
  have hentry : ∀ i, (c.counted n).rotCode n i = c.rotCode n i := fun i => hw _ _ _ (by decide)
  obtain ⟨h1, h2⟩ := (c.counted n).rotated_code n (c.restarts n)
  rw [hcode, hrot, hentry] at h1
  rw [hchip] at h2
  exact ⟨h1, h2⟩

theorem Chip.takeFire_fired (hn : n < 4) : c.takeFire n t0 = (c.firePassed n t0).fired n t0 (c.fireChip n)
    (((c.firePassed n t0).seq n).fireStep (c.fireCode n) (c.fireChip n) (c.nextFire n) t0 (!c.restarts n && (c.seq n).gapFire == some (c.nextFire n))) := by
  obtain ⟨hcode, hchip⟩ := c.fireBegun_code n
  have hpass : (c.firePassed n t0).seqCode n = c.fireCode n := ((c.fireBegun n).atBoundary_code _ _ _ _ hn).trans hcode
  rw [c.takeFire_eq]
  dsimp only
  rw [c.counted_fires, show (c.counted n).seq n = c.seq n from rfl]
  rw [show (c.seq n).restarts ((c.fires n + 1) % 2 ^ 32) = c.restarts n from rfl, show (c.fires n + 1) % 2 ^ 32 = c.nextFire n from rfl,
    show (c.counted n).rotated n (c.restarts n) = c.fireBegun n from rfl, hchip,
    show (c.fireBegun n).atBoundary n (c.nextFire n) t0 (c.restarts n) = c.firePassed n t0 from rfl, hpass]

theorem Chip.fireBegun_wordAt {a : Nat} (h : a ∉ [regAddr 0x027 (seqOff n 0x28), regAddr 0x027 (seqOff n 0x24)]) :
    (c.fireBegun n).wordAt a = c.wordAt a := by
  simp only [List.mem_cons, List.not_mem_nil, or_false, not_or] at h
  obtain ⟨h28, h24⟩ := h
  exact ((c.counted n).rotated_wordAt n _ h24).trans (c.counted_wordAt n h28)

theorem Chip.fireBegun_fld {off : Nat} (lo w : Nat) (h : off < 0x40 ∧ off ≠ 0x28 ∧ off ≠ 0x24) :
    (c.fireBegun n).fld 0x027 (seqOff n off) lo w = c.fld 0x027 (seqOff n off) lo w :=
  Chip.fld_of_word (c.fireBegun_wordAt n
    (List.not_mem_cons_of_ne_of_not_mem (seqReg_ne n h.2.1) (mt List.mem_singleton.mp (seqReg_ne n h.2.2)))) _ _

theorem Chip.firePassed_wordAt {a : Nat} (h : a ∉ [regAddr 0x027 (seqOff n 0x28), regAddr 0x027 (seqOff n 0x24)])
    (ha : c.fireChip n ≠ 0 ∨ c.bit 0x027 (seqOff n 0x10) 31 = false ∨ a ∉ aeWords n) : (c.firePassed n t0).wordAt a = c.wordAt a := by
  have h24 : a ≠ regAddr 0x027 (seqOff n 0x24) := fun he => h (by simp [he])
  obtain ⟨-, hchip⟩ := c.fireBegun_code n
  have hbit : (c.fireBegun n).bit 0x027 (seqOff n 0x10) 31 = c.bit 0x027 (seqOff n 0x10) 31 := by
    rw [Chip.bit, Chip.bit, c.fireBegun_fld n _ _ (by decide)]
  refine ((c.fireBegun n).atBoundary_wordAt _ _ _ _ h24 ?_).trans (c.fireBegun_wordAt n h)
  rwa [hchip, hbit]

theorem Chip.takeFire_seq (hn : n < 4) : (c.takeFire n t0).seq n = { (c.firePassed n t0).seq n with
    lastFire := some t0
    step := some (((c.firePassed n t0).seq n).fireStep (c.fireCode n) (c.fireChip n) (c.nextFire n) t0
      (!c.restarts n && (c.seq n).gapFire == some (c.nextFire n))) } := by
  rw [c.takeFire_fired n t0 hn]
  exact Chip.fired_seq _ _ _ _ _

/-- Inside a code the sequencer's latched fields stand. -/
theorem Chip.firePassed_inside (h : c.fireChip n ≠ 0) : (c.firePassed n t0).seq n = c.seq n := by
  have hr : c.restarts n = false := by
    cases hr : c.restarts n with
    | false => rfl
    | true => exact absurd (if_pos hr) h
  rw [Chip.firePassed, Chip.atBoundary_ne _ _ _ _ _ (by rwa [(c.fireBegun_code n).2]), Chip.fireBegun, hr]
  rfl

theorem Chip.firePassed_boundary (h : c.fireChip n = 0) : c.firePassed n t0 = (c.fireBegun n).codeBoundary n (c.nextFire n) t0 (c.restarts n) :=
  Chip.atBoundary_zero _ _ _ _ _ ((c.fireBegun_code n).2.trans h)

/-- At a code boundary a field of the sequencer's block, read as the boundary latches it. -/
theorem Chip.boundary_fld (hn : n < 4) {off : Nat} (lo w : Nat) (ho : off < 0x40 ∧ off ≠ 0x28 ∧ off ≠ 0x24)
    (ha : c.bit 0x027 (seqOff n 0x10) 31 = false ∨ (off ≠ 0x10 ∧ off ≠ 0x0C)) :
    ((c.fireBegun n).boundaryRegs n (c.restarts n)).fld 0x027 (seqOff n off) lo w = c.fld 0x027 (seqOff n off) lo w := by
  refine (Chip.fld_of_word (Chip.boundaryRegs_wordAt _ _ _ (seqReg_ne n ho.2.2) ?_) _ _).trans
    (c.fireBegun_fld n lo w ho)
  rw [Chip.bit, c.fireBegun_fld n _ _ (by decide), ← Chip.bit]
  exact ha.imp_right fun h => seqReg_not_aeWords hn ho.1 h

theorem Chip.takeFire_latches (hn : n < 4) {p : Nat} (h : c.fireChip n = 0) (hp : bits (c.seqPorts n) p 1 = 1) (hp4 : p < 4) :
    ((c.takeFire n t0).dmdPort p).latches.head? = some (t0, c.dmdSettings p) := by
  have hports : ((c.fireBegun n).boundaryRegs n (c.restarts n)).seqPorts n = c.seqPorts n :=
    c.boundary_fld n hn 8 4 (by decide) (.inr (by decide))
  have hset : ((c.fireBegun n).boundaryRegs n (c.restarts n)).dmdSettings p = c.dmdSettings p := by
    have hw : ∀ off lo w, off < 0x1000 → ((c.fireBegun n).boundaryRegs n (c.restarts n)).fld 0x026 off lo w = c.fld 0x026 off lo w := fun off lo w ho =>
      have hne : ∀ o < 0x1000, regAddr 0x026 off ≠ regAddr 0x027 o := fun o => regAddr_page_ne _ _ _ _ (by decide) ho
      have hne' := fun k (hk : k < 0x40) => hne _ (seqOff_lt hn hk)
      Chip.fld_of_word ((Chip.boundaryRegs_wordAt _ _ _ (hne' _ (by decide)) (.inr (not_aeWords hn hne (regAddr_page_ne _ _ _ _ (by decide) ho (by decide))))).trans
        (c.fireBegun_wordAt n (List.not_mem_cons_of_ne_of_not_mem (hne' _ (by decide)) (mt List.mem_singleton.mp (hne' _ (by decide)))))) _ _
    have ho : ∀ k ∈ [0x08, 0x0C], dmdOff p k < 0x1000 := (by decide : ∀ p < 4, ∀ k ∈ [0x08, 0x0C], dmdOff p k < 0x1000) p hp4
    rw [Chip.dmdSettings, Chip.dmdSettings, hw _ _ _ (ho _ (by decide)), hw _ _ _ (ho _ (by decide)), hw _ _ _ (ho _ (by decide))]
  rw [c.takeFire_fired n t0 hn, Chip.fired_dmdPort, c.firePassed_boundary n t0 h, Chip.codeBoundary_eq, hports, Chip.latchAll_head]
  · exact congrArg (fun l => some (t0, l)) hset
  · exact List.mem_filter.mpr ⟨List.mem_range.mpr hp4, by simp [hp]⟩

end

/-! What a fire that is taken leaves, as a chip with its registers, its sequencers and its ports shows it. -/

section
variable {c d : Chip} {n t0 : Nat} (hn : n < 4)
include hn

theorem Chip.firePassed_evt {x : Nat} (hx : x < 256) : (c.firePassed n t0).evt x = c.evt x := Chip.evt_of_words hx fun a h1 h2 => by
  have hne : ∀ off < 0x1000, a ≠ regAddr 0x027 off := fun off ho e => absurd (e ▸ h2) (Nat.not_lt.mpr (Nat.le_add_right_of_le (by decide)))
  have hseq := fun k (hk : k < 0x40) => hne (seqOff n k) (seqOff_lt hn hk)
  exact c.firePassed_wordAt n t0 (by simp [hseq]) (.inr (.inr (not_aeWords hn hne (fun e => absurd (e ▸ h1) (by decide)))))

theorem Chip.takeFire_seq_of (hl : d.lis = (c.takeFire n t0).lis) : d.seq n = { (c.firePassed n t0).seq n with
    lastFire := some t0
    step := some (((c.firePassed n t0).seq n).fireStep (c.fireCode n) (c.fireChip n) (c.nextFire n) t0
      (!c.restarts n && (c.seq n).gapFire == some (c.nextFire n))) } := (Chip.seq_of_lis hl n).trans (c.takeFire_seq n t0 hn)

theorem Chip.takeFire_last (hl : d.lis = (c.takeFire n t0).lis) : (d.seq n).lastFire = some t0 := by rw [Chip.takeFire_seq_of hn hl]

theorem Chip.takeFire_step (hl : d.lis = (c.takeFire n t0).lis) : (d.seq n).step = some ((d.seq n).fireStep (c.fireCode n) (c.fireChip n) (c.nextFire n)
    t0 (!c.restarts n && (c.seq n).gapFire == some (c.nextFire n))) := by
  rw [Chip.takeFire_seq_of hn hl]
  rfl

theorem Chip.takeFire_inside (hl : d.lis = (c.takeFire n t0).lis) (h : c.fireChip n ≠ 0) :
    d.seq n = { c.seq n with lastFire := (d.seq n).lastFire, step := (d.seq n).step } := by
  rw [Chip.takeFire_seq_of hn hl, c.firePassed_inside n t0 h]

theorem Chip.takeFire_boundary (hl : d.lis = (c.takeFire n t0).lis) (h : c.fireChip n = 0) :
    (d.seq n).trigDelay = c.fld 0x027 (seqOff n 0x04) 16 16 ∧ (d.seq n).trigWidth = c.fld 0x027 (seqOff n 0x04) 0 16 ∧
    (d.seq n).stbDelay = c.fld 0x027 (seqOff n 0x08) 0 16 ∧
    (c.bit 0x027 (seqOff n 0x10) 31 = false → (d.seq n).stbWidth = c.fld 0x027 (seqOff n 0x0C) 0 20) := by
  rw [Chip.takeFire_seq_of hn hl, c.firePassed_boundary n t0 h, Chip.codeBoundary_seq]
  exact ⟨c.boundary_fld n hn _ _ (by decide) (.inr (by decide)), c.boundary_fld n hn _ _ (by decide) (.inr (by decide)),
    c.boundary_fld n hn _ _ (by decide) (.inr (by decide)), fun h => c.boundary_fld n hn _ _ (by decide) (.inl h)⟩

variable (hr : d.regs = (c.takeFire n t0).regs)
include hr

theorem Chip.takeFire_word {a : Nat} (h24 : a ≠ regAddr 0x027 (seqOff n 0x24)) (ha : a < 0x010000 ∨ 0x020000 ≤ a) :
    d.wordAt a = (c.firePassed n t0).wordAt a := by
  rw [Chip.wordAt_of_regs hr, c.takeFire_fired n t0 hn, Chip.fired_wordAt _ _ _ _ _ h24 ha]

theorem Chip.takeFire_fires : d.fires n = c.nextFire n := by
  have h24 : regAddr 0x027 (seqOff n 0x28) ≠ regAddr 0x027 (seqOff n 0x24) := seqReg_ne n (by decide)
  have hw := (Chip.takeFire_word hn hr h24 (.inr (Nat.le_add_right_of_le (by decide)))).trans
    (((c.fireBegun n).atBoundary_wordAt _ _ _ _ h24 (.inr (.inr (seqReg_not_aeWords hn (by decide) (by decide))))).trans
      ((c.counted n).rotated_wordAt n _ h24))
  exact (congrArg BitVec.toNat hw).trans (c.counted_fires n)

theorem Chip.takeFire_code : d.seqCode n = c.fireCode n ∧ d.seqChip n = (c.fireChip n + 1) % codeLen (c.fireCode n) % 16 := by
  have hw := (Chip.wordAt_of_regs hr (regAddr 0x027 (seqOff n 0x24))).trans (congrArg (fun e : Chip => e.wordAt (regAddr 0x027 (seqOff n 0x24))) (c.takeFire_fired n t0 hn))
  have hcode := ((c.fireBegun n).atBoundary_code n (c.nextFire n) t0 (c.restarts n) hn).trans (c.fireBegun_code n).1
  obtain ⟨h1, h2⟩ := (c.firePassed n t0).fired_code n t0 (c.fireChip n) (((c.firePassed n t0).seq n).fireStep (c.fireCode n) (c.fireChip n)
    (c.nextFire n) t0 (!c.restarts n && (c.seq n).gapFire == some (c.nextFire n))) hn
  exact ⟨(Chip.fld_of_word hw _ _).trans (h1.trans hcode), (Chip.fld_of_word hw _ _).trans (h2.trans (congrArg (fun k => (c.fireChip n + 1) % codeLen k % 16) hcode))⟩

theorem Chip.takeFire_evt : d.evt (Config.lisEvent n % 256) = min (c.evt (Config.lisEvent n % 256) + 1) (2 ^ 64 - 1) := by
  rw [Chip.evt_congr hr, c.takeFire_fired n t0 hn, (Chip.fired_evt _ _ _ _ _).1, Chip.firePassed_evt hn (Nat.mod_lt _ (by decide))]

theorem Chip.takeFire_evts {x : Nat} (hx : x < 256) (hne : x ≠ Config.lisEvent n % 256) : d.evt x = c.evt x := by
  rw [Chip.evt_congr hr, c.takeFire_fired n t0 hn, (Chip.fired_evt _ _ _ _ _).2 x hx hne, Chip.firePassed_evt hn hx]

end

/-! The command. -/

theorem any_lt_of_le {l : Option Nat} {a b k : Nat} (hab : b ≤ a) (h : l.any (fun t => decide (a < t + k)) = true) :
    l.any (fun t => decide (b < t + k)) = true := by
  cases l with
  | none => exact h
  | some t => exact decide_eq_true (hab.trans_lt (of_decide_eq_true h))

theorem any_lt_eq_false {l : Option Nat} {a b k : Nat} (hab : a ≤ b) (h : l.all (fun t => decide (t + k ≤ a)) = true) :
    l.any (fun t => decide (b < t + k)) = false := by
  cases l with
  | none => rfl
  | some t => exact decide_eq_false (Nat.not_lt.mpr ((of_decide_eq_true h).trans hab))

section
variable (c : Chip) (n : Nat)

theorem Chip.fireSeq_idle (h : c.lisRuns = false) : c.fireSeq n = c := by simp [Chip.fireSeq, h]

/-- The moment of a fire, 20 to 60 ns ahead. -/
def Chip.fireTime (c : Chip) : Nat := c.time.now + 20 + Config.choice c.draw.1 % 41

theorem Chip.le_fireTime : c.time.now + 20 ≤ c.fireTime := Nat.le_add_right _ _

theorem Chip.fireTime_le : c.fireTime ≤ c.time.now + 60 :=
  Nat.add_le_add_left (Nat.le_of_lt_succ (Nat.mod_lt (Config.choice c.draw.1) (show 0 < 41 by decide))) (c.time.now + 20)

theorem Chip.fireSeq_run (h : c.lisRuns = true) : c.fireSeq n =
    if (c.seq n).step.isSome || (c.seq n).lastFire.any fun t => decide (c.fireTime < t + 4000000) then c.draw.2.count 0x027 (seqOff n 0x2C)
    else c.draw.2.takeFire n c.fireTime := by
  rw [Chip.fireSeq, h]
  rfl

theorem Chip.fireSeq_refused (h : c.lisRuns = true)
    (hr : (c.seq n).step ≠ none ∨ (c.seq n).lastFire.any (fun t => decide (c.time.now + 60 < t + 4000000)) = true) :
    c.fireSeq n = c.draw.2.count 0x027 (seqOff n 0x2C) :=
  (c.fireSeq_run n h).trans (if_pos (Bool.or_eq_true_iff.mpr (hr.imp Option.isSome_iff_ne_none.mpr (any_lt_of_le c.fireTime_le))))

theorem Chip.fireSeq_taken (h : c.lisRuns = true) (hs : (c.seq n).step = none)
    (hl : (c.seq n).lastFire.all (fun t => decide (t + 4000000 ≤ c.time.now + 20)) = true) : c.fireSeq n = c.draw.2.takeFire n c.fireTime := by
  refine (c.fireSeq_run n h).trans (if_neg ?_)
  rw [hs, any_lt_eq_false c.le_fireTime hl]
  decide

end

theorem exec_lisFire {req : Requester} {m : BitVec 4} {s : State} (hg : s.passes req 0x027 0x040) :
    exec (.lisFire req m) s = .next (s.onChip fun c => (maskBits 4 m.toNat).foldl Chip.fireSeq c) :=
  congrArg _ (s.onChip_gated _ _ _ _ hg)

theorem maskBits_one (n : Fin 4) : maskBits 4 (BitVec.ofNat 4 (2 ^ n.val)).toNat = [n.val] := by
  revert n
  decide

theorem exec_lisFire_one {req : Requester} {s : State} (n : Fin 4) (hg : s.passes req 0x027 0x040) :
    exec (.lisFire req (BitVec.ofNat 4 (2 ^ n.val))) s = .next (s.onChip fun c => c.fireSeq n) := by
  rw [exec_lisFire hg, maskBits_one]
  rfl

/-- Settles O34: the words, the sequencer and the ports are followed through the stages of a fire that is taken. -/
theorem lisFire : Obligations.LisFire := by
  unfold Obligations.LisFire
  refine ⟨fun req m s hg => exec_lisFire hg, fun req n s hg => ⟨exec_lisFire_one n hg, fun h => ?idle, fun h hr => ?refused, fun h hs hl => ?taken⟩⟩
  case idle => exact (exec_lisFire_one n hg).trans (congrArg _ (s.onChip_congr _ _ (s.chip.fireSeq_idle n h)))
  case refused => exact (exec_lisFire_one n hg).trans (congrArg _ (s.onChip_congr _ _ (s.chip.fireSeq_refused n h hr)))
  case taken =>
    have hexec := (exec_lisFire_one n hg).trans (congrArg _ (s.onChip_congr _ (fun c => c.draw.2.takeFire n c.fireTime) (s.chip.fireSeq_taken n h hs hl)))
    refine Answers.of_onChip hexec fun t hk hc hr => ?_
    have hl : t.chip.lis = (s.chip.draw.2.takeFire n s.chip.fireTime).lis := hc ▸ Chip.settle_lis _
    have hget : (t.chip.seq n).lastFire.getD 0 = s.chip.fireTime := congrArg (·.getD 0) (Chip.takeFire_last n.isLt hl)
    dsimp only
    rw [hget]
    obtain ⟨hcode, hchip⟩ := Chip.takeFire_code n.isLt hr
    refine ⟨s.chip.le_fireTime, s.chip.fireTime_le, hk, ?_, hcode, hchip, ?_, ?_, fun h0 => ?_,
      ?_, fun x hx hne => ?_, fun hf a ha hn => ?_⟩
    · exact (Chip.takeFire_fires n.isLt hr).trans rfl
    · exact (Chip.takeFire_step n.isLt hl).trans rfl
    · exact fun h0 => (Chip.takeFire_inside n.isLt hl h0).trans rfl
    · obtain ⟨h1, h2, h3, h4⟩ := Chip.takeFire_boundary n.isLt hl h0
      refine ⟨h1.trans rfl, h2.trans rfl, h3.trans rfl, fun ha => (h4 ha).trans rfl, fun p hp => ?_⟩
      have hport : t.chip.dmdPort p = (s.chip.draw.2.takeFire n s.chip.fireTime).dmdPort p := by rw [Chip.dmdPort, Chip.dmdPort, hc, Chip.settle_dmd]
      exact (congrArg (·.latches.head?) hport).trans <| s.chip.draw.2.takeFire_latches n s.chip.fireTime n.isLt h0 hp p.isLt
    · exact (Chip.takeFire_evt n.isLt hr).trans rfl
    · exact (Chip.takeFire_evts n.isLt hr hx hne).trans rfl
    · exact (Chip.takeFire_word n.isLt hr (fun e => hn (e ▸ List.mem_cons_of_mem _ (List.mem_cons_self ..))) ha).trans
        (s.chip.draw.2.firePassed_wordAt n s.chip.fireTime hn (hf.imp_right .inl))

end Sys2Proof.Machine
end


section
/-! The edges of an LIS step (R193, R206, R218, R392, R499): the clock, the outputs, the tags of the camera ports, and the lamp heads. -/

namespace Sys2Proof.Machine

/-! The clock. -/

theorem Chip.ticks_now (c : Chip) (n : Nat) : (c.ticks n).time.now = c.time.now := by
  unfold Chip.ticks
  dsimp only
  split <;> rfl

theorem Chip.advance_now (c : Chip) (t : Nat) : (c.advance t).time.now = max c.time.now t := by
  unfold Chip.advance
  dsimp only
  split
  · rfl
  · split
    · exact Chip.ticks_now _ _
    · exact Chip.ticks_now _ _

namespace Chip.Passed
variable {c d : Chip} (h : c.Passed d)
include h

theorem lis : d.lis = c.lis := by rw [h.rest]
theorem ntx : d.ntx = c.ntx := by rw [h.rest]
theorem fld {p off : Nat} (lo w : Nat) (hp : p ≠ 0x0D0) (ho : off < 0x1000) : d.fld p off lo w = c.fld p off lo w :=
  Chip.fld_of_word (h.word _ (by simp [timeRegs, regAddr]; lia)) _ _
theorem bit {p off : Nat} (b : Nat) (hp : p ≠ 0x0D0) (ho : off < 0x1000) : d.bit p off b = c.bit p off b := by
  rw [Chip.bit, Chip.bit, h.fld _ _ hp ho]

end Chip.Passed

/-! The tags of a step. -/

@[simp] theorem Chip.ntxPort_setNtxPort (c : Chip) (p : Nat) (x : NtxPort) (k : Nat) :
    (c.setNtxPort p x).ntxPort k = if p = k then x else c.ntxPort k := by
  simp only [Chip.ntxPort, Chip.setNtxPort, aget_aput]
  split <;> rfl

/-- A port takes tags: it is enabled and uses triggers, and is not in reset. -/
def Chip.takesTags (c : Chip) (p : Nat) : Bool := c.enabled (pgCam p) && c.bit (pgCam p) 0x040 24 && !c.bit (pgCam p) 0x010 8

theorem Chip.trigTag_idle {c : Chip} {p : Nat} (h : c.takesTags p = false) (t : Tag) : c.trigTag p t = c := by
  refine if_pos ?_
  revert h
  unfold Chip.takesTags
  cases c.enabled (pgCam p) <;> cases c.bit (pgCam p) 0x040 24 <;> cases c.bit (pgCam p) 0x010 8 <;> decide

/-- The tags of a port with one more, the oldest of three displaced. -/
def Chip.newTags (c : Chip) (p : Nat) (t : Tag) : List (Tag × Nat) :=
  ((c.ntxPort p).tags ++ [(t, c.time.now)]).drop (if (c.ntxPort p).tags.length < 2 then 0 else 1)

theorem Chip.trigTag_takes {c : Chip} {p : Nat} (h : c.takesTags p = true) (t : Tag) : c.trigTag p t =
    let d := c.setNtxPort p { c.ntxPort p with tags := c.newTags p t }
    if (c.ntxPort p).tags.length < 2 then d else (d.count (pgCam p) 0x074).raise (pgCam p) 3 := by
  simp only [Chip.takesTags, Bool.and_eq_true, Bool.not_eq_true'] at h
  obtain ⟨⟨he, ht⟩, hr⟩ := h
  have hlen : (((c.ntxPort p).tags ++ [(t, c.time.now)]).length ≤ 2) = ((c.ntxPort p).tags.length < 2) := by
    simp only [List.length_append, List.length_singleton, eq_iff_iff]
    lia
  simp only [Chip.trigTag, he, ht, hr, hlen, Chip.newTags]
  by_cases hl : (c.ntxPort p).tags.length < 2 <;> simp [hl]

/-- From one chip to the next no part of the chip has changed but camera port `p`. -/
structure Chip.PortOnly (c d : Chip) (p : Nat) : Prop where
  lis : d.lis = c.lis
  time : d.time = c.time
  port : ∀ k, k ≠ p → d.ntxPort k = c.ntxPort k
  word : ∀ a, a / 0x1000 ≠ pgCam p → d.wordAt a = c.wordAt a

theorem Chip.trigTag_portOnly (c : Chip) (p : Nat) (t : Tag) : c.PortOnly (c.trigTag p t) p := by
  have hset : ∀ x, c.PortOnly (c.setNtxPort p x) p := fun x =>
    ⟨rfl, rfl, fun k hk => by rw [Chip.ntxPort_setNtxPort, if_neg hk.symm], fun _ _ => rfl⟩
  cases h : c.takesTags p with
  | false => rw [Chip.trigTag_idle h]; exact ⟨rfl, rfl, fun _ _ => rfl, fun _ _ => rfl⟩
  | true =>
    rw [Chip.trigTag_takes h]
    dsimp only
    split
    · exact hset _
    · refine ⟨rfl, rfl, (hset _).port, fun a ha => ?_⟩
      exact (Chip.wordAt_wr_ne _ _ (by unfold regAddr; omega)).trans (Chip.wordAt_wr_ne _ _ (by unfold regAddr; omega))

section
variable (t : Tag) {ps : List Nat}

theorem Chip.trigTags_rest (c : Chip) : (ps.foldl (fun c p => c.trigTag p t) c).lis = c.lis ∧ (ps.foldl (fun c p => c.trigTag p t) c).time = c.time :=
  List.foldlRecOn ps (fun c p => Chip.trigTag c p t) (motive := fun d : Chip => d.lis = c.lis ∧ d.time = c.time) ⟨rfl, rfl⟩
    fun d hd p _ => ⟨(d.trigTag_portOnly p t).lis.trans hd.1, (d.trigTag_portOnly p t).time.trans hd.2⟩

theorem Chip.trigTags_port {p : Nat} (c : Chip) (h : p ∉ ps) : (ps.foldl (fun c p => c.trigTag p t) c).ntxPort p = c.ntxPort p :=
  List.foldlRecOn ps (fun c p => Chip.trigTag c p t) (motive := fun d : Chip => d.ntxPort p = c.ntxPort p) rfl fun d hd m hm =>
    ((d.trigTag_portOnly m t).port p fun he => h (he ▸ hm)).trans hd

theorem Chip.takesTags_trigTag {p m : Nat} (c : Chip) (h : p ≠ m) : (c.trigTag m t).takesTags p = c.takesTags p := by
  have hw : ∀ off b, off < 0x1000 → (c.trigTag m t).bit (pgCam p) off b = c.bit (pgCam p) off b := fun off b ho =>
    Chip.bit_of_word ((c.trigTag_portOnly m t).word _ (by unfold regAddr pgCam; omega)) b
  rw [Chip.takesTags, Chip.takesTags, Chip.enabled, Chip.enabled, hw _ _ (by decide), hw _ _ (by decide), hw _ _ (by decide)]

/-- Each port of a step that takes tags takes its tag, once. -/
theorem Chip.trigTags_tags {p : Nat} (c : Chip) (h : c.takesTags p = true) (hp : p ∈ ps) (hd : ps.Nodup) :
    ((ps.foldl (fun c p => c.trigTag p t) c).ntxPort p).tags = c.newTags p t := by
  induction ps generalizing c with
  | nil => exact absurd hp List.not_mem_nil
  | cons m ps ih =>
    obtain ⟨hm, hd⟩ := List.nodup_cons.mp hd
    rw [List.foldl_cons]
    by_cases hpm : p = m
    · subst hpm
      rw [Chip.trigTags_port t _ hm, Chip.trigTag_takes h]
      dsimp only
      split
      · rw [Chip.ntxPort_setNtxPort, if_pos rfl]
      · exact congrArg NtxPort.tags ((Chip.ntxPort_setNtxPort c p _ p).trans (if_pos rfl))
    · have hk := c.trigTag_portOnly m t
      rw [ih (c.trigTag m t) ((c.takesTags_trigTag t hpm).trans h) ((List.mem_cons.mp hp).resolve_left hpm) hd, Chip.newTags, Chip.newTags,
        hk.port p hpm, hk.time]

end

/-! The outputs. -/

theorem aget_map_snd {α β : Type} (f : Nat → α → β) (l : List (Nat × α)) (k : Nat) :
    aget (l.map fun x => (x.1, f x.1 x.2)) k = (aget l k).map (f k) := by
  induction l with
  | nil => rfl
  | cons x l ih =>
    obtain ⟨j, a⟩ := x
    by_cases h : j = k
    · subst h; simp [aget]
    · simpa [aget, h] using ih

/-- A device once outputs are driven. -/
def Chip.driven (c : Chip) (outs n k : Nat) (d : CarDev) : CarDev :=
  if bits outs (Config.lampOutput n (k + 1) % 8) 1 = 1 ∧ bits c.lis.strobes (Config.lampOutput n (k + 1) % 8) 1 = 0 then
    { d with driveMa := d.curMa } else d

/-- A chain once outputs are driven. -/
def Chip.drivenChain (c : Chip) (outs n : Nat) (x : CarChain) : CarChain :=
  { x with devs := x.devs.map fun y => (y.1, c.driven outs n y.1 y.2) }

theorem Chip.drive_chains (c : Chip) (outs : Nat) :
    (c.drive outs).car.chains = c.car.chains.map fun x => (x.1, c.drivenChain outs x.1 x.2) := by
  refine List.map_congr_left fun x _ => ?_
  refine congrArg (fun l => (x.1, { x.2 with devs := l })) (List.map_congr_left fun y _ => ?_)
  simp only [Chip.driven, Bool.and_eq_true, beq_iff_eq]
  split <;> rfl

/-- A lamp head applies its latest current as its own strobe rises. -/
theorem Chip.drive_carDev (c : Chip) (outs n k : Nat) : (c.drive outs).carDev n k =
    if bits outs (Config.lampOutput n (k + 1) % 8) 1 = 1 ∧ bits c.lis.strobes (Config.lampOutput n (k + 1) % 8) 1 = 0 then
      { c.carDev n k with driveMa := (c.carDev n k).curMa } else c.carDev n k := by
  have hdevs : ((c.drive outs).chain n).devs = (c.chain n).devs.map fun y => (y.1, c.driven outs n y.1 y.2) := by
    rw [Chip.chain, c.drive_chains, aget_map_snd (c.drivenChain outs), Chip.chain]
    cases aget c.car.chains n <;> rfl
  have hdev : (c.drive outs).carDev n k = c.driven outs n k (c.carDev n k) := by
    rw [Chip.carDev, hdevs, aget_map_snd (c.driven outs n), Chip.carDev]
    cases aget (c.chain n).devs k with
    | none => exact (ite_self _).symm
    | some d => rfl
  exact hdev

/-! The commands. -/

section
variable {n : Fin 4} {s : State} {st : FireStep}

/-- The chip at the edge of a step's trigger, before the camera ports take its tag, and after. -/
def Chip.triggered (c : Chip) (n : Nat) (st : FireStep) : Chip :=
  let d := c.advance st.trigOn
  { d with lis := { d.lis with trigs := d.lis.trigs ||| d.seqPorts n } }.setStep n { st with trig := 1 }
def Chip.asserted (c : Chip) (n : Nat) (st : FireStep) : Chip :=
  (maskBits 4 ((c.triggered n st).seqPorts n)).foldl (fun c p => c.trigTag p st.tag) (c.triggered n st)

theorem Chip.trigAssert_eq {c : Chip} {n : Nat} (h : (c.seq n).step = some st) (ht : st.trig = 0) : c.trigAssert n = c.asserted n st := by
  simp only [Chip.trigAssert, h, if_pos ht]
  rfl

theorem exec_triggerAssert (n : Fin 4) (s : State) : exec (.triggerAssert n) s = .next (s.onChip fun c => c.trigAssert n) := rfl

/-- At the trigger's edge only the clock, the sequencer's step and the triggers have moved. -/
theorem Chip.triggered_spec (c : Chip) {n : Nat} (hn : n < 4) (st : FireStep) :
    let e := c.triggered n st
    e.time.now = max c.time.now st.trigOn ∧ e.lis.trigs = c.lis.trigs ||| c.seqPorts n ∧ e.lis.strobes = c.lis.strobes ∧
    (e.seq n).step = some { st with trig := 1 } ∧ e.seqPorts n = c.seqPorts n ∧
    (∀ p, e.ntxPort p = c.ntxPort p) ∧ ∀ p, p < 4 → e.takesTags p = c.takesTags p := by
  have hp : c.Passed (c.advance st.trigOn) := .advance c _
  have hports : (c.advance st.trigOn).seqPorts n = c.seqPorts n := hp.fld _ _ (by decide) (by unfold seqOff; lia)
  refine ⟨c.advance_now _, ?_, ?_, ?_, hports, fun p => ?_, fun p hp4 => ?_⟩
  · exact congrArg₂ (· ||| ·) (congrArg LisState.trigs hp.lis) hports
  · exact (congrArg LisState.strobes hp.lis : (c.advance st.trigOn).lis.strobes = c.lis.strobes)
  · simp [Chip.triggered, Chip.setStep]
  · exact congrArg (fun x : NtxState => (aget x.ports p).getD {}) hp.ntx
  · have hb : ∀ off b, off < 0x1000 → (c.triggered n st).bit (pgCam p) off b = c.bit (pgCam p) off b := fun off b ho =>
      hp.bit b (by unfold pgCam; lia) ho
    rw [Chip.takesTags, Chip.takesTags, Chip.enabled, Chip.enabled, hb _ _ (by decide), hb _ _ (by decide), hb _ _ (by decide)]

theorem State.asserted_spec (s : State) (n : Fin 4) (st : FireStep) :
    let t := s.onChip fun c => c.asserted n st
    s.keepsMem t ∧ t.chip.time.now = max s.chip.time.now st.trigOn ∧ t.chip.lis.trigs = s.chip.lis.trigs ||| s.chip.seqPorts n ∧
    t.chip.lis.strobes = s.chip.lis.strobes ∧ (t.chip.seq n).step = some { st with trig := 1 } ∧
    ∀ p : Fin 4, bits (s.chip.seqPorts n) p 1 = 1 → s.chip.enabled (pgCam p) = true → s.chip.bit (pgCam p) 0x040 24 = true →
      s.chip.bit (pgCam p) 0x010 8 = false →
      (t.chip.ntxPort p).tags = ((s.chip.ntxPort p).tags ++ [(st.tag, t.chip.time.now)]).drop
        (if (s.chip.ntxPort p).tags.length < 2 then 0 else 1) := by
  obtain ⟨hnow, htrigs, hstrobes, hstep, hports, hport, htakes⟩ := s.chip.triggered_spec n.isLt st
  obtain ⟨e, he⟩ : ∃ e, e = s.chip.triggered n st := ⟨_, rfl⟩
  rw [← he] at hnow htrigs hstrobes hstep hports hport htakes
  obtain ⟨d, hd⟩ : ∃ d, d = (maskBits 4 (e.seqPorts n)).foldl (fun c p => c.trigTag p st.tag) e := ⟨_, rfl⟩
  obtain ⟨hlis, htime⟩ := Chip.trigTags_rest st.tag (ps := maskBits 4 (e.seqPorts n)) e
  rw [← hd] at hlis htime
  obtain ⟨t, ht⟩ : ∃ t, t = s.onChip fun c => c.asserted n st := ⟨_, rfl⟩
  have hc : t.chip = d.settle := by rw [ht, s.onChip_chip, Chip.asserted, ← he, hd]
  have hmem : s.keepsMem t := ht ▸ s.keepsMem_onChip _
  rw [← ht]
  dsimp only
  rw [hc, Chip.settle_time, Chip.settle_lis, htime, hlis]
  refine ⟨hmem, hnow, htrigs, hstrobes, ?_, fun p hb hen htrig hres => ?_⟩
  · rw [Chip.seq_of_lis ((Chip.settle_lis d).trans hlis)]
    exact hstep
  · have htake : e.takesTags p = true := by rw [htakes p p.isLt, Chip.takesTags, hen, htrig, hres]; rfl
    have hmem : p.val ∈ maskBits 4 (e.seqPorts n) := List.mem_filter.mpr ⟨List.mem_range.mpr p.isLt, by simp [hports, hb]⟩
    have htags := Chip.trigTags_tags st.tag e htake hmem (List.nodup_range.filter _)
    rw [← hd, Chip.newTags, hport] at htags
    exact htags

/-- The sequencer that drives an output, SEQ_0 where none does. -/
theorem Chip.find_driver {c : Chip} {out : Nat} (h : (bits (c.seqStrobes n) out 1 = 1 ∧ ∀ m : Fin 4, m < n → bits (c.seqStrobes m) out 1 = 0) ∨
      (n = 0 ∧ ∀ m : Fin 4, bits (c.seqStrobes m) out 1 = 0)) :
    ((List.range 4).find? fun n => bits (c.seqStrobes n) out 1 == 1).getD 0 = n := by
  rcases h with ⟨hn, hm⟩ | ⟨rfl, hm⟩
  · rw [List.find?_range_eq_some.mpr ⟨by simp [hn], List.mem_range.mpr n.isLt, fun j hj => by simp [hm ⟨j, by lia⟩ hj]⟩]
    rfl
  · rw [List.find?_eq_none.mpr fun j hj => by simp [hm ⟨j, List.mem_range.mp hj⟩]]
    rfl

theorem exec_stbFault (out : Fin 8) (s : State) : exec (.stbFault out) s = .next (s.onChip fun c =>
    (c.setBit 0x027 (seqOff (((List.range 4).find? fun n => bits (c.seqStrobes n) out 1 == 1).getD 0) 0x30) out true).logErr 0x027 clsUnit 0x61 0
      (word out)) := rfl

end

/-- Settles O35: each edge is its own branch of the step's progress, and the ports of a step take its tag one by one. -/
theorem lisEdges : Obligations.LisEdges := by
  unfold Obligations.LisEdges
  refine ⟨fun n s => ⟨fun h i hi => ?noStep, fun st h => ⟨fun ht => ?noAssert, fun ht => ?noDeassert, fun hs => ?noRise, fun hs => ?noFall,
    fun ht => ?assert, fun ht => ?deassert, fun hs => ?rise, fun hs => ?fall⟩, fun out ho => ?fault⟩, fun s outs n => ⟨rfl, fun k => s.chip.drive_carDev outs n k⟩⟩
  case noStep =>
    simp only [List.mem_cons, List.not_mem_nil, or_false] at hi
    rcases hi with rfl | rfl | rfl | rfl
    · exact congrArg _ (s.onChip_congr _ _ (by simp [Chip.trigAssert, h]))
    · exact congrArg _ (s.onChip_congr _ _ (by simp [Chip.trigDeassert, h]))
    · exact congrArg _ (s.onChip_congr _ _ (by simp [Chip.strobeRise, h]))
    · exact congrArg _ (s.onChip_congr _ _ (by simp [Chip.strobeFall, h]))
  case noAssert => exact congrArg _ (s.onChip_congr _ _ (by simp [Chip.trigAssert, h, ht]))
  case noDeassert => exact congrArg _ (s.onChip_congr _ _ (by simp [Chip.trigDeassert, h, ht]))
  case noRise => exact congrArg _ (s.onChip_congr _ _ (by simp [Chip.strobeRise, h, hs]))
  case noFall => exact congrArg _ (s.onChip_congr _ _ (by simp [Chip.strobeFall, h, hs]))
  case deassert => exact congrArg _ (s.onChip_congr _ _ (by simp [Chip.trigDeassert, h, ht]))
  case rise => exact congrArg _ (s.onChip_congr _ _ (by simp [Chip.strobeRise, h, hs]))
  case fall => exact congrArg _ (s.onChip_congr _ _ (by simp [Chip.strobeFall, h, hs]))
  case assert =>
    exact ⟨_, (exec_triggerAssert n s).trans (congrArg _ (s.onChip_congr _ (fun c => c.asserted n st) (Chip.trigAssert_eq h ht))),
      State.asserted_spec s n st⟩
  case fault =>
    refine (exec_stbFault out s).trans (congrArg _ (s.onChip_congr _ _ ?_))
    rw [Chip.find_driver ho]

end Sys2Proof.Machine
end


section
/-! The camera ports (R214, R217, R218, R230, R232): enable and disable, the sensor reset, software triggers, and tags that run out.
A part of the chip that no access to memory changes stays as it is through a computation. -/

namespace Sys2Proof.Machine

/-! A part of the chip that a computation leaves. -/

/-- The computation leaves the part `φ` of the chip as it finds it. -/
def KeepsPart {β : Type} (φ : Chip → β) {α : Type} (m : WM α) : Prop := ∀ w, φ (m w).2.chip = φ w.chip

namespace KeepsPart
variable {α β γ : Type} {φ : Chip → γ}

theorem pure (a : α) : KeepsPart φ (Pure.pure a : WM α) := fun _ => rfl
theorem get : KeepsPart φ (MonadState.get : WM Work) := fun _ => rfl
theorem getChip : KeepsPart φ Machine.getChip := fun _ => rfl
theorem bind {m : WM α} {k : α → WM β} (hm : KeepsPart φ m) (hk : ∀ a, KeepsPart φ (k a)) : KeepsPart φ (m >>= k) :=
  fun w => (hk (m w).1 (m w).2).trans (hm w)
theorem ite {p : Prop} [Decidable p] {a b : WM α} (ha : p → KeepsPart φ a) (hb : ¬p → KeepsPart φ b) : KeepsPart φ (if p then a else b) := by
  split
  · exact ha ‹_›
  · exact hb ‹_›
theorem onChip {f : Chip → Chip} (h : ∀ c, φ (f c) = φ c) : KeepsPart φ (chipM f) := fun w => h w.chip
theorem loop {f : α → β → WM (ForInStep β)} (h : ∀ a b, KeepsPart φ (f a b)) : ∀ (l : List α) (b : β), KeepsPart φ (forIn l b f)
  | [], b => by simpa using pure b
  | a :: l, b => by
    rw [List.forIn_cons]
    refine bind (h a b) fun x => ?_
    cases x with
    | done b => exact pure b
    | yield b => exact loop h l b

/-- What no access to memory changes. -/
theorem ofUnits (hu : ∀ c d : Chip, c.units = d.units → φ c = φ d) {m : WM α} (h : KeepsUnits m) : KeepsPart φ m := fun w => hu _ _ (h w)

section
variable (hq : ∀ (c : Chip) (q : QueueState), φ { c with queues := q } = φ c)
include hq

theorem noteWrites : KeepsPart φ noteWrites := by
  refine bind (fun _ => rfl) fun w => ?_
  refine ite (fun _ => bind (loop (fun q _ => ?_) _ _) fun _ => bind (fun _ => rfl) fun _ => pure _)
    (fun _ => bind (fun _ => rfl) fun _ => pure _)
  exact bind (bind (fun _ => rfl) fun _ => pure _) fun torn => bind (onChip fun c => hq c _) fun _ => pure _

variable (hu : ∀ c d : Chip, c.units = d.units → φ c = φ d)
include hu
theorem meetWrites (key src : Nat) : KeepsPart φ (meetWrites key src) := by
  refine bind (noteWrites hq) fun mine => bind getChip fun c => ?_
  refine bind (loop (fun r _ => bind (ofUnits hu (havocPhys_keepsUnits _ _ _)) fun _ => pure _) _ _) fun _ => bind (fun _ => rfl) fun _ => ?_
  exact ite (fun _ => onChip fun c => hq c _) fun _ => pure _

end

end KeepsPart

/-! The Narthex through the end of a demodulator's period. -/

theorem Chip.ntx_of_units (c d : Chip) (h : c.units = d.units) : c.ntx = d.ntx :=
  (congrArg Chip.ntx h : c.units.ntx = d.units.ntx)

theorem Chip.endRunning_ntx (c : Chip) (q code : Nat) : (c.endRunning q code).ntx = c.ntx := by
  unfold Chip.endRunning
  split <;> rfl

theorem Chip.lisReport_ntx (c : Chip) (n p : Nat) (per : Option Nat) (r : AeRec) : (c.lisReport n p per r).ntx = c.ntx := by
  cases per <;> rfl

theorem dmdWrite_keeps (p : Nat) (r : Running) (o : DmdOut) (f : Nat → Nat → Elem) : BodyKeeps (dmdWrite p r o f) :=
  .bind (.needOpd _ _ _) fun _ => .bind (.storePlane _ _ _) fun _ => .bind (fun _ => rfl) fun _ => .bind (.writeVa _ _ _ _) fun _ => .pure _

theorem dmdFail_keepsNtx (p code : Nat) : KeepsPart Chip.ntx (dmdFail p code) := by
  refine .bind .getChip fun c => ?_
  split
  · exact .pure _
  · exact .bind (.loop (fun _ _ => .bind (.ofUnits Chip.ntx_of_units (havocOpd_keepsUnits _ _)) fun _ => .pure _) _ _) fun _ =>
      .onChip fun c => c.endRunning_ntx _ _

theorem dmdFinish_keepsNtx (p : Nat) (r : Running) (o : DmdOut) (f : Nat → Nat → Elem) : KeepsPart Chip.ntx (dmdFinish p r o f) := by
  refine .bind (.ofUnits Chip.ntx_of_units (dmdWrite_keeps p r o f)) fun out => .bind (.meetWrites (fun _ _ => rfl) Chip.ntx_of_units _ _) fun _ => ?_
  cases out with
  | error e => exact dmdFail_keepsNtx p e
  | ok x =>
    refine .onChip fun c => ?_
    dsimp only
    split
    · exact Chip.lisReport_ntx _ _ _ _ _
    · rfl

theorem dmdInvalid_keepsNtx (p : Nat) (o : DmdOut) : KeepsPart Chip.ntx (dmdInvalid p o) := by
  refine .bind .getChip fun c => ?_
  split
  · exact dmdFinish_keepsNtx _ _ _ _
  · exact .onChip fun _ => rfl

theorem dmdBreak_keepsNtx (p : Nat) : KeepsPart Chip.ntx (dmdBreak p) :=
  .bind .getChip fun _ => .ite (fun _ => .bind .getChip fun _ => .bind (.onChip fun _ => rfl) fun _ => dmdInvalid_keepsNtx _ _) fun _ => .pure _

/-! Enable. -/

/-- From one chip to the next only registers at the listed addresses may differ. -/
structure Chip.WordsBut (c d : Chip) (l : List Nat) : Prop where
  rest : d = { c with regs := d.regs }
  word : ∀ a, a ∉ l → d.wordAt a = c.wordAt a

namespace Chip.WordsBut
variable {c d e : Chip} {l : List Nat}

theorem refl (c : Chip) (l : List Nat) : c.WordsBut c l := ⟨rfl, fun _ _ => rfl⟩
theorem trans (h : c.WordsBut d l) (k : d.WordsBut e l) : c.WordsBut e l :=
  ⟨by rw [k.rest, h.rest], fun a ha => (k.word a ha).trans (h.word a ha)⟩
theorem wr (c : Chip) {p off : Nat} (v : Word) (h : regAddr p off ∈ l) : c.WordsBut (c.wr p off v) l :=
  ⟨rfl, fun _ ha => c.wordAt_wr_ne _ fun e => ha (e ▸ h)⟩
theorem foldl {α : Type} (f : Chip → α → Chip) (h : ∀ d a, Chip.WordsBut d (f d a) l) : ∀ (as : List α) (c : Chip), c.WordsBut (as.foldl f c) l
  | [], c => refl c l
  | a :: as, c => (h c a).trans (foldl f h as (f c a))

theorem ntx (h : c.WordsBut d l) : d.ntx = c.ntx := by rw [h.rest]
theorem desc (h : c.WordsBut d l) : d.desc = c.desc := by rw [h.rest]
theorem vrg (h : c.WordsBut d l) : d.vrg = c.vrg := by rw [h.rest]
theorem fld (h : c.WordsBut d l) {p off : Nat} (lo w : Nat) (ha : regAddr p off ∉ l) : d.fld p off lo w = c.fld p off lo w :=
  Chip.fld_of_word (h.word _ ha) _ _
theorem bit (h : c.WordsBut d l) {p off : Nat} (b : Nat) (ha : regAddr p off ∉ l) : d.bit p off b = c.bit p off b :=
  Chip.bit_of_word (h.word _ ha) _

end Chip.WordsBut

theorem Chip.noteDescReads_words (c : Chip) (hs : List Nat) : c.WordsBut (c.noteDescReads hs) [regAddr 0x073 0x250] := by
  refine .foldl _ (fun d h => ?_) hs c
  split
  · split
    · exact .refl _ _
    · unfold Chip.noteDescCe
      split
      · exact .wr _ _ (by simp)
      · exact .refl _ _
  · exact .refl _ _

/-- The descriptors of a port follow its registers of handles and forms, the stored descriptors and their leases. -/
theorem Chip.camDescs_congr {c d : Chip} {p : Nat} (hd : d.desc = c.desc) (hv : d.vrg = c.vrg)
    (h : ∀ off lo w, off ∈ [0x040, 0x044, 0x04C] → d.fld (pgCam p) off lo w = c.fld (pgCam p) off lo w)
    (hp : ∀ off lo w, off < 0x1000 → d.fld 0x024 off lo w = c.fld 0x024 off lo w) (hp4 : p < 4) : d.camDescs p = c.camDescs p := by
  have hquar : ∀ h, d.descQuarantined h = c.descQuarantined h := fun h => by rw [Chip.descQuarantined, Chip.descQuarantined, hv]
  have hcopy : ∀ ctx h, d.copyDesc ctx h = c.copyDesc ctx h := fun ctx h => by simp only [Chip.copyDesc, hquar, hd]
  have hhandle : ∀ k, k < 5 → d.camHandle p k = c.camHandle p k := fun k hk => by
    rw [Chip.camHandle, Chip.camHandle, h _ _ _ (by simp), hp _ _ _ (by unfold pipeOff; lia)]
  have hdem : d.camDemosaic p = c.camDemosaic p := by
    rw [Chip.camDemosaic, Chip.camDemosaic, Chip.bit, Chip.bit, h _ _ _ (by simp), hp _ _ _ (by unfold pipeOff; omega)]
  have hw : d.camW p = c.camW p := h _ _ _ (by simp)
  have hh : d.camH p = c.camH p := h _ _ _ (by simp)
  have hb : d.camBits p = c.camBits p := congrArg (8 + 2 * ·) (h _ _ _ (by simp))
  have hok : ∀ k x, d.camHandleOk p k x = c.camHandleOk p k x := fun k x => by simp only [Chip.camHandleOk, hdem, hw, hh, hb]
  refine List.filterMap_congr fun k hk => ?_
  rw [h _ _ _ (by simp), hhandle k (List.mem_range.mp hk), hcopy]
  split
  · rw [hok]
  · rfl

/-! The commands. -/

section
variable {req : Requester} {p : Fin 4} {s : State}

theorem exec_portEnable (h : s.passes req (pgCam p) 0x00C) : exec (.portEnable req p) s = .next (s.onChip fun c => c.portEnable req p) :=
  congrArg _ (s.onChip_gated req (pgCam p) 0x00C _ h)

/-- A port once it is enabled. -/
def Chip.portStarted (c : Chip) (p : Nat) : Chip :=
  let d := (c.setBit (pgCam p) 0x00C 0 true).noteDescReads ((List.range 5).map ((c.setBit (pgCam p) 0x00C 0 true).camHandle p))
  (d.setNtxPort p { c.ntxPort p with cap := none, next := 0, tags := [], descs := d.camDescs p, gen := (c.ntxPort p).gen + 1 }).dmdPortEnable p

theorem Chip.portEnable_ok {c : Chip} {p : Nat} (req : Requester) (h : c.enabled (pgCam p) = false) (hc : c.camCheck p = 0) :
    c.portEnable req p = c.portStarted p := by
  simp only [Chip.portEnable, h, hc]
  rfl

theorem Chip.portStarted_spec (c : Chip) {p : Nat} (hp : p < 4) :
    (c.portStarted p).enabled (pgCam p) = true ∧ (c.portStarted p).bit (pgCam p) 0x010 8 = c.bit (pgCam p) 0x010 8 ∧
    (c.portStarted p).ntxPort p = { c.ntxPort p with cap := none, next := 0, tags := [], descs := c.camDescs p, gen := (c.ntxPort p).gen + 1 } := by
  obtain ⟨e, he⟩ : ∃ e, e = c.setBit (pgCam p) 0x00C 0 true := ⟨_, rfl⟩
  obtain ⟨d, hd⟩ : ∃ d, d = e.noteDescReads ((List.range 5).map (e.camHandle p)) := ⟨_, rfl⟩
  have hed : e.WordsBut d [regAddr 0x073 0x250] := hd ▸ e.noteDescReads_words _
  have hce : c.WordsBut e [regAddr (pgCam p) 0x00C] := he ▸ .wr c _ (by simp)
  have hcam : ∀ off, off < 0x1000 → regAddr (pgCam p) off ≠ regAddr 0x073 0x250 := fun off ho =>
    regAddr_page_ne _ _ _ _ (by unfold pgCam; omega) ho (by decide)
  have hdescs : d.camDescs p = c.camDescs p := by
    refine Chip.camDescs_congr (hed.desc.trans hce.desc) (hed.vrg.trans hce.vrg) (fun off lo w ho => ?_) (fun off lo w ho => ?_) hp
    · have ho' : off < 0x1000 ∧ off ≠ 0x00C := by simp only [List.mem_cons, List.not_mem_nil, or_false] at ho; lia
      exact (hed.fld _ _ (by simpa using hcam off ho'.1)).trans (hce.fld _ _ (by simpa using regAddr_off_ne _ _ _ ho'.2))
    · refine (hed.fld _ _ (by simpa using regAddr_page_ne _ _ _ _ (by decide) ho (by decide))).trans (hce.fld _ _ ?_)
      simpa using regAddr_page_ne _ _ _ _ (by unfold pgCam; omega) ho (by decide)
  have hstart : c.portStarted p =
      (d.setNtxPort p { c.ntxPort p with cap := none, next := 0, tags := [], descs := d.camDescs p, gen := (c.ntxPort p).gen + 1 }).dmdPortEnable p := by
    rw [hd, he]
    rfl
  have hreg : (c.portStarted p).regs = d.regs := hstart ▸ rfl
  refine ⟨?_, ?_, ?_⟩
  · refine (Chip.bit_of_word (congrArg (fun r => (aget r _).getD _) hreg) 0).trans ((hed.bit 0 (by simpa using hcam 0x00C (by decide))).trans ?_)
    rw [he]
    exact c.bit_setBit_same _ _ _ _ (by decide)
  · exact (Chip.bit_of_word (congrArg (fun r => (aget r _).getD _) hreg) 8).trans
      ((hed.bit 8 (by simpa using hcam 0x010 (by decide))).trans (hce.bit 8 (by simpa using regAddr_off_ne _ _ _ (by decide))))
  · rw [hstart, hdescs]
    refine (Chip.ntxPort_setNtxPort d p _ p).trans (if_pos rfl)

/-- A port that is disabled. -/
theorem execPortDisable_spec (h : s.passes req (pgCam p) 0x00C) (he : s.chip.enabled (pgCam p) = true) :
    Answers (.portDisable req p) s fun t => t.chip.enabled (pgCam p) = false ∧ t.chip.bit (pgCam p) 0x010 8 = false ∧
      (t.chip.ntxPort p).cap = none ∧ (t.chip.ntxPort p).tags = [] := by
  obtain ⟨v, hv⟩ : ∃ v, v = (camAbort p s.work).2 := ⟨_, rfl⟩
  obtain ⟨w, hw⟩ : ∃ w, w = (dmdBreak p v).2 := ⟨_, rfl⟩
  have hport : (v.chip.ntxPort p).cap = none ∧ (v.chip.ntxPort p).tags = [] := by
    rw [hv]
    obtain ⟨d, hd⟩ : ∃ d, d = (captureEnd p 12 s.work).2.chip := ⟨_, rfl⟩
    have hc : (camAbort p s.work).2.chip = d.setNtxPort p { d.ntxPort p with cap := none, tags := [] } := by rw [hd]; rfl
    rw [hc, Chip.ntxPort_setNtxPort, if_pos rfl]
    exact ⟨rfl, rfl⟩
  have hntx : w.chip.ntx = v.chip.ntx := hw ▸ dmdBreak_keepsNtx p v
  have hm : portDisable p s.work = ((), w.onChip fun c => (c.setBit (pgCam p) 0x00C 0 false).setBit (pgCam p) 0x010 8 false) := by
    refine WM.if_pos he (WM.bind_of_eq (v := v) (Prod.ext rfl hv.symm) (WM.bind_of_eq (v := w) (Prod.ext rfl hw.symm) rfl))
  refine ⟨_, (s.onMem_gated req (pgCam p) 0x00C _ h).trans (s.onMem_leave hm), ?_, ?_, ?_⟩
  · exact (Chip.bit_setBit_ne _ _ _ _ _ _ _ _ (regAddr_off_ne _ _ _ (by decide))).trans (Chip.bit_setBit_same _ _ _ _ _ (by decide))
  · exact Chip.bit_setBit_same _ _ _ _ _ (by decide)
  · have heq : (s.leave (w.onChip fun c => (c.setBit (pgCam p) 0x00C 0 false).setBit (pgCam p) 0x010 8 false)).chip.ntxPort p = v.chip.ntxPort p :=
      congrArg (fun x : NtxState => (aget x.ports p).getD {}) hntx
    rw [heq]
    exact hport

/-- The tags of a port that the window still holds at a chip's time. -/
def Chip.liveTags (c : Chip) (p : Nat) : List (Tag × Nat) := (c.ntxPort p).tags.filter fun t => decide (c.time.now ≤ c.windowEnd p t.2)

theorem Chip.dropTags_spec {c : Chip} {p : Nat} (h : (c.liveTags p).length < (c.ntxPort p).tags.length) :
    (c.dropTags p).time = c.time ∧ ((c.dropTags p).ntxPort p).tags = c.liveTags p ∧
    (c.dropTags p).rd (pgCam p) 0x074 = c.rd (pgCam p) 0x074 + word ((c.ntxPort p).tags.length - (c.liveTags p).length) ∧
    (c.dropTags p).rd (pgCam p) 0x014 = c.rd (pgCam p) 0x014 ||| 8 := by
  have heq : c.dropTags p = (((c.setNtxPort p { c.ntxPort p with tags := c.liveTags p }).count (pgCam p) 0x074
      ((c.ntxPort p).tags.length - (c.liveTags p).length)).raise (pgCam p) 3) := if_neg (by unfold Chip.liveTags at h; omega)
  rw [heq]
  refine ⟨rfl, congrArg NtxPort.tags ((Chip.ntxPort_setNtxPort c p _ p).trans (if_pos rfl)), ?_, ?_⟩
  · exact (Chip.rd_raise_ne _ _ _ _ _ (regAddr_off_ne _ _ _ (by decide))).trans (Chip.rd_count_same _ _ _ _)
  · exact (Chip.rd_raise_same _ _ _).trans (congrArg (· ||| _) (Chip.rd_count_ne _ _ _ _ _ _ (regAddr_off_ne _ _ _ (by decide))))

/-- Time moves past the end of the oldest tag's window. -/
theorem execTrigWindowExpiry_spec {tag : Tag × Nat} {rest : List (Tag × Nat)} (h : (s.chip.ntxPort p).tags = tag :: rest) :
    Answers (.trigWindowExpiry p) s fun t =>
      let kept := (tag :: rest).filter fun x => decide (t.chip.time.now ≤ s.chip.windowEnd p x.2)
      s.keepsMem t ∧ t.chip.time.now = max s.chip.time.now (s.chip.windowEnd p tag.2 + 1) ∧ (t.chip.ntxPort p).tags = kept ∧
      t.chip.rd (pgCam p) 0x074 = s.chip.rd (pgCam p) 0x074 + word ((tag :: rest).length - kept.length) ∧
      t.chip.rd (pgCam p) 0x014 = s.chip.rd (pgCam p) 0x014 ||| 8 := by
  obtain ⟨d, hd⟩ : ∃ d, d = s.chip.advance (s.chip.windowEnd p tag.2 + 1) := ⟨_, rfl⟩
  have hpass : s.chip.Passed d := hd ▸ .advance _ _
  have hnow : d.time.now = max s.chip.time.now (s.chip.windowEnd p tag.2 + 1) := hd ▸ Chip.advance_now _ _
  have hpg : pgCam p ≠ 0x0D0 := by unfold pgCam; lia
  have hend : ∀ t, d.windowEnd p t = s.chip.windowEnd p t := fun t => by
    rw [Chip.windowEnd, Chip.windowEnd, hpass.fld _ _ hpg (by decide)]
  have hport : d.ntxPort p = s.chip.ntxPort p := congrArg (fun x : NtxState => (aget x.ports p).getD {}) hpass.ntx
  have hrd : ∀ off, off < 0x1000 → d.rd (pgCam p) off = s.chip.rd (pgCam p) off := fun off ho =>
    hpass.word _ (by simp [timeRegs, regAddr]; lia)
  have hlive : d.liveTags p = (tag :: rest).filter fun x => decide (d.time.now ≤ s.chip.windowEnd p x.2) := by
    simp only [Chip.liveTags, hport, h, hend]
  have hlt : (d.liveTags p).length < (d.ntxPort p).tags.length := by
    have hold : ¬ d.time.now ≤ s.chip.windowEnd p tag.2 := by lia
    rw [hlive, hport, h, List.filter_cons_of_neg (by simpa using hold)]
    exact Nat.lt_succ_of_le (List.length_filter_le _ _)
  obtain ⟨htime, htags, hcount, hraise⟩ := Chip.dropTags_spec hlt
  refine ⟨s.onChip fun c => d.dropTags p, congrArg _ (s.onChip_congr _ _ ?_), ?_⟩
  · simp only [h, hd]
  · obtain ⟨t, ht⟩ : ∃ t, t = s.onChip fun _ => d.dropTags p := ⟨_, rfl⟩
    have hc : t.chip = (d.dropTags p).settle := ht ▸ s.onChip_chip _
    have hmem : s.keepsMem t := ht ▸ s.keepsMem_onChip _
    rw [← ht]
    dsimp only
    have htime' : t.chip.time.now = d.time.now := by rw [hc, Chip.settle_time, htime]
    rw [htime', ← hlive]
    refine ⟨hmem, hnow, ?_, ?_, ?_⟩
    · rw [hc]
      exact htags
    · rw [hc, Chip.settle_rd, hcount, hrd _ (by decide), hport, h]
    · rw [hc, Chip.settle_rd, hraise, hrd _ (by decide)]

end

/-- Settles O36: each command is its own case of the port's state, and a demodulator's period that ends leaves the Narthex as it is. -/
theorem cameraPorts : Obligations.CameraPorts := by
  unfold Obligations.CameraPorts
  refine fun req p s => ⟨fun hg => ⟨fun h => ?again, fun h hc => ?started, fun h hc => ?bad, fun h => ?off, execPortDisable_spec hg⟩,
    fun hg => ⟨fun level => ?level, fun h => ?trigger, fun h => ?refused⟩, fun h => ?noTrigger, fun t h => ?triggerEnd, fun h => ?noTag,
    fun tag rest h => execTrigWindowExpiry_spec h⟩
  case again => exact (exec_portEnable hg).trans (congrArg _ (s.onChip_congr _ _ (if_pos h)))
  case started =>
    obtain ⟨hen, hbad, hport⟩ := s.chip.portStarted_spec p.isLt
    obtain ⟨t, ht⟩ : ∃ t, t = s.onChip fun c => c.portStarted p := ⟨_, rfl⟩
    have hchip : t.chip = (s.chip.portStarted p).settle := ht ▸ s.onChip_chip _
    have hmem : s.keepsMem t := ht ▸ s.keepsMem_onChip _
    refine ⟨t, (exec_portEnable hg).trans (congrArg _ ?_), hmem, ?_⟩
    · rw [ht]
      exact s.onChip_congr _ _ (Chip.portEnable_ok req h hc)
    · generalize s.chip.portStarted p = d at hen hbad hport hchip
      rw [hchip]
      exact ⟨hen, congrArg NtxPort.next hport, congrArg NtxPort.cap hport, congrArg NtxPort.tags hport, congrArg NtxPort.descs hport, hbad⟩
  case bad =>
    refine (exec_portEnable hg).trans (congrArg _ (s.onChip_congr _ _ ?_))
    exact (if_neg (by simp [h])).trans (if_pos hc)
  case off =>
    refine (s.onMem_gated req (pgCam p) 0x00C _ hg).trans (s.onMem_of_eq ?_)
    exact WM.if_neg (Bool.eq_false_iff.mp h) rfl
  case level => exact congrArg _ (s.onChip_gated req (pgCam p) 0x058 _ hg)
  case trigger =>
    refine (congrArg Host.Outcome.next (s.onChip_gated req (pgCam p) 0x058 _ hg)).trans (congrArg _ (s.onChip_congr _ _ ?_))
    simp [Chip.trigSw, h]
  case refused =>
    refine (congrArg Host.Outcome.next (s.onChip_gated req (pgCam p) 0x058 _ hg)).trans (congrArg _ (s.onChip_congr _ _ (if_pos ?_)))
    exact Option.isSome_iff_ne_none.mpr h
  case noTrigger => exact congrArg _ (s.onChip_congr _ _ (by simp [h]))
  case triggerEnd => exact congrArg _ (s.onChip_congr _ _ (by simp [h]))
  case noTag => exact congrArg _ (s.onChip_congr _ _ (by simp [h]))

end Sys2Proof.Machine
end


section
/-! The end of a frame whose PIPE_MODE is the reserved 3: the model takes it for a stripe frame that is done once its output lines are
as many as its lines, and writes its statistics record. -/

namespace Sys2Proof.Machine

/-- A frame without lines under PIPE_MODE 3, with number 1. -/
def reservedFrame : Frame :=
  { port := 0, num := 1, tag := {}, time := 0, ctx := 1, w := 0, h := 0, depth := 8, cfa := 0, ctl := 0, black := [], thresh := 0, defMap := 0,
    shadeMap := 0, sharp := 0, satLevel := 0, mode := 3, stripe := 0 }

/-- Port 0 captures that frame, and its statistics are enabled at the last 32 bytes that the tables map. -/
def reservedState : State :=
  { State.reset with
    chip := ((mappedChip.wr 0x025 0x080 0x101FFFE0).wr 0x025 0x088 0x80000000).setNtxPort 0 { cap := some { frame := reservedFrame } }
    mem := { cells := mappedCells, marks := [] } }

/-- The byte listed at a device address once a command has been taken. -/
def cellAfter (i : Instr) (s : State) (a : Nat) : Option Byte := match exec i s with
  | .next t => aget t.mem.cells a
  | _ => none

theorem reservedFrame_writes : cellAfter (.frameEnd 0 false) reservedState 0x101FFFE4 = some 1 := by decide +kernel

/-- Refutes O37: the end of all the lines of a frame with the reserved PIPE_MODE 3 writes memory. -/
theorem not_captures : ¬ Obligations.Captures := by
  unfold Obligations.Captures
  intro h
  obtain ⟨-, -, -, hcap, -⟩ := h 0 reservedState
  obtain ⟨-, hend, -⟩ := hcap { frame := reservedFrame } (congrArg NtxPort.cap (Chip.ntxPort_setNtxPort _ 0 _ 0)) rfl
  obtain ⟨t, ht, ⟨-, -, hmem⟩, -⟩ := hend (by decide) (by decide) (by decide)
  have hw := reservedFrame_writes
  rw [cellAfter, ht] at hw
  simp only [hmem] at hw
  exact absurd hw (by decide +kernel)

end Sys2Proof.Machine
end


section
/-! What the pipeline takes next (R221, R222, R223, R224). -/

namespace Sys2Proof.Machine

section
variable {s : State}

/-- The pipeline's work on a chip. -/
def takeWork (parity : List Nat) : WM Unit := do
  let c ← getChip
  if c.pipeHeld ∨ c.tripped then pure ()
  else match c.ntx.inl.find? fun it => it.waiting != [], c.ntx.mem with
    | some it, _ => takeInline it parity
    | none, some it => takeMemory it parity
    | none, none => pure ()

theorem exec_pipelineLine (parity : List Nat) (s : State) : exec (.pipelineLine parity) s = s.onMem (takeWork parity) := rfl

theorem find_waiting_eq_none {l : List PipeItem} (h : l.all (fun it => it.waiting == []) = true) : l.find? (fun it => it.waiting != []) = none := by
  simpa using h

/-- A running pipeline with in-line input waiting takes that. -/
theorem exec_pipelineLine_inline (parity : List Nat) (hh : s.chip.pipeHeld = false) (ht : s.chip.tripped = false) {it : PipeItem}
    (hf : s.chip.ntx.inl.find? (fun it => it.waiting != []) = some it) :
    exec (.pipelineLine parity) s = s.onMem (takeInline it parity) := by
  rw [exec_pipelineLine, takeWork, State.onMem_getChip]
  simp only [hh, ht, hf]
  rfl

/-- A running pipeline without in-line input takes memory work. -/
theorem exec_pipelineLine_memory (parity : List Nat) (hh : s.chip.pipeHeld = false) (ht : s.chip.tripped = false) {it : PipeItem}
    (hf : s.chip.ntx.inl.find? (fun it => it.waiting != []) = none) (hm : s.chip.ntx.mem = some it) :
    exec (.pipelineLine parity) s = s.onMem (takeMemory it parity) := by
  rw [exec_pipelineLine, takeWork, State.onMem_getChip]
  simp only [hh, ht, hf, hm]
  rfl

theorem Chip.memStart_idle {c : Chip} (p m : Nat) (h : c.pipeHeld = true ∨ c.ntx.mem ≠ none ∨ c.ntx.ready = []) : c.memStart p m = c := by
  unfold Chip.memStart
  split
  · next hm hr =>
    rcases h with h | h | h
    · rw [if_neg (by simp [h])]
    · exact absurd hm h
    · simp [h] at hr
  · rfl

theorem Chip.memStart_first {c : Chip} (p m : Nat) (hh : c.pipeHeld = false) (hm : c.ntx.mem = none) {it : PipeItem} {rest : List PipeItem}
    (hr : c.ntx.ready = it :: rest) : c.memStart p m =
      if it.frame.port = p ∧ it.frame.mode = m then { c with ntx := { c.ntx with mem := some it, ready := rest } } else c := by
  simp only [Chip.memStart, hm, hr, hh]
  simp

theorem exec_memStarts {port : Fin 4} {i : Instr} {m : Nat} (hi : (i, m) ∈ [(Instr.memFrameStart port, 1), (.stripeStart port, 2)]) :
    exec i s = .next (s.onChip fun c => c.memStart port m) := by
  simp only [List.mem_cons, List.not_mem_nil, or_false, Prod.mk.injEq] at hi
  rcases hi with ⟨rfl, rfl⟩ | ⟨rfl, rfl⟩ <;> rfl

end

/-- Settles O38: the pipeline's choice is one case each for in-line input, memory work and none, and a piece of work that is complete goes to
its stages. -/
theorem pipelineWork : Obligations.PipelineWork := by
  unfold Obligations.PipelineWork
  refine fun s => ⟨fun parity h => ?nothing, fun hh ht it hf l rest hw parity => ⟨fun hopen => ?inline, fun hc hr hp => ?complete⟩,
    fun hh ht ha it hm l w hl hp parity => ?memory, fun port => ⟨fun h i hi => ?idle, fun hh hm it rest hr i m hi => ⟨fun hport hmode => ?first,
      fun h => ?other⟩⟩⟩
  case nothing =>
    rw [exec_pipelineLine, takeWork, State.onMem_getChip]
    rcases h with h | h | ⟨ha, hm⟩
    · simp only [h]
      rfl
    · simp only [h, or_true]
      rfl
    · simp only [find_waiting_eq_none ha, hm]
      split <;> rfl
  case inline =>
    refine (exec_pipelineLine_inline parity hh ht hf).trans (s.onMem_of_eq ?_)
    simp only [takeInline, hw]
    refine WM.bind_of_eq rfl (WM.if_neg (fun ⟨h1, h2, h3⟩ => ?_) rfl)
    rcases hopen with h | h | h
    · exact absurd h1 (by simp [h])
    · exact h h2
    · exact h h3
  case complete =>
    refine ⟨_, (exec_pipelineLine_inline parity hh ht hf).trans (s.onMem_eq _), s.after_onWork _ ?_⟩
    simp only [takeInline, hw]
    exact WM.bind_of_eq rfl (WM.if_pos ⟨hc, hr, hp⟩ (WM.bind_of_eq rfl rfl))
  case memory =>
    refine ⟨_, (exec_pipelineLine_memory parity hh ht (find_waiting_eq_none ha) hm).trans (s.onMem_eq _), s.after_onWork _ ?_⟩
    exact WM.bind_of_eq hl (WM.bind_of_eq rfl (WM.if_neg (Nat.not_lt.mpr hp) rfl))
  case idle =>
    simp only [List.mem_cons, List.not_mem_nil, or_false] at hi
    rcases hi with rfl | rfl
    · exact (exec_memStarts (port := port) (m := 1) (by simp)).trans (congrArg _ (s.onChip_congr _ _ (Chip.memStart_idle _ _ h)))
    · exact (exec_memStarts (port := port) (m := 2) (by simp)).trans (congrArg _ (s.onChip_congr _ _ (Chip.memStart_idle _ _ h)))
  case first =>
    exact (exec_memStarts hi).trans (congrArg _ (s.onChip_congr _ _ ((Chip.memStart_first _ _ hh hm hr).trans (if_pos ⟨hport, hmode⟩))))
  case other =>
    refine (exec_memStarts hi).trans (congrArg _ (s.onChip_congr _ _ ((Chip.memStart_first _ _ hh hm hr).trans (if_neg ?_))))
    rintro ⟨h1, h2⟩
    rcases h with h | h
    · exact h h1
    · exact h h2

end Sys2Proof.Machine
end


section
/-! The Choir's commands (R283, R289-R292): their start. -/

namespace Sys2Proof.Machine

/-- What a Choir command's checks answer: the words of its table and its operands. -/
def choChecked (q op : Nat) (r : Running) : EM (List Int × ChoOpds) := do return (← choCheck q op r, ← choOpds q r)

/-- A Choir command divided into its tiles. -/
def Chip.choStarted (c : Chip) (q op : Nat) (r : Running) (v : List Int × ChoOpds) : Chip :=
  let d := c.setRunning q (some { r with executed := true, debug := r.debug || c.debugOn (pgQ q :: c.unitPages (unitOf q)) })
  { d with cho := { d.cho with cmds := d.cho.cmds ++ [{ q := q, n := choTiles op v.2, left := choTiles op v.2, table := v.1 }] } }

section
variable {q op : Nat} {r : Running} {w v : Work}

theorem choStart_idle (hr : w.chip.running q = some r) (h : w.chip.tripped = true) : choStart q op w = ((), w) := by
  refine WM.bind_of_eq rfl ?_
  simp only [hr]
  exact WM.if_pos (.inr (.inr (.inr h))) rfl

theorem choStart_fetched (hr : w.chip.running q = some r) (hop : r.op = op) (he : r.executed = false) (hf : r.finished = false)
    (ht : w.chip.tripped = false) : choStart q op w = (do
      match ← (choChecked q op r).run with
      | .error e => chipM fun c => c.setRunning q (some { r with executed := true, finished := true, status := e })
      | .ok v => chipM fun c => c.choStarted q op r v : WM Unit) w := by
  refine WM.bind_of_eq rfl ?_
  simp only [hr]
  refine WM.if_neg (by simp [hop, he, hf, ht]) (WM.bind_congr fun x v => ?_)
  cases x <;> rfl

end

theorem exec_choCommand {q : Fin 128} {i : Instr} {op : Nat} (s : State)
    (h : (i, op) ∈ [(Instr.conv q, 0x40), (.matmul q, 0x41), (.eltwise q, 0x42), (.pool q, 0x43), (.act q, 0x44)]) :
    exec i s = s.onMem (choStart q op) := by
  simp only [List.mem_cons, Prod.mk.injEq, List.not_mem_nil, or_false] at h
  rcases h with ⟨rfl, rfl⟩ | ⟨rfl, rfl⟩ | ⟨rfl, rfl⟩ | ⟨rfl, rfl⟩ | ⟨rfl, rfl⟩ <;> rfl

/-- Settles O41: every Choir command starts by the same checks, and what they answer decides it. -/
theorem choirCommands : Obligations.ChoirCommands := by
  unfold Obligations.ChoirCommands
  intro q s r i op hi hfetch
  obtain ⟨hr, hop, he, hf, -, -⟩ := hfetch
  refine ⟨fun ht => ?stopped, fun ht => ⟨fun v w hw => ?starts, fun e w hw => ?fails⟩⟩
  case stopped => exact (exec_choCommand s hi).trans (s.onMem_of_eq (choStart_idle hr ht))
  case starts =>
    exact ⟨_, (exec_choCommand s hi).trans (s.onMem_eq _), s.after_onWork _ ((choStart_fetched hr hop he hf ht).trans (WM.bind_of_eq hw rfl))⟩
  case fails =>
    exact ⟨_, (exec_choCommand s hi).trans (s.onMem_eq _), s.after_onWork _ ((choStart_fetched hr hop he hf ht).trans (WM.bind_of_eq hw rfl))⟩

end Sys2Proof.Machine
end


section
/-! Tiles of the Choir (R284, R294, R297), and the registers that a write of free bytes leaves alone. -/

namespace Sys2Proof.Machine

/-! Registers that no write to memory counts or logs in. -/

/-- A register that no write to memory changes: it is on no page of a memory, the endpoint or the timebase, and at no offset where a stall's
page counts or logs. -/
def isQuiet (a : Nat) : Prop :=
  a / 0x1000 ∉ [0x070, 0x071, 0x088, 0x0C0, 0x0D0] ∧ a % 0x1000 ∉ [0x050, 0x054, 0x014, 0x020, 0x024] ∧ a ≠ regAddr 0x005 0x05C

section
variable {a : Nat} (h : isQuiet a)
include h

theorem isQuiet.page {p off : Nat} (hp : p ∈ [0x070, 0x071, 0x088, 0x0C0, 0x0D0]) (ho : off < 0x1000) : a ≠ regAddr p off := by
  rintro rfl
  refine h.1 ?_
  rwa [show regAddr p off / 0x1000 = p by unfold regAddr; omega]

theorem isQuiet.off {p off : Nat} (ho : off ∈ [0x050, 0x054, 0x014, 0x020, 0x024]) : a ≠ regAddr p off := by
  rintro rfl
  refine h.2.1 ?_
  have hlt : off < 0x1000 := by simp only [List.mem_cons, List.not_mem_nil, or_false] at ho; lia
  rwa [show regAddr p off % 0x1000 = off by unfold regAddr; omega]

theorem isQuiet.wr (c : Chip) {p off : Nat} (v : Word) (ho : off ∈ [0x050, 0x054, 0x014, 0x020, 0x024]) : (c.wr p off v).wordAt a = c.wordAt a :=
  c.wordAt_wr_ne v (h.off ho)

theorem isQuiet.wrPage (c : Chip) {p off : Nat} (v : Word) (hp : p ∈ [0x070, 0x071, 0x088, 0x0C0, 0x0D0]) (ho : off < 0x1000) :
    (c.wr p off v).wordAt a = c.wordAt a := c.wordAt_wr_ne v (h.page hp ho)

theorem isQuiet.logErr (c : Chip) (p cls code owner : Nat) (d : Word) : (c.logErr p cls code owner d).wordAt a = c.wordAt a := by
  refine c.logErr_wordAt _ _ _ _ _ ?_
  simp only [logAddrs, List.mem_cons, List.not_mem_nil, or_false, not_or]
  exact ⟨h.off (by simp), h.off (by simp), h.off (by simp), h.2.2⟩

theorem isQuiet.noteCe (c : Chip) (pa : Nat) : (c.noteCe pa).wordAt a = c.wordAt a := by
  unfold Chip.noteCe
  split
  · have hb : ∀ cell, 0x080 + 4 * bankOf cell < 0x1000 := fun cell => by unfold bankOf; lia
    exact (h.wr _ _ (by simp)).trans ((h.wrPage _ _ (by simp) (hb _)).trans ((h.wrPage _ _ (by simp) (by decide)).trans
      (h.wrPage _ _ (by simp) (by decide))))
  · exact h.wr _ _ (by simp)
  · exact h.wrPage _ _ (by simp) (by decide)
  · rfl

theorem isQuiet.noteUe (c : Chip) (pa src : Nat) : (c.noteUe pa src).wordAt a = c.wordAt a := by
  unfold Chip.noteUe
  split
  · exact (h.logErr _ _ _ _ _ _).trans ((h.wr _ _ (by simp)).trans ((h.wrPage _ _ (by simp) (by decide)).trans (h.wrPage _ _ (by simp) (by decide))))
  · exact (h.logErr _ _ _ _ _ _).trans (h.wr _ _ (by simp))
  · exact (h.logErr _ _ _ _ _ _).trans (h.wr _ _ (by simp))
  · rfl

theorem isQuiet.advance (c : Chip) (t : Nat) : (c.advance t).wordAt a = c.wordAt a := by
  refine (Chip.Passed.advance c t).word a ?_
  simp only [timeRegs, List.mem_cons, List.not_mem_nil, or_false, not_or]
  exact ⟨h.page (by simp) (by decide), h.page (by simp) (by decide), h.page (by simp) (by decide)⟩

theorem isQuiet.initEnd (c : Chip) (t : Nat) (m : MemCtl) :
    Chip.wordAt { (c.advance t).setBit 0x070 0x010 8 false with memc := m } a = c.wordAt a :=
  (Chip.wordAt_of_regs rfl a).trans ((h.wrPage (c.advance t) _ (by simp) (by decide)).trans (h.advance c t))

theorem isQuiet.clsWait (c : Chip) : c.clsWait.wordAt a = c.wordAt a := by
  unfold Chip.clsWait
  dsimp only
  split
  · exact h.initEnd c _ _
  · rfl

omit h in
theorem Chip.dropLocks_regs (c : Chip) (ns : List Nat) : (c.dropLocks ns).regs = c.regs :=
  List.foldlRecOn ns _ (motive := fun d : Chip => d.regs = c.regs) rfl fun _ hd _ _ => hd

/-! Writes of free bytes. -/

theorem isQuiet.waitAccess (src pa n : Nat) : KeepsPart (Chip.wordAt · a) (waitAccess src pa n) :=
  .ite (fun _ => .bind (.onChip fun c => h.clsWait c) fun _ => .onChip fun c => Chip.wordAt_of_regs (c.dropLocks_regs _) a) fun _ => .pure _

omit h in
theorem storeGranule_keepsWord (a pa : Nat) (bytes : List Byte) (m : Option Mark) : KeepsPart (Chip.wordAt · a) (storeGranule pa bytes m) :=
  .bind .getChip fun _ => .bind (.loop (fun _ _ => .bind (fun _ => rfl) fun _ => .pure _) _ _) fun _ =>
    .ite (fun _ => .bind (fun _ => rfl) fun _ => .onChip fun _ => rfl) fun _ => .pure _

theorem isQuiet.writeGranule (src pa n off : Nat) (new : List (Option Byte)) : KeepsPart (Chip.wordAt · a) (writeGranule src pa n off new) := by
  refine .bind .get fun w => .ite (fun _ => storeGranule_keepsWord _ _ _ _) fun _ => ?_
  dsimp only
  split
  · exact storeGranule_keepsWord _ _ _ _
  · exact .bind (.onChip fun c => h.noteCe c _) fun _ => storeGranule_keepsWord _ _ _ _
  · exact .bind (.onChip fun c => h.noteUe c _ _) fun _ => storeGranule_keepsWord _ _ _ _
  · exact storeGranule_keepsWord _ _ _ _

theorem isQuiet.hostWrite (pa : Nat) (bytes : List (Option Byte)) : KeepsPart (Chip.wordAt · a) (hostWrite pa bytes) := by
  refine .bind .getChip fun c => .ite (fun _ => .pure _) fun _ => ?_
  split
  · exact .onChip fun c => h.wr _ _ (by simp)
  · exact .bind (.loop (fun _ _ => .bind (fun _ => rfl) fun _ => .pure _) _ _) fun _ => .pure _

theorem isQuiet.writePhys (src pa : Nat) (bytes : List (Option Byte)) : KeepsPart (Chip.wordAt · a) (writePhys src pa bytes) := by
  refine .bind (h.waitAccess _ _ _) fun _ => .bind .getChip fun c => ?_
  split
  · exact .bind (h.hostWrite _ _) fun _ => .pure _
  · refine .ite (fun _ => .bind (.onChip fun c => (h.logErr _ _ _ _ _ _).trans (h.wr _ _ (by simp))) fun _ => .pure _) fun _ => ?_
    exact .bind (.loop (fun _ _ => .bind (h.writeGranule _ _ _ _ _) fun _ => .pure _) _ _) fun _ => .pure _

theorem isQuiet.havocPhys (src pa n : Nat) : KeepsPart (Chip.wordAt · a) (havocPhys src pa n) :=
  .bind (.loop (fun _ _ => .bind (fun _ => rfl) fun _ => .pure _) _ _) fun _ => .bind (fun _ => rfl) fun _ =>
    .bind .getChip fun _ => .bind (h.writePhys _ _ _) fun _ => .pure _

theorem isQuiet.havocBytes (ctx src va n : Nat) : KeepsPart (Chip.wordAt · a) (havocBytes ctx src va n) := by
  refine .bind (.loop (fun b _ => .bind .get fun w => ?_) _ _) fun _ => .pure _
  split
  · exact .pure _
  · exact .bind (h.havocPhys _ _ _) fun _ => .pure _

theorem isQuiet.havocOpd (o : Opd) (keep : Nat) : KeepsPart (Chip.wordAt · a) (havocOpd o keep) := by
  refine .bind (.loop (fun lin _ => ?_) _ _) fun _ => .pure _
  have hscale : ∀ x : PUnit, KeepsPart (Chip.wordAt · a) (if o.d.scaleEn = true then do
      Machine.havocBytes o.ctx o.src ((o.d.scaleVa : Int) + o.d.offset lin).toNat 1
      pure (ForInStep.yield x) else pure (ForInStep.yield x)) := fun _ =>
    .ite (fun _ => .bind (h.havocBytes _ _ _ _) fun _ => .pure _) fun _ => .pure _
  exact .ite (fun _ => .bind (h.havocBytes _ _ _ _) fun _ => hscale _) fun _ => .bind (h.havocBytes _ _ _ _) fun _ => hscale _

end

end Sys2Proof.Machine
end


section
/-! Remaps and retirements of the Choir's stalls (R278, R282, R298-R300). -/

namespace Sys2Proof.Machine

/-! What the stalls show. -/

/-- The registers in which the stalls show what they serve. -/
def stallShown : List Nat := regAddr 0x060 0x044 :: (List.range 32).map fun k => regAddr (pgStall k) 0x010

theorem Chip.refreshStalls_words (c : Chip) : c.WordsBut c.refreshStalls stallShown := by
  have hmem : ∀ s ∈ List.range 32, regAddr (pgStall s) 0x010 ∈ stallShown := fun s hs => List.mem_cons_of_mem _ (List.mem_map_of_mem hs)
  refine Chip.WordsBut.trans (List.foldlRecOn (List.range 32) _ (motive := fun d : Chip => c.WordsBut d stallShown) (.refl c _) fun d hd s hs => ?_)
    (.wr _ _ (by simp [stallShown]))
  exact (hd.trans (.wr _ _ (hmem s hs))).trans (.wr _ _ (hmem s hs))

/-- A stall's SUSPECT is not among what it shows of its slot. -/
theorem Chip.refreshStalls_suspect (c : Chip) (k : Nat) : c.refreshStalls.suspect k = c.suspect k := by
  have hset : ∀ (d : Chip) (s lo w x : Nat), lo + w ≤ 32 → (11 < lo ∨ lo + w ≤ 11) → (d.setFld (pgStall s) 0x010 lo w x).suspect k = d.suspect k := by
    intro d s lo w x hw hlo
    unfold Chip.suspect Chip.bit
    by_cases hs : s = k
    · subst hs
      rw [Chip.fld_setFld_other _ _ _ _ _ _ _ _ hw (by lia)]
    · rw [Chip.fld_setFld_ne _ _ _ _ _ _ _ _ _ _ (by unfold pgStall regAddr; lia)]
  unfold Chip.refreshStalls
  dsimp only
  refine (congrArg (· == 1) (Chip.fld_of_word (Chip.wordAt_wr_ne _ _ ?_) 11 1)).trans ?_
  · unfold pgStall regAddr; omega
  · exact List.foldlRecOn (List.range 32) _ (motive := fun d : Chip => d.suspect k = c.suspect k) rfl fun d hd s _ =>
      (hset _ s _ _ _ (by decide) (by decide)).trans ((hset _ s _ _ _ (by decide) (by decide)).trans hd)

/-! A slot at a boundary. -/

/-- A boundary leaves a slot as it is. -/
def Chip.slotStays (c : Chip) (j : Nat) : Bool :=
  c.slotVacant j || c.copying j ||
  !(c.suspect (c.slotPhys j) || c.bit 0x060 0x048 (c.slotPhys j) || c.stallRetired (c.slotPhys j) || !c.stallAllowed (c.slotPhys j))

theorem Chip.remapSlot_stays {c : Chip} {j : Nat} (h : c.slotStays j = true) : c.remapSlot j = c := if_pos h

theorem Chip.remapSlots_stay {c : Chip} (l : List Nat) (h : ∀ j ∈ l, c.slotStays j = true) : l.foldl Chip.remapSlot c = c :=
  List.foldlRecOn l _ (motive := fun d => d = c) rfl fun d hd j hj => by rw [hd, Chip.remapSlot_stays (h j hj)]

/-- Slots that a boundary leaves do so whatever another slot's remap has changed. -/
theorem Chip.slotStays_congr {c d : Chip} {i j : Nat} (hij : j ≠ i) (hi : i < 30) (hret : d.cho.retired = c.cho.retired) (hcopy : d.copying j = c.copying j)
    (hword : ∀ p off, off < 0x1000 → 0x040 ≤ p → regAddr p off ≠ regAddr 0x060 (0x080 + 4 * i) → off ∉ [0x014, 0x020, 0x024] →
      d.wordAt (regAddr p off) = c.wordAt (regAddr p off)) (hj : j < 30) : d.slotStays j = c.slotStays j := by
  have hslot : d.wordAt (regAddr 0x060 (0x080 + 4 * j)) = c.wordAt (regAddr 0x060 (0x080 + 4 * j)) :=
    hword _ _ (by omega) (by decide) (regAddr_off_ne _ _ _ (by omega)) (by simp; lia)
  have hphys : d.slotPhys j = c.slotPhys j := Chip.fld_of_word hslot _ _
  have hvac : d.slotVacant j = c.slotVacant j := Chip.bit_of_word hslot _
  have hask : ∀ b, d.bit 0x060 0x048 b = c.bit 0x060 0x048 b := Chip.bit_of_word (hword _ _ (by decide) (by decide)
    (regAddr_off_ne _ _ _ (by omega)) (by decide))
  have hallow : ∀ b, d.stallAllowed b = c.stallAllowed b := Chip.bit_of_word (hword _ _ (by decide) (by decide)
    (regAddr_off_ne _ _ _ (by lia)) (by decide))
  have hsus : ∀ b, d.suspect b = c.suspect b := fun b => Chip.bit_of_word (hword _ _ (by decide) (by unfold pgStall; lia)
    (by unfold pgStall regAddr; lia) (by decide)) 11
  have hretired : ∀ b, d.stallRetired b = c.stallRetired b := fun b => by rw [Chip.stallRetired, Chip.stallRetired, hret]
  simp only [Chip.slotStays, hvac, hcopy, hphys, hask, hallow, hsus, hretired]

/-- A slot whose SUSPECT stall a spare replaces. -/
def Chip.slotSpared (c : Chip) (i n : Nat) : Chip :=
  let d := c.setFld 0x060 (0x080 + 4 * i) 0 6 n
  { d with cho := { d.cho with copies := d.cho.copies ++ [ChoCopy.mk i (c.slotPhys i) n] } }

/-- A slot whose SUSPECT stall no spare replaces. -/
def Chip.slotLost (c : Chip) (i : Nat) : Chip :=
  (((c.setBit 0x060 (0x080 + 4 * i) 8 true).raise 0x060 1).logErr 0x060 clsUnit 0x63 0 0).retireDone (c.slotPhys i)

section
variable {c : Chip} {i : Nat} (hv : c.slotVacant i = false) (hc : c.copying i = false) (hs : c.suspect (c.slotPhys i) = true)
  (ha : c.bit 0x060 0x048 (c.slotPhys i) = false)
include hv hc hs ha

theorem Chip.remapSlot_spared {n : Nat} (hn : (List.range 32).find? c.isSpare = some n) : c.remapSlot i = c.slotSpared i n := by
  refine (if_neg (by simp [hv, hc, hs])).trans ?_
  simp only [ha, Bool.false_eq_true, ↓reduceIte, hn]
  rfl

theorem Chip.remapSlot_lost (hn : (List.range 32).find? c.isSpare = none) : c.remapSlot i = c.slotLost i := by
  refine (if_neg (by simp [hv, hc, hs])).trans ?_
  simp only [ha, Bool.false_eq_true, ↓reduceIte, hn]
  rfl

end

theorem Chip.slotSpared_stays (c : Chip) (n : Nat) {i j : Nat} (hij : j ≠ i) (hi : i < 30) (hj : j < 30) : (c.slotSpared i n).slotStays j = c.slotStays j := by
  refine Chip.slotStays_congr hij hi rfl ?_ (fun p off _ _ h _ => Chip.wordAt_wr_ne _ _ h) hj
  simp [Chip.copying, Chip.slotSpared, Ne.symm hij]

theorem Chip.slotLost_stays {c : Chip} {i j : Nat} (ha : c.bit 0x060 0x048 (c.slotPhys i) = false) (hij : j ≠ i) (hi : i < 30) (hj : j < 30) :
    (c.slotLost i).slotStays j = c.slotStays j := by
  obtain ⟨d, hd⟩ : ∃ d, d = ((c.setBit 0x060 (0x080 + 4 * i) 8 true).raise 0x060 1).logErr 0x060 clsUnit 0x63 0 0 := ⟨_, rfl⟩
  have hlost : c.slotLost i = d.setBit 0x060 0x048 (c.slotPhys i) false := by rw [hd]; rfl
  have hcho : d.cho = c.cho := by rw [hd, Chip.logErr_cho]; rfl
  have hword : ∀ a, a ∉ logAddrs 0x060 → a ≠ regAddr 0x060 (0x080 + 4 * i) → d.wordAt a = c.wordAt a := fun a hl ha => by
    rw [hd, Chip.logErr_wordAt _ _ _ _ _ _ hl]
    refine (Chip.wordAt_wr_ne _ _ ?_).trans (Chip.wordAt_wr_ne _ _ ha)
    simp only [logAddrs, List.mem_cons, not_or] at hl
    exact hl.1
  have hbit : d.bit 0x060 0x048 (c.slotPhys i) = false := (Chip.bit_of_word (hword _ (by simp [logAddrs, regAddr]) (regAddr_off_ne _ _ _ (by lia))) _).trans ha
  rw [hlost]
  refine Chip.slotStays_congr hij hi (congrArg ChoirState.retired hcho) ?_ (fun p off ho hp h hoff => ?_) hj
  · exact congrArg (fun x : ChoirState => x.copies.any fun k => k.slot == j) hcho
  · rw [Chip.wordAt_setBit_self hbit]
    refine hword _ ?_ h
    simp only [List.mem_cons, List.not_mem_nil, or_false, not_or] at hoff
    simp only [logAddrs, List.mem_cons, List.not_mem_nil, or_false, not_or, regAddr]
    lia

/-- A boundary at which one slot alone is remapped. -/
theorem Chip.remapSlots_one {c d : Chip} {l : List Nat} {i : Nat} (hi : i ∈ l) (hd : l.Nodup) (hother : ∀ j ∈ l, j ≠ i → c.slotStays j = true)
    (hone : c.remapSlot i = d) (hstay : ∀ j ∈ l, j ≠ i → d.slotStays j = c.slotStays j) : l.foldl Chip.remapSlot c = d := by
  obtain ⟨l1, l2, rfl⟩ := List.append_of_mem hi
  have hnd : i ∉ l1 ∧ i ∉ l2 := by
    rw [List.nodup_append] at hd
    exact ⟨fun h => hd.2.2 i h i (by simp) rfl, (List.nodup_cons.mp hd.2.1).1⟩
  rw [List.foldl_append, Chip.remapSlots_stay l1 fun j hj => hother j (by simp [hj]) fun e => hnd.1 (e ▸ hj), List.foldl_cons, hone]
  exact Chip.remapSlots_stay l2 fun j hj => by
    have hne : j ≠ i := fun e => hnd.2 (e ▸ hj)
    rw [hstay j (by simp [hj]) hne]
    exact hother j (by simp [hj]) hne

/-! Requests to retire. -/

/-- A stall of a request that serves no slot retires at once. -/
def Chip.retireOne (m : Word) (c : Chip) (s : Nat) : Chip :=
  if m.getLsbD s && (c.stallSlot s).isNone then { c with cho := { c.cho with retired := c.cho.retired ||| 2 ^ s } }.retireDone s else c

theorem stallRetired_eq (c : Chip) (k : Nat) : c.stallRetired k = c.cho.retired.testBit k := by
  unfold Chip.stallRetired
  rw [Bool.eq_iff_iff, beq_iff_eq, bits_one_eq_one]

theorem Chip.stallSlot_congr {c d : Chip} (h : ∀ a, a ≠ regAddr 0x060 0x048 → d.wordAt a = c.wordAt a) (s : Nat) : d.stallSlot s = c.stallSlot s := by
  have hslot : ∀ i, d.wordAt (regAddr 0x060 (0x080 + 4 * i)) = c.wordAt (regAddr 0x060 (0x080 + 4 * i)) := fun i =>
    h _ (regAddr_off_ne _ _ _ (by lia))
  unfold Chip.stallSlot
  congr 1
  funext i
  rw [Chip.slotVacant, Chip.slotVacant, Chip.slotPhys, Chip.slotPhys, Chip.bit_of_word (hslot i), Chip.fld_of_word (hslot i)]

/-- A stall that a request names retires at once: it serves no slot. -/
def Chip.retiresNow (c : Chip) (m : Word) (k : Nat) : Prop := m.getLsbD k = true ∧ c.stallSlot k = none

/-- What the stalls of a request leave: the requests that still stand, and the stalls retired. -/
structure Chip.Retires (c d : Chip) (m : Word) (l : List Nat) : Prop where
  word : ∀ a, a ≠ regAddr 0x060 0x048 → d.wordAt a = c.wordAt a
  ask : ∀ k < 32, d.bit 0x060 0x048 k = true ↔ c.bit 0x060 0x048 k = true ∧ ¬(k ∈ l ∧ c.retiresNow m k)
  retired : ∀ k < 32, d.stallRetired k = true ↔ c.stallRetired k = true ∨ (k ∈ l ∧ c.retiresNow m k)

theorem Chip.retireOne_spec (c : Chip) (m : Word) {s : Nat} (hs : s < 32) : c.Retires (Chip.retireOne m c s) m [s] := by
  have hnow : (m.getLsbD s && (c.stallSlot s).isNone) = true ↔ c.retiresNow m s := by simp [Chip.retiresNow]
  unfold Chip.retireOne
  split
  · next h =>
    have hn := hnow.mp h
    refine ⟨fun a ha => Chip.wordAt_wr_ne _ _ ha, fun k _ => ?_, fun k _ => ?_⟩
    · by_cases hk : s = k
      · subst hk
        simp [Chip.retireDone, Chip.bit_setBit_same _ _ _ _ _ hs, hn]
      · rw [Chip.retireDone, Chip.bit_setBit_other _ _ _ _ _ _ hs hk]
        simp only [List.mem_singleton, Ne.symm hk, false_and, not_false_eq_true, and_true]
        rfl
    · rw [stallRetired_eq, stallRetired_eq]
      rw [show ∀ x : Chip, (x.retireDone s).cho = x.cho from fun _ => rfl, Nat.testBit_or, Nat.testBit_two_pow]
      by_cases hk : s = k
      · subst hk
        simp [hn]
      · simp [hk, Ne.symm hk]
  · next h =>
    have hn : ∀ k, ¬(k ∈ [s] ∧ c.retiresNow m k) := fun k hk => h (hnow.mpr (List.mem_singleton.mp hk.1 ▸ hk.2))
    exact ⟨fun _ _ => rfl, fun k _ => by simp only [hn, not_false_eq_true, and_true], fun k _ => by simp only [hn, or_false]⟩

theorem Chip.retireOnes_spec (m : Word) (l : List Nat) : ∀ c : Chip, (∀ s ∈ l, s < 32) → c.Retires (l.foldl (Chip.retireOne m) c) m l := by
  induction l with
  | nil => exact fun c _ => ⟨fun _ _ => rfl, fun k _ => by simp, fun k _ => by simp⟩
  | cons s l ih =>
    intro c hl
    have h1 := c.retireOne_spec m (hl s (by simp))
    have h2 := ih (Chip.retireOne m c s) fun k hk => hl k (by simp [hk])
    have hnow : ∀ k, (Chip.retireOne m c s).retiresNow m k ↔ c.retiresNow m k := fun k => by
      rw [Chip.retiresNow, Chip.retiresNow, Chip.stallSlot_congr h1.word]
    refine ⟨fun a ha => (h2.word a ha).trans (h1.word a ha), fun k hk => ?_, fun k hk => ?_⟩
    · rw [List.foldl_cons, h2.ask k hk, h1.ask k hk, hnow, List.mem_singleton, List.mem_cons]
      tauto
    · rw [List.foldl_cons, h2.retired k hk, h1.retired k hk, hnow, List.mem_singleton, List.mem_cons]
      tauto

/-- A request on the chip: every stall named is asked for, and those that serve no slot retire. -/
theorem Chip.retireReq_spec (c : Chip) (m : Word) :
    (∀ a, a ∉ stallShown → a ≠ regAddr 0x060 0x048 → (c.retireReq m).wordAt a = c.wordAt a) ∧ ∀ k < 32,
      (c.retireReq m).bit 0x060 0x048 k = (if m.getLsbD k then (c.stallSlot k).isSome else c.bit 0x060 0x048 k) ∧
      (c.retireReq m).stallRetired k = (c.stallRetired k || (m.getLsbD k && (c.stallSlot k).isNone)) := by
  obtain ⟨e, he⟩ : ∃ e, e = c.wr 0x060 0x048 (c.rd 0x060 0x048 ||| m) := ⟨_, rfl⟩
  obtain ⟨d, hd⟩ : ∃ d, d = (List.range 32).foldl (Chip.retireOne m) e := ⟨_, rfl⟩
  have hreq : c.retireReq m = d.refreshStalls := by rw [hd, he]; rfl
  have hshow := d.refreshStalls_words
  have hret : e.Retires d m (List.range 32) := hd ▸ Chip.retireOnes_spec m _ e fun s hs => List.mem_range.mp hs
  have hew : ∀ a, a ≠ regAddr 0x060 0x048 → e.wordAt a = c.wordAt a := fun a ha => he ▸ c.wordAt_wr_ne _ ha
  have hnow : ∀ k, e.retiresNow m k ↔ c.retiresNow m k := fun k => by rw [Chip.retiresNow, Chip.retiresNow, Chip.stallSlot_congr hew]
  have hask : ∀ k < 32, e.bit 0x060 0x048 k = true ↔ c.bit 0x060 0x048 k = true ∨ m.getLsbD k = true := fun k hk => by
    rw [Chip.bit_eq_getLsbD, Chip.bit_eq_getLsbD, he, Chip.rd_eq_wordAt, Chip.wordAt_wr, if_pos rfl, BitVec.getLsbD_or, Bool.or_eq_true]
  rw [hreq]
  refine ⟨fun a hs ha => (hshow.word a hs).trans ((hret.word a ha).trans (hew a ha)), fun k hk => ⟨?_, ?_⟩⟩
  · rw [hshow.bit k (by simp [stallShown, regAddr, pgStall]; omega), Bool.eq_iff_iff, hret.ask k hk, hask k hk, hnow, Chip.retiresNow]
    cases m.getLsbD k <;> cases c.stallSlot k <;> simp [hk]
  · have hcho : d.refreshStalls.cho = d.cho := by rw [hshow.rest]
    have hce : e.stallRetired k = c.stallRetired k := by rw [he]; rfl
    rw [stallRetired_eq, hcho, ← stallRetired_eq, Bool.eq_iff_iff, hret.retired k hk, hce, hnow, Chip.retiresNow]
    simp [hk]

/-- A stall that is healthy again. -/
theorem Chip.suspectClr_spec (c : Chip) {s : Nat} (hs : s < 32) :
    (∀ a, a ∉ stallShown → (c.suspectClr s).wordAt a = c.wordAt a) ∧ (c.suspectClr s).suspect s = false ∧
    ∀ k, k ≠ s → (c.suspectClr s).suspect k = c.suspect k := by
  obtain ⟨d, hd⟩ : ∃ d, d = c.setBit (pgStall s) 0x010 11 false := ⟨_, rfl⟩
  have hclr : c.suspectClr s = d.refreshStalls := by rw [hd]; rfl
  rw [hclr]
  refine ⟨fun a ha => (d.refreshStalls_words.word a ha).trans ?_, ?_, fun k hk => ?_⟩
  · rw [hd]
    exact Chip.wordAt_wr_ne _ _ fun e => ha (e ▸ List.mem_cons_of_mem _ (List.mem_map_of_mem (List.mem_range.mpr hs)))
  · rw [Chip.refreshStalls_suspect, hd]
    exact Chip.bit_setBit_same _ _ _ _ _ (by decide)
  · rw [Chip.refreshStalls_suspect, hd]
    exact Chip.bit_setBit_ne _ _ _ _ _ _ _ _ (by unfold pgStall regAddr; lia)

/-- What the settled chip shows of the stalls. -/
theorem Chip.settled_stalls {t d : Chip} (h : t = d.settle) :
    (∀ a, t.wordAt a = d.wordAt a) ∧ (∀ p off b, t.bit p off b = d.bit p off b) ∧ ∀ k, t.stallRetired k = d.stallRetired k := by
  have hr : t.regs = d.regs := (congrArg Chip.regs h).trans d.settle_regs
  have hcho : t.cho = d.cho := (congrArg Chip.cho h).trans d.settle_cho
  exact ⟨Chip.wordAt_of_regs hr, fun p off b => Chip.bit_of_word (Chip.wordAt_of_regs hr _) b,
    fun k => by rw [stallRetired_eq, stallRetired_eq, hcho]⟩

/-! The commands. -/

theorem exec_retireReq_eq (req : Requester) (m : Word) (s : State) :
    exec (.retireReq req m) s = .next (s.onChip fun c => c.gated req 0x060 0x048 fun c => c.retireReq m) := rfl

theorem exec_suspectClr_eq (req : Requester) (st : Fin 32) (s : State) :
    exec (.suspectClr req st) s = .next (s.onChip fun c => c.gated req (pgStall st) 0x05C fun c => c.suspectClr st) := rfl

theorem exec_retireReq {req : Requester} {s : State} (m : Word) (h : s.passes req 0x060 0x048) :
    exec (.retireReq req m) s = .next (s.onChip fun c => c.retireReq m) :=
  (exec_retireReq_eq req m s).trans (congrArg _ (s.onChip_gated req 0x060 0x048 (fun c => c.retireReq m) h))

theorem exec_suspectClr {req : Requester} {s : State} (st : Fin 32) (h : s.passes req (pgStall st) 0x05C) :
    exec (.suspectClr req st) s = .next (s.onChip fun c => c.suspectClr st) :=
  (exec_suspectClr_eq req st s).trans (congrArg _ (s.onChip_gated req (pgStall st) 0x05C (fun c => c.suspectClr st) h))

theorem exec_remap (g : Fin 8) (s : State) : exec (.remap g) s = .next (s.onChip fun c =>
    if c.groupBoundary g then ((c.boundarySlots g).foldl Chip.remapSlot c).refreshStalls else c) := rfl

/-- Settles O43: at a boundary one slot alone is remapped, and a request or its clearing is a change of the registers named. -/
theorem stallRemaps : Obligations.StallRemaps := by
  unfold Obligations.StallRemaps
  refine ⟨fun g s h => ?off, fun g s hb i hi => ?boundary, fun s h => ?none, fun s k rest h => ?copied, fun req s => ⟨fun hg m => ?ask,
    fun st hg => ?clear⟩⟩
  case off => exact (exec_remap g s).trans (congrArg _ (s.onChip_congr _ _ (if_neg (by simp [h]))))
  case boundary =>
    intro st hv hc hs ha hall
    have hlt : ∀ j ∈ s.chip.boundarySlots g, j < 30 := fun j hj => List.mem_range.mp (List.mem_filter.mp hj).1
    have hother : ∀ j ∈ s.chip.boundarySlots g, j ≠ i → s.chip.slotStays j = true := fun j hj hne => by
      have := List.all_eq_true.mp hall j hj
      simp only [beq_eq_false_iff_ne.mpr hne, Bool.false_or] at this
      unfold Chip.slotStays
      simpa [Bool.or_assoc, and_assoc] using this
    have hd : (s.chip.boundarySlots g).Nodup := List.nodup_range.filter _
    refine ⟨fun n hn => ?_, fun hn => ?_⟩
    · refine (exec_remap g s).trans (congrArg _ (s.onChip_congr _ _ ((if_pos hb).trans (congrArg Chip.refreshStalls ?_))))
      exact Chip.remapSlots_one hi hd hother (Chip.remapSlot_spared hv hc hs ha hn) fun j hj hne =>
        Chip.slotSpared_stays _ n hne (hlt i hi) (hlt j hj)
    · refine (exec_remap g s).trans (congrArg _ (s.onChip_congr _ _ ((if_pos hb).trans (congrArg Chip.refreshStalls ?_))))
      exact Chip.remapSlots_one hi hd hother (Chip.remapSlot_lost hv hc hs ha hn) fun j hj hne =>
        Chip.slotLost_stays ha hne (hlt i hi) (hlt j hj)
  case none =>
    refine s.onMem_of_eq (WM.bind_of_eq rfl ?_)
    have h' : s.work.chip.cho.copies = [] := h
    simp only [h']
    rfl
  case copied =>
    refine ⟨_, s.onMem_eq _, s.after_onWork copyDone (WM.bind_of_eq rfl ?_)⟩
    have h' : s.work.chip.cho.copies = k :: rest := h
    simp only [h']
    exact WM.bind_chipM_apply (copyWindow k) _ s.work
  case ask =>
    obtain ⟨hword, hbits⟩ := s.chip.retireReq_spec m
    obtain ⟨t, ht⟩ : ∃ t, t = s.onChip fun c => c.retireReq m := ⟨_, rfl⟩
    have hc : t.chip = (s.chip.retireReq m).settle := ht ▸ s.onChip_chip _
    have hmem : s.keepsMem t := ht ▸ s.keepsMem_onChip _
    refine ⟨t, (exec_retireReq m hg).trans (congrArg _ ht.symm), hmem, ?_⟩
    obtain ⟨hw, hb, hr⟩ := Chip.settled_stalls hc
    refine ⟨fun a h1 h2 h3 => (hw a).trans (hword a ?_ h3),
      fun k => ⟨(hb _ _ _).trans (hbits k k.isLt).1, (hr k).trans (hbits k k.isLt).2⟩⟩
    rw [stallShown, List.mem_cons]
    exact fun h => h.elim h2 h1
  case clear =>
    obtain ⟨hword, hst, hk⟩ := s.chip.suspectClr_spec st.isLt
    obtain ⟨t, ht⟩ : ∃ t, t = s.onChip fun c => c.suspectClr st := ⟨_, rfl⟩
    have hc : t.chip = (s.chip.suspectClr st).settle := ht ▸ s.onChip_chip _
    have hmem : s.keepsMem t := ht ▸ s.keepsMem_onChip _
    refine ⟨t, (exec_suspectClr st hg).trans (congrArg _ ht.symm), hmem, ?_⟩
    obtain ⟨hw, hb, _⟩ := Chip.settled_stalls hc
    refine ⟨fun a h1 h2 _ => (hw a).trans (hword a ?_), (hb _ _ _).trans hst, (hw _).trans (hword _ ?_),
      fun k hne => (hb _ _ _).trans (hk k fun e => hne (Fin.ext e))⟩
    · rw [stallShown, List.mem_cons]
      exact fun h => h.elim h2 h1
    · simp [stallShown, regAddr, pgStall]; omega

end Sys2Proof.Machine
end


section
/-! Registers after a write. What a read of a register, a field or a bit gives after each of the model's writes to registers, in the form
that `simp` uses with `omega` for the addresses, and the state that a command on the registers alone ends in. -/

namespace Sys2Proof.Machine

/-! Reads and the words that they read. -/

theorem Chip.fld_of_regs {c d : Chip} (h : d.regs = c.regs) (p off lo w : Nat) : d.fld p off lo w = c.fld p off lo w :=
  Chip.fld_of_word (Chip.wordAt_of_regs h _) lo w

theorem Chip.bit_of_regs {c d : Chip} (h : d.regs = c.regs) (p off b : Nat) : d.bit p off b = c.bit p off b :=
  Chip.bit_of_word (Chip.wordAt_of_regs h _) b

/-! Other registers. -/

section
variable {a x y z w : Nat}

theorem not_mem_two (h : a ∉ [x, y]) : a ≠ x ∧ a ≠ y := ⟨List.ne_of_not_mem_cons h, mt List.mem_singleton.mpr (List.not_mem_of_not_mem_cons h)⟩
theorem not_mem_three (h : a ∉ [x, y, z]) : a ≠ x ∧ a ≠ y ∧ a ≠ z := ⟨List.ne_of_not_mem_cons h, not_mem_two (List.not_mem_of_not_mem_cons h)⟩
theorem not_mem_four (h : a ∉ [x, y, z, w]) : a ≠ x ∧ a ≠ y ∧ a ≠ z ∧ a ≠ w :=
  ⟨List.ne_of_not_mem_cons h, not_mem_three (List.not_mem_of_not_mem_cons h)⟩

end

section
variable (c : Chip) (p off p' off' lo w b : Nat)

theorem Chip.bit_wr_ne (v : Word) (h : regAddr p off ≠ regAddr p' off') : (c.wr p off v).bit p' off' b = c.bit p' off' b :=
  Chip.bit_of_word (Chip.wordAt_wr_ne _ _ (Ne.symm h)) b

theorem Chip.fld_setBit_ne (x : Nat) (v : Bool) (h : regAddr p off ≠ regAddr p' off') :
    (c.setBit p off x v).fld p' off' lo w = c.fld p' off' lo w := c.fld_wr_ne _ _ _ _ _ _ _ h

theorem Chip.bit_setFld_ne (l k x : Nat) (h : regAddr p off ≠ regAddr p' off') :
    (c.setFld p off l k x).bit p' off' b = c.bit p' off' b := c.bit_wr_ne _ _ _ _ _ _ h

theorem Chip.fld_count_ne (n : Nat) (h : regAddr p off ≠ regAddr p' off') :
    (c.count p off n).fld p' off' lo w = c.fld p' off' lo w := c.fld_wr_ne _ _ _ _ _ _ _ h

theorem Chip.bit_count_ne (n : Nat) (h : regAddr p off ≠ regAddr p' off') :
    (c.count p off n).bit p' off' b = c.bit p' off' b := c.bit_wr_ne _ _ _ _ _ _ h

theorem Chip.fld_raise_ne (x : Nat) (h : regAddr p 0x014 ≠ regAddr p' off') :
    (c.raise p x).fld p' off' lo w = c.fld p' off' lo w := c.fld_wr_ne _ _ _ _ _ _ _ h

theorem Chip.bit_raise_ne (x : Nat) (h : regAddr p 0x014 ≠ regAddr p' off') :
    (c.raise p x).bit p' off' b = c.bit p' off' b := c.bit_wr_ne _ _ _ _ _ _ h

section
variable (cls code owner : Nat) (d : Word) (h : regAddr p' off' ∉ logAddrs p)
include h

theorem Chip.rd_logErr : (c.logErr p cls code owner d).rd p' off' = c.rd p' off' := by
  rw [Chip.rd_eq_wordAt, Chip.rd_eq_wordAt, c.logErr_wordAt _ _ _ _ _ h]

theorem Chip.fld_logErr : (c.logErr p cls code owner d).fld p' off' lo w = c.fld p' off' lo w :=
  Chip.fld_of_word (c.logErr_wordAt _ _ _ _ _ h) lo w

theorem Chip.bit_logErr : (c.logErr p cls code owner d).bit p' off' b = c.bit p' off' b :=
  Chip.bit_of_word (c.logErr_wordAt _ _ _ _ _ h) b

end

theorem Chip.bit_logUse (code : Nat) (req : Requester) (x : Nat) (h : regAddr p' off' ∉ logAddrs p) :
    (c.logUse p code req x).bit p' off' b = c.bit p' off' b := c.bit_logErr _ _ _ _ _ _ _ _ h

theorem Chip.fld_logUse (code : Nat) (req : Requester) (x : Nat) (h : regAddr p' off' ∉ logAddrs p) :
    (c.logUse p code req x).fld p' off' lo w = c.fld p' off' lo w := c.fld_logErr _ _ _ _ _ _ _ _ _ h

end

/-! The same register. -/

/-- A cause that is raised is set, and the others stay. -/
theorem Chip.bit_raise (c : Chip) (p x b : Nat) (hb : b < 32) :
    (c.raise p x).bit p 0x014 b = (c.bit p 0x014 b || b == x) := by
  rw [Chip.bit_eq_getLsbD, Chip.bit_eq_getLsbD, Chip.rd_raise_same, BitVec.getLsbD_or, word]
  simp only [BitVec.getLsbD_ofNat, hb, decide_true, Bool.true_and]
  rw [Nat.testBit_two_pow]
  rw [Bool.beq_eq_decide_eq, decide_eq_decide.mpr (eq_comm (a := x) (b := b))]

/-- An error record leaves the causes that are set, and takes no other bit than its own. -/
theorem Chip.bit_logErr_cause (c : Chip) (p cls code owner b : Nat) (d : Word) (hp : p ≠ 0x005) (hb : b < 31) :
    (c.logErr p cls code owner d).bit p 0x014 b = c.bit p 0x014 b := by
  have hj : ∀ (e : Chip) j, (e.journal j).bit p 0x014 b = e.bit p 0x014 b := fun e j =>
    Chip.bit_of_word (Chip.journal_wordAt e j (regAddr_page_ne _ _ _ _ hp (by decide) (by decide))) b
  unfold Chip.logErr
  dsimp only
  rw [hj, Chip.bit_raise _ _ _ _ (by omega), Chip.bit_wr_ne _ _ _ _ _ _ _ (regAddr_off_ne _ _ _ (by decide)),
    Chip.bit_wr_ne _ _ _ _ _ _ _ (regAddr_off_ne _ _ _ (by decide))]
  simp [show b ≠ 31 by omega]

/-- A bit of a field that was cleared. -/
theorem Chip.bit_setFld_zero (c : Chip) (p off lo w b : Nat) (h : lo + w ≤ 32) (hl : lo ≤ b) (hb : b < lo + w) :
    (c.setFld p off lo w 0).bit p off b = false := by
  obtain ⟨g, rfl⟩ := Nat.exists_eq_add_of_le hl
  rw [Chip.bit_of_fld _ _ _ lo (show g < w by lia), Chip.fld_setFld_same _ _ _ _ _ _ h, Nat.zero_mod, Nat.zero_testBit]

/-- A bit outside the field that was set. -/
theorem Chip.bit_setFld_other (c : Chip) (p off lo w x b : Nat) (h : lo + w ≤ 32) (hd : lo + w ≤ b ∨ b + 1 ≤ lo) :
    (c.setFld p off lo w x).bit p off b = c.bit p off b := by
  rw [Chip.bit, c.fld_setFld_other _ _ _ _ _ _ _ h hd, Chip.bit]

/-- A field beside the bit that was set. -/
theorem Chip.fld_setBit_other (c : Chip) (p off b lo w : Nat) (v : Bool) (h : b < 32) (hd : b + 1 ≤ lo ∨ lo + w ≤ b) :
    (c.setBit p off b v).fld p off lo w = c.fld p off lo w := c.fld_setFld_other _ _ _ _ _ _ _ (by omega) hd

/-! Registers that are left. -/

namespace Chip.WordsBut
variable {c : Chip} {l : List Nat}

theorem setFld (c : Chip) {p off : Nat} (lo w x : Nat) (h : regAddr p off ∈ l) : c.WordsBut (c.setFld p off lo w x) l := .wr c _ h
theorem setBit (c : Chip) {p off : Nat} (b : Nat) (v : Bool) (h : regAddr p off ∈ l) : c.WordsBut (c.setBit p off b v) l := .wr c _ h
theorem count (c : Chip) {p off : Nat} (n : Nat) (h : regAddr p off ∈ l) : c.WordsBut (c.count p off n) l := .wr c _ h
theorem raise (c : Chip) {p : Nat} (b : Nat) (h : regAddr p 0x014 ∈ l) : c.WordsBut (c.raise p b) l := .wr c _ h

end Chip.WordsBut

end Sys2Proof.Machine
end


section
/-! The DMA channels (chapter 14). What each of the channel's own acts leaves in its command, progress and state registers and in RUNNING,
and what a bus error leaves of every channel. -/

namespace Sys2Proof.Machine

/-- The registers in which a channel shows how it stands: its command, DONE_BYTES, CH_STATE with CH_ERR, and RUNNING. -/
def dmaShown (ch : Nat) : List Nat := [regAddr (pgDma ch) 0x100, regAddr (pgDma ch) 0x104, regAddr (pgDma ch) 0x110, regAddr 0x090 0x054]

theorem pgDma_ne {p : Nat} (h : p ≤ 0x090) (ch : Nat) : p ≠ pgDma ch := Nat.ne_of_lt (Nat.lt_add_right ch (Nat.lt_succ_of_le h))

theorem pgDma_notVrg (ch : Nat) : isVrgPage (pgDma ch) = false := by
  rw [isVrgPage, beq_false_of_ne (pgDma_ne (by decide) ch).symm, beq_false_of_ne (pgDma_ne (by decide) ch).symm]
  rfl

/-- RUNNING is no register of a channel's page. -/
theorem running_ne_dma (ch : Nat) {off : Nat} (h : off < 0x1000) : regAddr 0x090 0x054 ≠ regAddr (pgDma ch) off :=
  regAddr_page_ne _ _ _ _ (pgDma_ne (Nat.le_refl _) ch) (by decide) h

theorem mem_dmaShown_start (ch : Nat) : regAddr (pgDma ch) 0x100 ∈ dmaShown ch := by simp [dmaShown]
theorem mem_dmaShown_done (ch : Nat) : regAddr (pgDma ch) 0x104 ∈ dmaShown ch := by simp [dmaShown]
theorem mem_dmaShown_state (ch : Nat) : regAddr (pgDma ch) 0x110 ∈ dmaShown ch := by simp [dmaShown]
theorem mem_dmaShown_running (ch : Nat) : regAddr 0x090 0x054 ∈ dmaShown ch := by simp [dmaShown]

theorem Chip.dmaState_of_regs {c d : Chip} (h : d.regs = c.regs) (ch : Nat) : d.dmaState ch = c.dmaState ch := Chip.fld_of_regs h _ _ _ _

section
variable (c : Chip) (ch : Nat)

/-! CH_STATE. -/

theorem Chip.setDmaState_words (x : Nat) : c.WordsBut (c.setDmaState ch x) (dmaShown ch) :=
  .trans (.setFld c _ _ _ (mem_dmaShown_state ch)) (.setBit _ _ _ (mem_dmaShown_running ch))

theorem Chip.setDmaState_state {x : Nat} (hx : x < 8) : (c.setDmaState ch x).dmaState ch = x := by
  unfold Chip.setDmaState Chip.dmaState
  rw [Chip.fld_setBit_ne _ _ _ _ _ _ _ _ _ (running_ne_dma ch (by decide)), Chip.fld_setFld_same _ _ _ _ _ _ (by decide)]
  exact Nat.mod_eq_of_lt hx

theorem Chip.setDmaState_err (x : Nat) : (c.setDmaState ch x).fld (pgDma ch) 0x110 8 8 = c.fld (pgDma ch) 0x110 8 8 := by
  unfold Chip.setDmaState
  rw [Chip.fld_setBit_ne _ _ _ _ _ _ _ _ _ (running_ne_dma ch (by decide)), Chip.fld_setFld_other _ _ _ _ _ _ _ _ (by decide) (by decide)]

theorem Chip.setDmaState_running (x : Nat) (hc : ch < 32) : (c.setDmaState ch x).bit 0x090 0x054 ch = (x != dmaIdle) :=
  Chip.bit_setBit_same _ _ _ _ _ hc

theorem Chip.setDmaState_word (x : Nat) {a : Nat} (h : a ≠ regAddr (pgDma ch) 0x110) (hr : a ≠ regAddr 0x090 0x054) :
    (c.setDmaState ch x).wordAt a = c.wordAt a := (Chip.wordAt_wr_ne _ _ hr).trans (Chip.wordAt_wr_ne _ _ h)

/-- A register of the channel's page other than CH_STATE. -/
theorem Chip.setDmaState_rd (x : Nat) {off : Nat} (h : off ≠ 0x110) (hp : off < 0x1000) : (c.setDmaState ch x).rd (pgDma ch) off = c.rd (pgDma ch) off := by
  rw [Chip.rd_eq_wordAt, Chip.rd_eq_wordAt]
  exact c.setDmaState_word ch x (regAddr_off_ne _ _ _ h) (running_ne_dma ch hp).symm

theorem Chip.setDmaState_bit (x b : Nat) {off : Nat} (h : off ≠ 0x110) (hp : off < 0x1000) :
    (c.setDmaState ch x).bit (pgDma ch) off b = c.bit (pgDma ch) off b := by
  rw [Chip.bit_eq_getLsbD, Chip.bit_eq_getLsbD, c.setDmaState_rd ch x h hp]

/-! A check that fails. -/

/-- The registers that a failed start check may change. -/
def dmaFailed (ch : Nat) : List Nat :=
  regAddr (pgDma ch) 0x100 :: regAddr (pgDma ch) 0x110 :: regAddr 0x090 0x054 :: logAddrs (pgDma ch)

theorem mem_dmaFailed_of_log {a : Nat} (h : a ∈ logAddrs (pgDma ch)) : a ∈ dmaFailed ch :=
  List.mem_cons_of_mem _ (List.mem_cons_of_mem _ (List.mem_cons_of_mem _ h))

/-- Its first part: START cleared and the check's code, with the misaligned field's number where there is one. -/
def Chip.dmaCode (code mis : Nat) : Chip :=
  let d := (c.setBit (pgDma ch) 0x100 0 false).setFld (pgDma ch) 0x110 8 8 code
  if code = 0x04 then d.setFld (pgDma ch) 0x110 20 4 mis else d

theorem Chip.dmaFail_eq (code state mis : Nat) : c.dmaFail ch code state mis =
    (((c.dmaCode ch code mis).raise (pgDma ch) 3).logErr (pgDma ch) clsUse 0x05 0 (word code)).setDmaState ch state := rfl

theorem Chip.dmaCode_word (code mis : Nat) {a : Nat} (h : a ≠ regAddr (pgDma ch) 0x100) (hs : a ≠ regAddr (pgDma ch) 0x110) :
    (c.dmaCode ch code mis).wordAt a = c.wordAt a := by
  unfold Chip.dmaCode
  dsimp only
  split
  · exact (Chip.wordAt_wr_ne _ _ hs).trans ((Chip.wordAt_wr_ne _ _ hs).trans (Chip.wordAt_wr_ne _ _ h))
  · exact (Chip.wordAt_wr_ne _ _ hs).trans (Chip.wordAt_wr_ne _ _ h)

theorem Chip.dmaCode_start (code mis : Nat) : (c.dmaCode ch code mis).bit (pgDma ch) 0x100 0 = false := by
  have hne : regAddr (pgDma ch) 0x110 ≠ regAddr (pgDma ch) 0x100 := regAddr_off_ne _ _ _ (by decide)
  unfold Chip.dmaCode
  dsimp only
  split
  · rw [Chip.bit_setFld_ne _ _ _ _ _ _ _ _ _ hne, Chip.bit_setFld_ne _ _ _ _ _ _ _ _ _ hne, Chip.bit_setBit_same _ _ _ _ _ (by decide)]
  · rw [Chip.bit_setFld_ne _ _ _ _ _ _ _ _ _ hne, Chip.bit_setBit_same _ _ _ _ _ (by decide)]

theorem Chip.dmaCode_err {code : Nat} (mis : Nat) (h : code < 256) : (c.dmaCode ch code mis).fld (pgDma ch) 0x110 8 8 = code := by
  have hset : ((c.setBit (pgDma ch) 0x100 0 false).setFld (pgDma ch) 0x110 8 8 code).fld (pgDma ch) 0x110 8 8 = code :=
    (Chip.fld_setFld_same _ _ _ _ _ _ (by decide)).trans (Nat.mod_eq_of_lt h)
  unfold Chip.dmaCode
  dsimp only
  split
  · rw [Chip.fld_setFld_other _ _ _ _ _ _ _ _ (by decide) (by decide), hset]
  · exact hset

/-- The log of a channel's page leaves the channel's own registers. -/
theorem dma_not_logged {off : Nat} (h : off ∉ [0x014, 0x020, 0x024]) (hp : off < 0x1000) : regAddr (pgDma ch) off ∉ logAddrs (pgDma ch) := by
  exact not_logged h (pgDma_ne (by decide) ch).symm hp

theorem not_dmaFailed {off : Nat} (h : off ∉ [0x014, 0x020, 0x024, 0x100, 0x110]) (hp : off < 0x1000) : regAddr (pgDma ch) off ∉ dmaFailed ch := by
  simp only [List.mem_cons, List.not_mem_nil, or_false, not_or] at h
  obtain ⟨h14, h20, h24, h100, h110⟩ := h
  exact List.not_mem_cons_of_ne_of_not_mem (regAddr_off_ne _ _ _ h100) <| List.not_mem_cons_of_ne_of_not_mem (regAddr_off_ne _ _ _ h110) <|
    List.not_mem_cons_of_ne_of_not_mem (running_ne_dma ch hp).symm (dma_not_logged ch (by simp [h14, h20, h24]) hp)

/-- What a failed check leaves of a channel. -/
structure Chip.DmaFailed (d : Chip) (code x : Nat) : Prop where
  word : ∀ a, a ∉ dmaFailed ch → d.wordAt a = c.wordAt a
  start : d.bit (pgDma ch) 0x100 0 = false
  state : d.dmaState ch = x
  err : d.fld (pgDma ch) 0x110 8 8 = code
  cause : d.bit (pgDma ch) 0x014 3 = true

theorem Chip.dmaFail_spec {code x : Nat} (mis : Nat) (hcode : code < 256) (hx : x < 8) :
    c.DmaFailed ch (c.dmaFail ch code x mis) code x := by
  rw [c.dmaFail_eq]
  have hlog {off : Nat} (h : off ∉ [0x014, 0x020, 0x024]) (hp : off < 0x1000) := dma_not_logged ch h hp
  have hraise : ∀ off, 0x014 ≠ off → regAddr (pgDma ch) 0x014 ≠ regAddr (pgDma ch) off := fun off h => regAddr_off_ne _ _ _ h
  refine ⟨fun a ha => ?_, ?_, Chip.setDmaState_state _ _ hx, ?_, ?_⟩
  · simp only [dmaFailed, List.mem_cons, not_or] at ha
    obtain ⟨hst, hs, hr, hl⟩ := ha
    have h14 : a ≠ regAddr (pgDma ch) 0x014 := fun e => hl (e ▸ List.mem_cons_self ..)
    exact (Chip.setDmaState_word _ _ _ hs hr).trans ((Chip.logErr_wordAt _ _ _ _ _ _ hl).trans
      ((Chip.wordAt_wr_ne _ _ h14).trans (c.dmaCode_word _ _ _ hst hs)))
  · rw [Chip.setDmaState_bit _ _ _ _ (by decide) (by decide), Chip.bit_logErr _ _ _ _ _ _ _ _ _ (hlog (by decide) (by decide)),
      Chip.bit_raise_ne _ _ _ _ _ _ (hraise _ (by decide)), c.dmaCode_start]
  · rw [Chip.setDmaState_err, Chip.fld_logErr _ _ _ _ _ _ _ _ _ _ (hlog (by decide) (by decide)),
      Chip.fld_raise_ne _ _ _ _ _ _ _ (hraise _ (by decide)), c.dmaCode_err _ _ hcode]
  · rw [Chip.setDmaState_bit _ _ _ _ (by decide) (by decide), Chip.bit_logErr_cause _ _ _ _ _ _ _ (pgDma_ne (by decide) ch).symm (by decide),
      Chip.bit_raise _ _ _ _ (by decide)]
    simp

/-! A pass begins. -/

theorem Chip.dmaBegin_words : c.WordsBut (c.dmaBegin ch) (dmaShown ch) :=
  .trans (.wr c _ (mem_dmaShown_done ch)) (.trans (.setFld _ _ _ _ (mem_dmaShown_state ch)) (Chip.setDmaState_words _ _ _))

theorem Chip.dmaBegin_state : (c.dmaBegin ch).dmaState ch = dmaRunning := Chip.setDmaState_state _ _ (by decide)

theorem Chip.dmaBegin_running (hc : ch < 32) : (c.dmaBegin ch).bit 0x090 0x054 ch = true := Chip.setDmaState_running _ _ _ hc

theorem Chip.dmaBegin_done : (c.dmaBegin ch).rd (pgDma ch) 0x104 = 0 := by
  unfold Chip.dmaBegin
  rw [Chip.setDmaState_rd _ _ _ (by decide) (by decide), Chip.rd_setFld_ne _ _ _ _ _ _ _ _ (regAddr_off_ne _ _ _ (by decide)), Chip.rd_wr_same]

theorem Chip.dmaBegin_err : (c.dmaBegin ch).fld (pgDma ch) 0x110 8 8 = 0 := by
  unfold Chip.dmaBegin
  rw [Chip.setDmaState_err, Chip.fld_setFld_same _ _ _ _ _ _ (by decide)]
  rfl

/-- A register of the page that the beginning of a pass leaves. -/
theorem Chip.dmaBegin_rd {off : Nat} (h : off ≠ 0x104) (hs : off ≠ 0x110) (hp : off < 0x1000) :
    (c.dmaBegin ch).rd (pgDma ch) off = c.rd (pgDma ch) off := by
  unfold Chip.dmaBegin
  rw [Chip.setDmaState_rd _ _ _ hs hp, Chip.rd_setFld_ne _ _ _ _ _ _ _ _ (regAddr_off_ne _ _ _ (Ne.symm hs)),
    Chip.rd_wr_ne _ _ _ _ _ _ (regAddr_off_ne _ _ _ (Ne.symm h))]

theorem Chip.dmaBegin_bit {off : Nat} (b : Nat) (h : off ≠ 0x104) (hs : off ≠ 0x110) (hp : off < 0x1000) :
    (c.dmaBegin ch).bit (pgDma ch) off b = c.bit (pgDma ch) off b := by
  rw [Chip.bit_eq_getLsbD, Chip.bit_eq_getLsbD, c.dmaBegin_rd ch h hs hp]

/-! IDLE. -/

/-- A reset that has waited leaves the channel IDLE with nothing asked of it. -/
theorem Chip.dmaLateReset_spec : (c.dmaLateReset ch).dmaState ch = dmaIdle ∧ (c.dmaLateReset ch).rd (pgDma ch) 0x104 = 0 ∧
    (c.dmaLateReset ch).fld (pgDma ch) 0x100 0 3 = 0 ∧ (c.dmaLateReset ch).fld (pgDma ch) 0x110 8 8 = 0 ∧
    (c.dmaLateReset ch).resetBusy (pgDma ch) = false := by
  have hne : ∀ off off' : Nat, off ≠ off' → regAddr (pgDma ch) off ≠ regAddr (pgDma ch) off' := fun off off' => regAddr_off_ne _ off off'
  unfold Chip.dmaLateReset Chip.resetBusy Chip.dmaChanReset
  refine ⟨?_, ?_, ?_, ?_, ?_⟩
  · unfold Chip.dmaState
    rw [Chip.fld_setBit_ne _ _ _ _ _ _ _ _ _ (hne _ _ (by decide)), Chip.fld_setBit_ne _ _ _ _ _ _ _ _ _ (hne _ _ (by decide))]
    exact Chip.setDmaState_state _ _ (by decide)
  · rw [Chip.rd_setBit_ne _ _ _ _ _ _ _ (hne _ _ (by decide)), Chip.rd_setBit_ne _ _ _ _ _ _ _ (hne _ _ (by decide)),
      Chip.setDmaState_rd _ _ _ (by decide) (by decide), Chip.rd_setFld_ne _ _ _ _ _ _ _ _ (hne _ _ (by decide)), Chip.rd_wr_same]
  · rw [Chip.fld_setBit_ne _ _ _ _ _ _ _ _ _ (hne _ _ (by decide)), Chip.fld_setBit_ne _ _ _ _ _ _ _ _ _ (hne _ _ (by decide)),
      Chip.fld, Chip.setDmaState_rd _ _ _ (by decide) (by decide), ← Chip.fld, Chip.fld_setFld_ne _ _ _ _ _ _ _ _ _ _ (hne _ _ (by decide)),
      Chip.fld_wr_ne _ _ _ _ _ _ _ _ (hne _ _ (by decide)), Chip.fld_setFld_same _ _ _ _ _ _ (by decide)]
    rfl
  · rw [Chip.fld_setBit_ne _ _ _ _ _ _ _ _ _ (hne _ _ (by decide)), Chip.fld_setBit_ne _ _ _ _ _ _ _ _ _ (hne _ _ (by decide)),
      Chip.setDmaState_err, Chip.fld_setFld_same _ _ _ _ _ _ (by decide)]
    rfl
  · rw [Chip.bit_setBit_ne _ _ _ _ _ _ _ _ (hne _ _ (by decide)), Chip.bit_setBit_same _ _ _ _ _ (by decide)]

theorem Chip.dmaToIdle_reset {c : Chip} {ch : Nat} (h : c.resetBusy (pgDma ch) = true) : c.dmaToIdle ch = c.dmaLateReset ch := if_pos h

theorem Chip.dmaToIdle_stopped {c : Chip} {ch : Nat} (h : c.resetBusy (pgDma ch) = false) (hs : c.bit (pgDma ch) 0x100 1 = true) :
    c.dmaToIdle ch = ((c.dmaClear ch).setDmaState ch dmaIdle).raise (pgDma ch) 2 :=
  (if_neg (by rw [h]; exact Bool.false_ne_true)).trans (if_pos hs)

theorem Chip.dmaToIdle_ended {c : Chip} {ch : Nat} (h : c.resetBusy (pgDma ch) = false) (hs : c.bit (pgDma ch) 0x100 1 = false) :
    c.dmaToIdle ch = (c.dmaClear ch).setDmaState ch dmaIdle :=
  (if_neg (by rw [h]; exact Bool.false_ne_true)).trans (if_neg (by rw [hs]; exact Bool.false_ne_true))

theorem Chip.dmaClear_start : (c.dmaClear ch).bit (pgDma ch) 0x100 0 = false :=
  c.bit_setFld_zero _ _ 0 2 0 (by decide) (by decide) (by decide)

/-- A channel that is IDLE with START clear. -/
structure Chip.DmaStill (d : Chip) : Prop where
  state : d.dmaState ch = dmaIdle
  start : d.bit (pgDma ch) 0x100 0 = false
  err : d.fld (pgDma ch) 0x110 8 8 = c.fld (pgDma ch) 0x110 8 8

theorem Chip.dmaIdled_still : c.DmaStill ch ((c.dmaClear ch).setDmaState ch dmaIdle) :=
  ⟨Chip.setDmaState_state _ _ (by decide), (Chip.setDmaState_bit _ _ _ _ (by decide) (by decide)).trans (c.dmaClear_start ch),
    (Chip.setDmaState_err _ _ _).trans (Chip.fld_setFld_ne _ _ _ _ _ _ _ _ _ _ (regAddr_off_ne _ _ _ (by decide)))⟩

theorem Chip.DmaStill.raise {c d : Chip} {ch : Nat} (h : c.DmaStill ch d) (b : Nat) : c.DmaStill ch (d.raise (pgDma ch) b) := by
  have hne : ∀ off, 0x014 ≠ off → regAddr (pgDma ch) 0x014 ≠ regAddr (pgDma ch) off := fun off => regAddr_off_ne _ _ off
  exact ⟨(Chip.fld_raise_ne _ _ _ _ _ _ _ (hne _ (by decide))).trans h.state, (Chip.bit_raise_ne _ _ _ _ _ _ (hne _ (by decide))).trans h.start,
    (Chip.fld_raise_ne _ _ _ _ _ _ _ (hne _ (by decide))).trans h.err⟩

theorem Chip.dmaToIdle_still (h : c.resetBusy (pgDma ch) = false) : c.DmaStill ch (c.dmaToIdle ch) := by
  cases hs : c.bit (pgDma ch) 0x100 1 with
  | true => rw [Chip.dmaToIdle_stopped h hs]; exact (c.dmaIdled_still ch).raise 2
  | false => rw [Chip.dmaToIdle_ended h hs]; exact c.dmaIdled_still ch

theorem Chip.dmaIdled_words : c.WordsBut ((c.dmaClear ch).setDmaState ch dmaIdle) (dmaShown ch) :=
  .trans (.setFld c _ _ _ (mem_dmaShown_start ch)) (Chip.setDmaState_words _ _ _)

/-! The shadow set. -/

/-- The first n registers of the shadow set copied. -/
def Chip.shadowCopy (n : Nat) : Chip :=
  (List.range n).foldl (fun (c : Chip) k => c.wr (pgDma ch) (0x040 + 4 * k) (c.rd (pgDma ch) (0x0C0 + 4 * k))) c

theorem Chip.shadowLoad_eq : c.shadowLoad ch = (c.shadowCopy ch 13).setBit (pgDma ch) 0x100 2 false := rfl

theorem Chip.shadowCopy_succ (n : Nat) : c.shadowCopy ch (n + 1) =
    (c.shadowCopy ch n).wr (pgDma ch) (0x040 + 4 * n) ((c.shadowCopy ch n).rd (pgDma ch) (0x0C0 + 4 * n)) := by
  simp [Chip.shadowCopy, List.range_succ, List.foldl_append]

/-- The registers copied read as the shadow set's, and every other as before: the two sets do not overlap. -/
theorem Chip.shadowCopy_rd {n : Nat} (hn : n ≤ 13) :
    (∀ k < n, (c.shadowCopy ch n).rd (pgDma ch) (0x040 + 4 * k) = c.rd (pgDma ch) (0x0C0 + 4 * k)) ∧
    ∀ off, (∀ k < n, 0x040 + 4 * k ≠ off) → (c.shadowCopy ch n).rd (pgDma ch) off = c.rd (pgDma ch) off := by
  induction n with
  | zero => exact ⟨fun k hk => absurd hk (Nat.not_lt_zero k), fun _ _ => rfl⟩
  | succ n ih =>
    obtain ⟨hcopied, hleft⟩ := ih (by omega)
    rw [c.shadowCopy_succ]
    refine ⟨fun k hk => ?_, fun off ho => ?_⟩
    · rcases Nat.lt_succ_iff_lt_or_eq.mp hk with hlt | rfl
      · rw [Chip.rd_wr_ne _ _ _ _ _ _ (regAddr_off_ne _ _ _ (by omega)), hcopied k hlt]
      · rw [Chip.rd_wr_same, hleft _ fun j hj => by omega]
    · rw [Chip.rd_wr_ne _ _ _ _ _ _ (regAddr_off_ne _ _ _ (ho n (by omega))), hleft off fun k hk => ho k (by omega)]

theorem Chip.shadowLoad_armed : (c.shadowLoad ch).bit (pgDma ch) 0x100 2 = false := Chip.bit_setBit_same _ _ _ _ _ (by decide)

theorem Chip.shadowLoad_set {k : Nat} (hk : k < 13) : (c.shadowLoad ch).rd (pgDma ch) (0x040 + 4 * k) = c.rd (pgDma ch) (0x0C0 + 4 * k) := by
  rw [c.shadowLoad_eq, Chip.rd_setBit_ne _ _ _ _ _ _ _ (regAddr_off_ne _ _ _ (by omega)), (c.shadowCopy_rd ch (Nat.le_refl 13)).1 k hk]

/-! The halt. -/

/-- The state in which the halt leaves a channel. -/
def Chip.haltState (k : Nat) : Nat :=
  if c.dmaActive k then (if c.resetBusy (pgDma k) then dmaIdle else dmaHalted) else c.dmaState k

/-- The halt of one channel changes its own page and its bit of RUNNING alone. -/
theorem Chip.dmaHaltOne_word {a : Nat} (h : ∀ off < 0x1000, a ≠ regAddr (pgDma ch) off) (hr : a ≠ regAddr 0x090 0x054) :
    (c.dmaHaltOne ch).wordAt a = c.wordAt a := by
  unfold Chip.dmaHaltOne
  split
  · rfl
  · split
    · exact (Chip.wordAt_wr_ne _ _ (h _ (by decide))).trans ((Chip.wordAt_wr_ne _ _ (h _ (by decide))).trans
        ((Chip.setDmaState_word _ _ _ (h _ (by decide)) hr).trans ((Chip.wordAt_wr_ne _ _ (h _ (by decide))).trans
          ((Chip.wordAt_wr_ne _ _ (h _ (by decide))).trans (Chip.wordAt_wr_ne _ _ (h _ (by decide)))))))
    · exact c.setDmaState_word _ _ (h _ (by decide)) hr

theorem Chip.dmaHaltOne_state : (c.dmaHaltOne ch).dmaState ch = c.haltState ch := by
  unfold Chip.dmaHaltOne Chip.haltState
  cases c.dmaActive ch with
  | false => rfl
  | true =>
    cases c.resetBusy (pgDma ch) with
    | true => exact (c.dmaLateReset_spec ch).1
    | false => exact c.setDmaState_state _ (by decide)

/-- The halt of another channel leaves what this one's halt depends on. -/
theorem Chip.dmaHaltOne_other {k : Nat} (hne : k ≠ ch) :
    (c.dmaHaltOne k).dmaState ch = c.dmaState ch ∧ (c.dmaHaltOne k).resetBusy (pgDma ch) = c.resetBusy (pgDma ch) := by
  have hword : ∀ off < 0x1000, (c.dmaHaltOne k).wordAt (regAddr (pgDma ch) off) = c.wordAt (regAddr (pgDma ch) off) := fun off ho =>
    c.dmaHaltOne_word k (fun o h => regAddr_page_ne _ _ _ _ (fun e => hne (Nat.add_left_cancel e).symm) ho h) (running_ne_dma ch ho).symm
  exact ⟨Chip.fld_of_word (hword _ (by decide)) _ _, Chip.bit_of_word (hword _ (by decide)) _⟩

theorem Chip.haltState_congr {c d : Chip} {ch : Nat} (hs : d.dmaState ch = c.dmaState ch) (hb : d.resetBusy (pgDma ch) = c.resetBusy (pgDma ch)) :
    d.haltState ch = c.haltState ch := by
  rw [Chip.haltState, Chip.haltState, Chip.dmaActive, Chip.dmaActive, hs, hb]

/-- Every channel halted in turn ends in its own state. -/
theorem Chip.dmaHaltAll_state (ks : List Nat) (hd : ks.Nodup) :
    (ks.foldl Chip.dmaHaltOne c).dmaState ch = if ch ∈ ks then c.haltState ch else c.dmaState ch := by
  have hgone : ∀ (ks : List Nat) (d : Chip), ch ∉ ks → (ks.foldl Chip.dmaHaltOne d).dmaState ch = d.dmaState ch := fun ks => by
    induction ks with
    | nil => exact fun _ _ => rfl
    | cons k ks ih =>
      intro d hn
      obtain ⟨hk, hks⟩ := not_or.mp (mt List.mem_cons.mpr hn)
      exact (ih _ hks).trans (d.dmaHaltOne_other ch (Ne.symm hk)).1
  induction ks generalizing c with
  | nil => rfl
  | cons k ks ih =>
    obtain ⟨hnot, hd⟩ := List.nodup_cons.mp hd
    rw [List.foldl_cons]
    by_cases hk : k = ch
    · subst hk
      rw [hgone ks _ hnot, c.dmaHaltOne_state, if_pos (List.mem_cons_self ..)]
    · obtain ⟨hs, hb⟩ := c.dmaHaltOne_other ch hk
      rw [ih _ hd, Chip.haltState_congr hs hb, hs]
      simp [Ne.symm hk]

/-- A register of no channel's page is left by every halt, but for RUNNING. -/
theorem Chip.dmaHaltAll_word {a : Nat} (h : ∀ k < 16, ∀ off < 0x1000, a ≠ regAddr (pgDma k) off) (hr : a ≠ regAddr 0x090 0x054) :
    ((List.range 16).foldl Chip.dmaHaltOne c).wordAt a = c.wordAt a :=
  List.foldlRecOn (List.range 16) _ (motive := fun d : Chip => d.wordAt a = c.wordAt a) rfl fun d hd k hk =>
    (d.dmaHaltOne_word k (h k (List.mem_range.mp hk)) hr).trans hd

/-! The first bus error. -/

/-- BUS_ERR_INFO of a bus error without a code of the Rood. -/
def dmaErrInfo (ch ctx : Nat) (write prefetch : Bool) (cause : Nat) : Nat :=
  prefetch.toNat * 2 ^ 31 + write.toNat * 2 ^ 30 + ch * 2 ^ 20 + ctx * 2 ^ 16 + 0 * 2 ^ 8 + cause

/-- The engine's page as the first bus error leaves it, before its record. -/
def Chip.dmaErrPage (va ctx : Nat) (write prefetch : Bool) (cause : Nat) : Chip :=
  (((c.setBit 0x090 0x010 8 true).count 0x090 0x050).wr64 0x090 0x040 (va % 2 ^ 39)).wr 0x090 0x048 (word (dmaErrInfo ch ctx write prefetch cause))

/-- The same with its cause and record. -/
def Chip.dmaErrLogged (va ctx : Nat) (write prefetch : Bool) (cause : Nat) : Chip :=
  ((c.dmaErrPage ch va ctx write prefetch cause).raise 0x090 0).logErr 0x090 clsAccess 0x23 0 0

theorem Chip.dmaBusErr_first {va ctx cause : Nat} {write prefetch : Bool} (h : c.dmaHalt = false) :
    c.dmaBusErr ch va ctx write prefetch cause 0 = (List.range 16).foldl Chip.dmaHaltOne (c.dmaErrLogged ch va ctx write prefetch cause) :=
  if_neg (by rw [h]; exact Bool.false_ne_true)

theorem Chip.dmaBusErr_later {va ctx cause code : Nat} {write prefetch : Bool} (h : c.dmaHalt = true) :
    c.dmaBusErr ch va ctx write prefetch cause code = c.count 0x090 0x04C := if_pos h

variable (va ctx : Nat) (write prefetch : Bool) (cause : Nat)

theorem Chip.dmaErrPage_word {a : Nat} (h : a ∉ [regAddr 0x090 0x010, regAddr 0x090 0x040, regAddr 0x090 0x044, regAddr 0x090 0x048, regAddr 0x090 0x050]) :
    (c.dmaErrPage ch va ctx write prefetch cause).wordAt a = c.wordAt a := by
  simp only [List.mem_cons, List.not_mem_nil, or_false, not_or] at h
  obtain ⟨h10, h40, h44, h48, h50⟩ := h
  exact (Chip.wordAt_wr_ne _ _ h48).trans ((Chip.wordAt_wr_ne _ _ h44).trans ((Chip.wordAt_wr_ne _ _ h40).trans
    ((Chip.wordAt_wr_ne _ _ h50).trans (Chip.wordAt_wr_ne _ _ h10))))

/-- What the record and the halts leave of the page. -/
theorem Chip.dmaBusErr_page {off : Nat} (h : c.dmaHalt = false) (ho : off ∉ [0x014, 0x020, 0x024, 0x054]) (hp : off < 0x1000) :
    (c.dmaBusErr ch va ctx write prefetch cause 0).wordAt (regAddr 0x090 off) = (c.dmaErrPage ch va ctx write prefetch cause).wordAt (regAddr 0x090 off) := by
  simp only [List.mem_cons, List.not_mem_nil, or_false, not_or] at ho
  obtain ⟨h14, h20, h24, h54⟩ := ho
  rw [c.dmaBusErr_first ch h, Chip.dmaHaltAll_word _ (fun k _ o => regAddr_page_ne _ _ _ _ (pgDma_ne (Nat.le_refl _) k) hp) (regAddr_off_ne _ _ _ h54)]
  exact (Chip.logErr_wordAt _ _ _ _ _ _ (not_logged (by simp [h14, h20, h24]) (by decide) hp)).trans (Chip.wordAt_wr_ne _ _ (regAddr_off_ne _ _ _ h14))

/-- The states of the channels after the first bus error. -/
theorem Chip.dmaBusErr_state {k : Nat} (h : c.dmaHalt = false) (hk : k < 16) :
    (c.dmaBusErr ch va ctx write prefetch cause 0).dmaState k = c.haltState k := by
  have hlog : ∀ off < 0x1000, (c.dmaErrLogged ch va ctx write prefetch cause).wordAt (regAddr (pgDma k) off) = c.wordAt (regAddr (pgDma k) off) :=
    fun off ho => by
      have hpage := (pgDma_ne (Nat.le_refl 0x090) k).symm
      have hne : ∀ o < 0x1000, regAddr (pgDma k) off ≠ regAddr 0x090 o := fun o => regAddr_page_ne _ _ _ _ hpage ho
      refine (Chip.logErr_wordAt _ _ _ _ _ _ (not_logged_page hpage (pgDma_ne (by decide) k).symm ho)).trans
        ((Chip.wordAt_wr_ne _ _ (hne _ (by decide))).trans (c.dmaErrPage_word _ _ _ _ _ _ ?_))
      simp only [List.mem_cons, List.not_mem_nil, or_false, not_or]
      exact ⟨hne _ (by decide), hne _ (by decide), hne _ (by decide), hne _ (by decide), hne _ (by decide)⟩
  rw [c.dmaBusErr_first ch h, Chip.dmaHaltAll_state _ _ _ List.nodup_range, if_pos (List.mem_range.mpr hk)]
  exact Chip.haltState_congr (Chip.fld_of_word (hlog _ (by decide)) _ _) (Chip.bit_of_word (hlog _ (by decide)) _)

/-! The fields of BUS_ERR_INFO. -/

section
variable {ch ctx cause : Nat} (hch : ch < 16) (hctx : ctx < 16) (hc : cause < 256)

theorem dmaErrInfo_eq : dmaErrInfo ch ctx write prefetch cause =
    prefetch.toNat * 2 ^ 31 + (write.toNat * 2 ^ 30 + (ch * 2 ^ 20 + (ctx * 2 ^ 16 + cause))) := by
  simp only [dmaErrInfo, Nat.add_assoc, Nat.zero_mul, Nat.zero_add]

theorem dmaErrInfo_below {lo w : Nat} (h : lo + w ≤ 20) : bits (dmaErrInfo ch ctx write prefetch cause) lo w = bits (ctx * 2 ^ 16 + cause) lo w :=
  (congrArg (bits · lo w) (dmaErrInfo_eq write prefetch)).trans <|
    (bits_add_high _ _ (h.trans (by decide))).trans ((bits_add_high _ _ (h.trans (by decide))).trans (bits_add_high _ _ h))

include hc

theorem dmaErrInfo_cause : bits (dmaErrInfo ch ctx write prefetch cause) 0 8 = cause :=
  (dmaErrInfo_below write prefetch (by decide)).trans
    ((bits_add_high _ _ (by decide)).trans ((congrArg (· % 256) (Nat.div_one cause)).trans (Nat.mod_eq_of_lt hc)))

theorem dmaErrInfo_ctx : bits (dmaErrInfo ch ctx write prefetch cause) 16 4 = ctx % 16 :=
  (dmaErrInfo_below write prefetch (by decide)).trans (bits_mul_add _ _ (hc.trans (by decide)))

include hctx

theorem dmaErrInfo_low20 : ctx * 2 ^ 16 + cause < 2 ^ 20 := digit_lt (m := 16) hctx (hc.trans (by decide))

include hch

theorem dmaErrInfo_low30 : ch * 2 ^ 20 + (ctx * 2 ^ 16 + cause) < 2 ^ 30 := (digit_lt hch (dmaErrInfo_low20 hctx hc)).trans (by decide)

theorem dmaErrInfo_channel : bits (dmaErrInfo ch ctx write prefetch cause) 20 4 = ch :=
  (congrArg (bits · _ _) (dmaErrInfo_eq write prefetch)).trans <| (bits_add_high _ _ (by decide)).trans ((bits_add_high _ _ (by decide)).trans
    ((bits_mul_add _ _ (dmaErrInfo_low20 hctx hc)).trans (Nat.mod_eq_of_lt hch)))

theorem dmaErrInfo_write : bits (dmaErrInfo ch ctx write prefetch cause) 30 1 = write.toNat :=
  (congrArg (bits · _ _) (dmaErrInfo_eq write prefetch)).trans <| (bits_add_high _ _ (by decide)).trans ((bits_mul_add _ _ (dmaErrInfo_low30 hch hctx hc)).trans
    (Nat.mod_eq_of_lt write.toNat_lt))

theorem dmaErrInfo_low31 : write.toNat * 2 ^ 30 + (ch * 2 ^ 20 + (ctx * 2 ^ 16 + cause)) < 2 ^ 31 :=
  digit_lt (m := 2) write.toNat_lt (dmaErrInfo_low30 hch hctx hc)

theorem dmaErrInfo_prefetch : bits (dmaErrInfo ch ctx write prefetch cause) 31 1 = prefetch.toNat :=
  (congrArg (bits · _ _) (dmaErrInfo_eq write prefetch)).trans <| (bits_mul_add _ _ (dmaErrInfo_low31 write hch hctx hc)).trans (Nat.mod_eq_of_lt prefetch.toNat_lt)

end

/-! The engine's page after the first bus error. -/

theorem Chip.dmaErrPage_halt : (c.dmaErrPage ch va ctx write prefetch cause).dmaHalt = true :=
  (Chip.bit_of_word (Chip.wordAt_wr_ne _ _ (regAddr_off_ne _ _ _ (by decide))) _).trans <|
    (Chip.bit_of_word (Chip.wordAt_wr_ne _ _ (regAddr_off_ne _ _ _ (by decide))) _).trans <|
    (Chip.bit_of_word (Chip.wordAt_wr_ne _ _ (regAddr_off_ne _ _ _ (by decide))) _).trans <|
    (Chip.bit_of_word (Chip.wordAt_wr_ne _ _ (regAddr_off_ne _ _ _ (by decide))) _).trans (Chip.bit_setBit_same _ _ _ _ _ (by decide))

theorem Chip.rd64_of_word {c d : Chip} {p off : Nat} (hlo : d.wordAt (regAddr p off) = c.wordAt (regAddr p off))
    (hhi : d.wordAt (regAddr p (off + 4)) = c.wordAt (regAddr p (off + 4))) : d.rd64 p off = c.rd64 p off :=
  congrArg₂ (fun lo hi : Word => lo.toNat + 2 ^ 32 * hi.toNat) hlo hhi

theorem Chip.dmaErrPage_va (hva : va < 2 ^ 39) : (c.dmaErrPage ch va ctx write prefetch cause).rd64 0x090 0x040 = va := by
  rw [Chip.dmaErrPage, Chip.rd64_wr_ne _ _ (regAddr_off_ne _ _ _ (by decide)) (regAddr_off_ne _ _ _ (by decide)), Nat.mod_eq_of_lt hva,
    Chip.rd64_wr64_same _ _ _ _ (Nat.lt_trans hva (by decide))]

theorem Chip.dmaErrPage_fld (lo : Nat) {w : Nat} (h : lo + w ≤ 32) :
    (c.dmaErrPage ch va ctx write prefetch cause).fld 0x090 0x048 lo w = bits (dmaErrInfo ch ctx write prefetch cause) lo w := by
  rw [Chip.fld, Chip.dmaErrPage, Chip.rd_wr_same]
  exact bits_word _ h

theorem Chip.dmaErrPage_bit {b : Nat} {v : Bool} (hb : b + 1 ≤ 32) (h : bits (dmaErrInfo ch ctx write prefetch cause) b 1 = v.toNat) :
    (c.dmaErrPage ch va ctx write prefetch cause).bit 0x090 0x048 b = v := by
  rw [Chip.bit, c.dmaErrPage_fld _ _ _ _ _ _ b hb, h]
  cases v <;> rfl

theorem Chip.dmaErrPage_count : (c.dmaErrPage ch va ctx write prefetch cause).rd 0x090 0x050 = c.rd 0x090 0x050 + 1 := by
  have hleft : (c.dmaErrPage ch va ctx write prefetch cause).rd 0x090 0x050 = ((c.setBit 0x090 0x010 8 true).count 0x090 0x050).rd 0x090 0x050 :=
    (Chip.wordAt_wr_ne _ _ (regAddr_off_ne _ _ _ (by decide))).trans
      ((Chip.wordAt_wr_ne _ _ (regAddr_off_ne _ _ _ (by decide))).trans (Chip.wordAt_wr_ne _ _ (regAddr_off_ne _ _ _ (by decide))))
  rw [hleft, Chip.rd_count_same, Chip.rd_setBit_ne _ _ _ _ _ _ _ (regAddr_off_ne _ _ _ (by decide))]
  rfl

/-- What a chip with the registers of one after its first bus error shows of the engine's page. -/
theorem Chip.busErr_word {d : Chip} {off : Nat} (hr : d.regs = (c.dmaBusErr ch va ctx write prefetch cause 0).regs) (h : c.dmaHalt = false)
    (ho : off ∉ [0x014, 0x020, 0x024, 0x054]) (hp : off < 0x1000) :
    d.wordAt (regAddr 0x090 off) = (c.dmaErrPage ch va ctx write prefetch cause).wordAt (regAddr 0x090 off) :=
  (Chip.wordAt_of_regs hr _).trans (c.dmaBusErr_page ch _ _ _ _ _ h ho hp)

theorem Chip.dmaErrCtx_lt : c.dmaErrCtx ch va prefetch < 16 := by
  have hctx : ∀ base, (c.dmaDesc ch base).ctx < 16 := fun base =>
    iteInduction (motive := fun d : DmaDesc => d.ctx < 16) (fun _ => bits_lt _ 0 4) fun _ => bits_lt _ 0 4
  exact iteInduction (motive := (· < 16)) (fun _ => hctx _) fun _ => hctx _

theorem Chip.dmaCheck_lt (d : DmaDesc) : c.dmaCheck d < 256 := by
  have hlt {p : Prop} [Decidable p] {a b : Nat} (ha : a < 256) (hb : b < 256) : (if p then a else b) < 256 :=
    iteInduction (motive := (· < 256)) (fun _ => ha) fun _ => hb
  exact hlt (by decide) (hlt (by decide) (hlt (by decide) (hlt (by decide) (hlt (by decide) (by decide)))))

end

/-! The commands. -/

/-- A check that stops a write has not come about where the write passes. -/
theorem of_stop_ite {p : Prop} [Decidable p] {c : Chip} {y : Gate} (h : (if p then .stop c else y) = .pass) : ¬p ∧ y = .pass := by
  by_cases hp : p
  · rw [if_pos hp] at h; exact nomatch h
  · exact ⟨hp, (if_neg hp).symm.trans h⟩

/-- A write that passes the checks is not to a page in soft reset. -/
theorem Chip.resetBusy_of_gate {c : Chip} {req : Requester} {addr : Nat} (h : c.gate req addr .b4 = .pass) (ho : 0x040 ≤ addr % 0x1000)
    (hv : isVrgPage (addr / 0x1000) = false) : c.resetBusy (addr / 0x1000) = false := by
  have hmapped : pageClass (addr / 0x1000) ≠ none := fun hk => nomatch (c.gate_unmapped req addr .b4 hk).symm.trans h
  have hclock := (of_stop_ite (of_stop_ite ((c.gate_mapped req .b4 hmapped).symm.trans h)).2).1
  have hp := (c.gate_page req hmapped (Bool.eq_false_iff.mpr hclock) hv (fun e => absurd (e ▸ ho) (by decide)) (fun e => absurd (e ▸ ho) (by decide))).symm.trans h
  exact Bool.eq_false_iff.mpr fun hb => (of_stop_ite (of_stop_ite (of_stop_ite (of_stop_ite hp).2).2).2).1 ⟨ho, hb⟩

theorem Chip.resetBusy_of_pass {c : Chip} {req : Requester} {p off : Nat} (h : c.gate req (regAddr p off) .b4 = .pass) (ho : 0x040 ≤ off)
    (hp : off < 0x1000) (hv : isVrgPage p = false) : c.resetBusy p = false := by
  have hdiv := regAddr_div p hp
  exact hdiv ▸ Chip.resetBusy_of_gate h ((regAddr_mod p hp).symm ▸ ho) (hdiv.symm ▸ hv)

section
variable {req : Requester} {ch : Fin 16} {s : State}

theorem exec_dmaStart_eq : exec (.dmaStart req ch) s = .next (s.onChip fun c => c.gated req (pgDma ch) 0x100 fun c => c.dmaStart req ch) := rfl
theorem exec_dmaStop_eq : exec (.dmaStop req ch) s = .next (s.onChip fun c => c.gated req (pgDma ch) 0x100 fun c => c.dmaStop ch) := rfl
theorem exec_shadowArm_eq : exec (.shadowArm req ch) s = .next (s.onChip fun c => c.gated req (pgDma ch) 0x100 fun c => c.shadowArm ch) := rfl
theorem exec_passEnd_eq : exec (.passEnd ch) s = .next (s.onChip fun c => c.passEnd ch) := rfl

theorem exec_dmaBusError_cpl (va : BitVec 39) (write prefetch : Bool) : exec (.dmaBusError ch va write prefetch .hostCpl) s = .next (s.onChip fun c =>
    c.dmaBusErr ch va.toNat (c.dmaErrCtx ch va.toNat (prefetch && !write)) write (prefetch && !write) 2 0) := rfl
theorem exec_dmaBusError_rood (va : BitVec 39) (write prefetch : Bool) (code : BitVec 8) : exec (.dmaBusError ch va write prefetch (.rood code)) s =
    .next (s.onChip fun c => (c.roodFault (c.dmaErrCtx ch va.toNat (prefetch && !write)) (if write then 1 else 0) va.toNat code.toNat (0x40 + ch)).dmaBusErr
      ch va.toNat (c.dmaErrCtx ch va.toNat (prefetch && !write)) write (prefetch && !write) 1 code.toNat) := rfl
theorem exec_dmaBusError_poison (va : BitVec 39) (write prefetch : Bool) : exec (.dmaBusError ch va write prefetch .poisonRefused) s =
    .next (s.onChip fun c => c.dmaBusErr ch va.toNat (c.dmaErrCtx ch va.toNat (prefetch && !write)) write (prefetch && !write) 3 0) := rfl

/-- A bus error without a code of the Rood. -/
theorem exec_dmaBusError_plain (va : BitVec 39) (write prefetch : Bool) : ∀ x ∈ [(BusErr.hostCpl, 2), (.poisonRefused, 3)],
    exec (.dmaBusError ch va write prefetch x.1) s = .next (s.onChip fun c =>
      c.dmaBusErr ch va.toNat (c.dmaErrCtx ch va.toNat (prefetch && !write)) write (prefetch && !write) x.2 0) :=
  List.forall_mem_cons.mpr ⟨exec_dmaBusError_cpl va write prefetch, List.forall_mem_singleton.mpr (exec_dmaBusError_poison va write prefetch)⟩

section
variable (h : s.passes req (pgDma ch) 0x100)
include h

theorem exec_dmaStart : exec (.dmaStart req ch) s = .next (s.onChip fun c => c.dmaStart req ch) :=
  exec_dmaStart_eq.trans (congrArg _ (s.onChip_gated req (pgDma ch) 0x100 (fun c => c.dmaStart req ch) h))
theorem exec_dmaStop : exec (.dmaStop req ch) s = .next (s.onChip fun c => c.dmaStop ch) :=
  exec_dmaStop_eq.trans (congrArg _ (s.onChip_gated req (pgDma ch) 0x100 (fun c => c.dmaStop ch) h))
theorem exec_shadowArm : exec (.shadowArm req ch) s = .next (s.onChip fun c => c.shadowArm ch) :=
  exec_shadowArm_eq.trans (congrArg _ (s.onChip_gated req (pgDma ch) 0x100 (fun c => c.shadowArm ch) h))

end

/-- The branches of START. -/
theorem Chip.dmaStart_halted {c : Chip} (h : c.dmaHalt = true) : c.dmaStart req ch =
    ((c.dmaFail ch 0x01 dmaIdle 0).dmaToIdle ch).logUse (pgDma ch) 0x0B req (regAddr (pgDma ch) 0x100) := if_pos h
theorem Chip.dmaStart_started {c : Chip} (h : c.dmaHalt = false) (hs : c.bit (pgDma ch) 0x100 0 = true) : c.dmaStart req ch = c := by
  simp [Chip.dmaStart, h, hs]
theorem Chip.dmaStart_begins {c : Chip} (h : c.dmaHalt = false) (hs : c.bit (pgDma ch) 0x100 0 = false) (hc : c.dmaCheck (c.dmaDesc ch 0) = 0) :
    c.dmaStart req ch = (c.setBit (pgDma ch) 0x100 0 true).dmaBegin ch := by
  simp [Chip.dmaStart, h, hs, hc]
theorem Chip.dmaStart_fails {c : Chip} (h : c.dmaHalt = false) (hs : c.bit (pgDma ch) 0x100 0 = false) (hc : c.dmaCheck (c.dmaDesc ch 0) ≠ 0) :
    c.dmaStart req ch = c.dmaFail ch (c.dmaCheck (c.dmaDesc ch 0)) dmaIdle ((c.dmaDesc ch 0).misField.getD 0) := by
  simp [Chip.dmaStart, h, hs, hc]

/-- The branches of a pass's end. -/
theorem Chip.passEnd_none {c : Chip} {ch : Nat} (h : c.dmaActive ch = false ∨ (c.rd (pgDma ch) 0x104).toNat ≠ (c.dmaDesc ch 0).total) : c.passEnd ch = c :=
  if_pos (by simpa using h)

section
variable {c : Chip} {ch : Nat} (ha : c.dmaActive ch = true) (ht : (c.rd (pgDma ch) 0x104).toNat = (c.dmaDesc ch 0).total)
include ha ht

theorem Chip.passEnd_idle (h : c.resetBusy (pgDma ch) = true ∨ c.bit (pgDma ch) 0x100 1 = true) : c.passEnd ch = c.dmaToIdle ch := by
  simp [Chip.passEnd, ha, ht, h]

variable (hb : c.resetBusy (pgDma ch) = false) (hs : c.bit (pgDma ch) 0x100 1 = false)
include hb hs

theorem Chip.passEnd_load (hm : c.bit (pgDma ch) 0x100 2 = true) (hc : c.dmaCheck (c.dmaDesc ch 0x080) = 0) :
    c.passEnd ch = (c.shadowLoad ch).dmaBegin ch := by
  simp [Chip.passEnd, ha, ht, hb, hs, hm, hc]
theorem Chip.passEnd_fails (hm : c.bit (pgDma ch) 0x100 2 = true) (hc : c.dmaCheck (c.dmaDesc ch 0x080) ≠ 0) :
    c.passEnd ch = c.dmaFail ch (c.dmaCheck (c.dmaDesc ch 0x080)) dmaError ((c.dmaDesc ch 0x080).misField.getD 0) := by
  simp [Chip.passEnd, ha, ht, hb, hs, hm, hc]
theorem Chip.passEnd_again (hm : c.bit (pgDma ch) 0x100 2 = false) (hc : (c.dmaDesc ch 0).circular = true) : c.passEnd ch = c.dmaBegin ch := by
  simp [Chip.passEnd, ha, ht, hb, hs, hm, hc]
theorem Chip.passEnd_ends (hm : c.bit (pgDma ch) 0x100 2 = false) (hc : (c.dmaDesc ch 0).circular = false) : c.passEnd ch = c.dmaToIdle ch := by
  simp [Chip.passEnd, ha, ht, hb, hs, hm, hc]

end

/-- Settles O44, by the branches of START, STOP, a pass's end and a bus error. -/
theorem dmaChannels : Obligations.DmaChannels := by
  unfold Obligations.DmaChannels
  intro req ch s c p only code next
  refine ⟨fun hg => ⟨fun hh hs => ?started, fun hh hs hc => ?begins, fun hh hs hc => ?fails, fun hh => ?halted, fun ha => ?stop, fun ha => ?nostop,
    ?arm⟩, fun h => ?none, fun ha ht => ⟨fun hb => ?reset, fun hb hs => ?stopped, fun hb hs => ⟨fun hm hc => ?load, fun hm hc => ?bad,
    fun hm hc => ?again, fun hm hc => ?ends⟩⟩, fun va write prefetch => ?bus⟩
  case started => exact exec_onChip_congr (exec_dmaStart hg) (Chip.dmaStart_started hh hs)
  case begins =>
    refine Answers.of_onChip (exec_onChip_congr (g := fun c => (c.setBit (pgDma ch) 0x100 0 true).dmaBegin ch) (exec_dmaStart hg)
      (Chip.dmaStart_begins hh hs hc)) fun t hk _ hr => ?_
    have hw := Chip.WordsBut.trans (.setBit s.chip 0 true (mem_dmaShown_start ch)) (Chip.dmaBegin_words _ ch)
    exact ⟨⟨hk, fun a ha => (Chip.wordAt_of_regs hr a).trans (hw.word a ha)⟩, (Chip.dmaState_of_regs hr ch).trans (Chip.dmaBegin_state _ _),
      (Chip.rd_of_regs hr _ _).trans (Chip.dmaBegin_done _ _),
      (Chip.bit_of_regs hr _ _ _).trans ((Chip.dmaBegin_bit _ _ _ (by decide) (by decide) (by decide)).trans (Chip.bit_setBit_same _ _ _ _ _ (by decide))),
      (Chip.fld_of_regs hr _ _ _ _).trans (Chip.dmaBegin_err _ _), (Chip.bit_of_regs hr _ _ _).trans (Chip.dmaBegin_running _ _ (by omega))⟩
  case fails =>
    refine Answers.of_onChip (exec_dmaStart hg) fun t hk _ hr => ?_
    rw [Chip.dmaStart_fails hh hs hc] at hr
    have h := s.chip.dmaFail_spec ch ((s.chip.dmaDesc ch 0).misField.getD 0) (Chip.dmaCheck_lt s.chip (s.chip.dmaDesc ch 0)) (show dmaIdle < 8 by decide)
    exact ⟨hk, (Chip.dmaState_of_regs hr ch).trans h.state, (Chip.bit_of_regs hr _ _ _).trans h.start, (Chip.fld_of_regs hr _ _ _ _).trans h.err,
      (Chip.bit_of_regs hr _ _ _).trans h.cause⟩
  case halted =>
    refine Answers.of_onChip (exec_dmaStart hg) fun t hk _ hr => ?_
    rw [Chip.dmaStart_halted hh] at hr
    have h := s.chip.dmaFail_spec ch 0 (show 1 < 256 by decide) (show dmaIdle < 8 by decide)
    have hb : (s.chip.dmaFail ch 0x01 dmaIdle 0).resetBusy (pgDma ch) = false :=
      (Chip.bit_of_word (h.word _ (not_dmaFailed ch (by decide) (by decide))) _).trans (Chip.resetBusy_of_pass hg (by decide) (by decide) (pgDma_notVrg ch))
    have hi := Chip.dmaToIdle_still _ ch hb
    have hl {off : Nat} (ho : off ∉ [0x014, 0x020, 0x024]) (hp : off < 0x1000) := dma_not_logged ch ho hp
    exact ⟨hk, (Chip.dmaState_of_regs hr ch).trans ((Chip.fld_logUse _ _ _ _ _ _ _ _ _ (hl (by decide) (by decide))).trans hi.state),
      (Chip.bit_of_regs hr _ _ _).trans ((Chip.bit_logUse _ _ _ _ _ _ _ _ (hl (by decide) (by decide))).trans hi.start),
      (Chip.fld_of_regs hr _ _ _ _).trans ((Chip.fld_logUse _ _ _ _ _ _ _ _ _ (hl (by decide) (by decide))).trans (hi.err.trans h.err))⟩
  case stop =>
    refine Answers.of_onChip (exec_onChip_congr (g := fun c => (c.setBit (pgDma ch) 0x100 1 true).setDmaState ch dmaStopping) (exec_dmaStop hg)
      (if_pos ha)) fun t hk _ hr => ?_
    have hw := Chip.WordsBut.trans (.setBit s.chip 1 true (mem_dmaShown_start ch)) (Chip.setDmaState_words _ ch dmaStopping)
    exact ⟨⟨hk, fun a ha => (Chip.wordAt_of_regs hr a).trans (hw.word a ha)⟩, (Chip.dmaState_of_regs hr ch).trans (Chip.setDmaState_state _ _ (by decide)),
      (Chip.bit_of_regs hr _ _ _).trans ((Chip.setDmaState_bit _ _ _ _ (by decide) (by decide)).trans (Chip.bit_setBit_same _ _ _ _ _ (by decide))),
      (Chip.rd_of_regs hr _ _).trans ((Chip.setDmaState_rd _ _ _ (by decide) (by decide)).trans
        (Chip.rd_setBit_ne _ _ _ _ _ _ _ (regAddr_off_ne _ _ _ (by decide))))⟩
  case nostop => exact exec_onChip_congr (exec_dmaStop hg) (if_neg (by rw [show s.chip.dmaActive ch = false from ha]; exact Bool.false_ne_true))
  case arm => exact exec_onChip_congr (exec_shadowArm hg) (if_congr decide_eq_true_iff rfl rfl)
  case none => exact exec_onChip_congr exec_passEnd_eq (Chip.passEnd_none h)
  case reset =>
    refine Answers.of_onChip exec_passEnd_eq fun t hk _ hr => ?_
    rw [Chip.passEnd_idle ha ht (.inl hb), Chip.dmaToIdle_reset hb] at hr
    obtain ⟨hst, hdone, hcmd, herr, hbusy⟩ := s.chip.dmaLateReset_spec ch
    exact ⟨hk, (Chip.dmaState_of_regs hr ch).trans hst, (Chip.rd_of_regs hr _ _).trans hdone, (Chip.fld_of_regs hr _ _ _ _).trans hcmd,
      (Chip.fld_of_regs hr _ _ _ _).trans herr, (Chip.bit_of_regs hr _ _ _).trans hbusy⟩
  case stopped => exact exec_onChip_congr exec_passEnd_eq ((Chip.passEnd_idle ha ht (.inr hs)).trans (Chip.dmaToIdle_stopped hb hs))
  case load =>
    refine Answers.of_onChip exec_passEnd_eq fun t hk _ hr => ?_
    rw [Chip.passEnd_load ha ht hb hs hm hc] at hr
    exact ⟨hk, (Chip.dmaState_of_regs hr ch).trans (Chip.dmaBegin_state _ _), (Chip.rd_of_regs hr _ _).trans (Chip.dmaBegin_done _ _),
      (Chip.bit_of_regs hr _ _ _).trans ((Chip.dmaBegin_bit _ _ _ (by decide) (by decide) (by decide)).trans (Chip.shadowLoad_armed _ _)),
      fun k => (Chip.rd_of_regs hr _ _).trans ((Chip.dmaBegin_rd _ _ (by omega) (by omega) (by omega)).trans (Chip.shadowLoad_set _ _ k.isLt))⟩
  case bad =>
    refine Answers.of_onChip exec_passEnd_eq fun t hk _ hr => ?_
    rw [Chip.passEnd_fails ha ht hb hs hm hc] at hr
    have h := s.chip.dmaFail_spec ch ((s.chip.dmaDesc ch 0x080).misField.getD 0) (Chip.dmaCheck_lt s.chip (s.chip.dmaDesc ch 0x080)) (show dmaError < 8 by decide)
    refine ⟨hk, (Chip.dmaState_of_regs hr ch).trans h.state, (Chip.bit_of_regs hr _ _ _).trans h.start, (Chip.fld_of_regs hr _ _ _ _).trans h.err, ?_⟩
    rw [Chip.rd_eq_wordAt, Chip.rd_eq_wordAt]
    exact (Chip.wordAt_of_regs hr _).trans (h.word _ (not_dmaFailed ch (by decide) (by decide)))
  case again =>
    refine Answers.of_onChip exec_passEnd_eq fun t hk _ hr => ?_
    rw [Chip.passEnd_again ha ht hb hs hm hc] at hr
    exact ⟨⟨hk, fun a ha => (Chip.wordAt_of_regs hr a).trans ((Chip.dmaBegin_words _ ch).word a ha)⟩,
      (Chip.dmaState_of_regs hr ch).trans (Chip.dmaBegin_state _ _), (Chip.rd_of_regs hr _ _).trans (Chip.dmaBegin_done _ _)⟩
  case ends =>
    refine Answers.of_onChip exec_passEnd_eq fun t hk _ hr => ?_
    rw [Chip.passEnd_ends ha ht hb hs hm hc, Chip.dmaToIdle_ended hb hs] at hr
    have h := s.chip.dmaIdled_still ch
    refine ⟨⟨hk, fun a ha => (Chip.wordAt_of_regs hr a).trans ((Chip.dmaIdled_words _ ch).word a ha)⟩, (Chip.dmaState_of_regs hr ch).trans h.state,
      (Chip.bit_of_regs hr _ _ _).trans h.start, (Chip.rd_of_regs hr _ _).trans ?_⟩
    rw [Chip.setDmaState_rd _ _ _ (by decide) (by decide)]
    exact Chip.rd_setFld_ne _ _ _ _ _ _ _ _ (regAddr_off_ne _ _ _ (by decide))
  case bus =>
    intro ahead ctx
    refine ⟨fun hh why hy => ?_, fun hh why n hn => ?_, fun code => (exec_dmaBusError_rood va write prefetch code).trans (congrArg _ (s.onChip_congr _ _ rfl))⟩
    · rcases List.mem_pair.mp hy with rfl | rfl
      · exact exec_onChip_congr (exec_dmaBusError_cpl va write prefetch) (Chip.dmaBusErr_later _ _ hh)
      · exact exec_onChip_congr (exec_dmaBusError_poison va write prefetch) (Chip.dmaBusErr_later _ _ hh)
    · have hexec : exec (.dmaBusError ch va write prefetch why) s = .next (s.onChip fun c =>
          c.dmaBusErr ch va.toNat (c.dmaErrCtx ch va.toNat (prefetch && !write)) write (prefetch && !write) n 0) := by
        exact exec_dmaBusError_plain va write prefetch _ hn
      have hn : n < 256 := (by decide : ∀ x ∈ [(BusErr.hostCpl, 2), (.poisonRefused, 3)], x.2 < 256) _ hn
      refine Answers.of_onChip hexec fun t hk _ hr => ?_
      have hctx := s.chip.dmaErrCtx_lt ch va.toNat (prefetch && !write)
      have hword {off : Nat} (ho : off ∉ [0x014, 0x020, 0x024, 0x054]) (hp : off < 0x1000) := s.chip.busErr_word ch _ _ _ _ _ hr hh ho hp
      exact ⟨hk, (Chip.bit_of_word (hword (by decide) (by decide)) _).trans (Chip.dmaErrPage_halt _ _ _ _ _ _ _),
        (Chip.rd64_of_word (hword (by decide) (by decide)) (hword (by decide) (by decide))).trans (Chip.dmaErrPage_va _ _ _ _ _ _ _ va.isLt),
        (Chip.fld_of_word (hword (by decide) (by decide)) _ _).trans ((Chip.dmaErrPage_fld _ _ _ _ _ _ _ _ (by decide)).trans (dmaErrInfo_cause _ _ hn)),
        (Chip.fld_of_word (hword (by decide) (by decide)) _ _).trans ((Chip.dmaErrPage_fld _ _ _ _ _ _ _ _ (by decide)).trans (dmaErrInfo_ctx _ _ hn)),
        (Chip.fld_of_word (hword (by decide) (by decide)) _ _).trans
          ((Chip.dmaErrPage_fld _ _ _ _ _ _ _ _ (by decide)).trans (dmaErrInfo_channel _ _ ch.isLt hctx hn)),
        (Chip.bit_of_word (hword (by decide) (by decide)) _).trans (Chip.dmaErrPage_bit _ _ _ _ _ _ _ (by decide) (dmaErrInfo_write _ _ ch.isLt hctx hn)),
        (Chip.bit_of_word (hword (by decide) (by decide)) _).trans
          (Chip.dmaErrPage_bit _ _ _ _ _ _ _ (by decide) (dmaErrInfo_prefetch _ _ ch.isLt hctx hn)),
        (hword (by decide) (by decide)).trans (Chip.dmaErrPage_count _ _ _ _ _ _ _),
        fun k => (Chip.dmaState_of_regs hr k).trans (s.chip.dmaBusErr_state ch _ _ _ _ _ hh k.isLt)⟩

end

end Sys2Proof.Machine
end


section
/-! DMA bursts (chapter 14): both sides' translations, and the elements that one burst moves. -/

namespace Sys2Proof.Machine

theorem WM.unit_apply (m : WM Unit) (w : Work) : m w = ((), (m w).2.onChip id) := rfl

/-- The state after a command that goes on as another computation over some work. -/
theorem State.after_computes (s : State) {m m' : WM Unit} {x : Work} (h : m s.work = m' x) : s.after (s.onWork fun w => (m w).2) (m' x).2 id :=
  s.after_onWork m (h.trans (WM.unit_apply m' x))

theorem exec_dmaBurst (ch : Fin 16) (s : State) : exec (.dmaBurst ch) s = s.onMem (dmaBurst ch) := rfl

theorem dmaTranslate_ok {ch ctx va pa : Nat} {write : Bool} {w v : Work} (h : translate ctx (if write then 1 else 0) va w = (.ok pa, v)) :
    dmaTranslate ch ctx write va w = (some pa, v) := WM.bind_of_eq h rfl

theorem dmaTranslate_fault {ch ctx va e : Nat} {write : Bool} {w v : Work} (h : translate ctx (if write then 1 else 0) va w = (.error e, v)) :
    dmaTranslate ch ctx write va w = (none, v.onChip fun c =>
      (c.roodFault ctx (if write then 1 else 0) va e (0x40 + ch)).dmaBusErr ch va ctx write (!write) 1 e) := WM.bind_of_eq h rfl

/-- A channel has a burst to move. -/
def Chip.dmaMoves (c : Chip) (ch : Nat) : Bool :=
  c.dmaActive ch && decide ((c.rd (pgDma ch) 0x104).toNat < (c.dmaDesc ch 0).total) && !c.tripped && c.pstate != 2

theorem dmaBurst_idle {ch : Nat} {w : Work} (h : w.chip.dmaMoves ch = false) : dmaBurst ch w = ((), w) :=
  WM.bind_of_eq rfl (WM.if_neg (show ¬w.chip.dmaMoves ch = true by rw [h]; exact Bool.false_ne_true) rfl)

section
variable {c : Chip} {ch : Nat} {w : Work} (hc : w.chip = c) (h : c.dmaMoves ch = true)

/-- The element that a channel comes to, and its address on a side. -/
def Chip.dmaNext (c : Chip) (ch : Nat) : Nat := (c.rd (pgDma ch) 0x104).toNat / (c.dmaDesc ch 0).esize
def Chip.dmaSrcVa (c : Chip) (ch : Nat) : Nat := (c.dmaDesc ch 0).addr (c.dmaDesc ch 0).src (c.dmaDesc ch 0).ss (c.dmaNext ch)
def Chip.dmaDstVa (c : Chip) (ch : Nat) : Nat := (c.dmaDesc ch 0).addr (c.dmaDesc ch 0).dst (c.dmaDesc ch 0).ds (c.dmaNext ch)
def Chip.dmaFirstReader (c : Chip) (ch : Nat) : Nat := (c.dmaPrefetch ch).dmaReader ch (c.dmaDesc ch 0).ctx (c.dmaSrcVa ch)

include hc h

theorem dmaBurst_source_faults {e : Nat} {v : Work}
    (ht : translate (c.dmaDesc ch 0).ctx 0 (c.dmaSrcVa ch) { w with chip := c.dmaPrefetch ch } = (.error e, v)) :
    dmaBurst ch w = ((), v.onChip fun x => (x.roodFault (c.dmaDesc ch 0).ctx 0 (c.dmaSrcVa ch) e (0x40 + c.dmaFirstReader ch)).dmaBusErr
      (c.dmaFirstReader ch) (c.dmaSrcVa ch) (c.dmaDesc ch 0).ctx false true 1 e) := by
  subst hc
  exact WM.bind_of_eq rfl (WM.if_pos h (WM.bind_of_eq rfl (WM.bind_of_eq rfl (WM.bind_of_eq (dmaTranslate_fault (write := false) ht) rfl))))

section
variable {spa : Nat} {v : Work} (hs : translate (c.dmaDesc ch 0).ctx 0 (c.dmaSrcVa ch) { w with chip := c.dmaPrefetch ch } = (.ok spa, v))
include hs

theorem dmaBurst_destination_faults {e : Nat} {x : Work} (ht : translate (c.dmaDesc ch 0).ctx 1 (c.dmaDstVa ch) v = (.error e, x)) :
    dmaBurst ch w = ((), x.onChip fun y => (y.roodFault (c.dmaDesc ch 0).ctx 1 (c.dmaDstVa ch) e (0x40 + ch)).dmaBusErr
      ch (c.dmaDstVa ch) (c.dmaDesc ch 0).ctx true false 1 e) := by
  subst hc
  exact WM.bind_of_eq rfl (WM.if_pos h (WM.bind_of_eq rfl (WM.bind_of_eq rfl (WM.bind_of_eq (dmaTranslate_ok (write := false) hs)
    (WM.bind_of_eq (dmaTranslate_fault (write := true) ht) rfl)))))

theorem dmaBurst_moves {dpa : Nat} {x : Work} (ht : translate (c.dmaDesc ch 0).ctx 1 (c.dmaDstVa ch) v = (.ok dpa, x)) :
    dmaBurst ch w = dmaMove ch (c.dmaDesc ch 0) ((c.dmaDesc ch 0).burst (c.dmaNext ch)) spa dpa (c.dmaSrcVa ch) (c.dmaDstVa ch) x := by
  subst hc
  exact WM.bind_of_eq rfl (WM.if_pos h (WM.bind_of_eq rfl (WM.bind_of_eq rfl (WM.bind_of_eq (dmaTranslate_ok (write := false) hs)
    (WM.bind_of_eq (dmaTranslate_ok (write := true) ht) rfl)))))

end

end

/-! The elements of a burst. -/

namespace DmaDesc
variable (d : DmaDesc) (k : Nat)

theorem mem_burst {i : Nat} (h : i ∈ d.burst k) : (k ≤ i ∧ i < d.elems) ∧ d.addr d.src d.ss i / 4096 = d.addr d.src d.ss k / 4096 ∧
    d.addr d.dst d.ds i / 4096 = d.addr d.dst d.ds k / 4096 := by
  unfold burst at h
  have hp := List.mem_takeWhile_imp h
  obtain ⟨j, hj, rfl⟩ := List.mem_map.mp ((List.takeWhile_sublist _).subset h)
  have := List.mem_range.mp hj
  simp only [Bool.and_eq_true, beq_iff_eq] at hp
  exact ⟨⟨by lia, by omega⟩, hp⟩

theorem burst_length : (d.burst k).length ≤ 256 / d.esize := by
  unfold burst
  refine (List.takeWhile_sublist _).length_le.trans ?_
  rw [List.length_map, List.length_range]
  exact Nat.min_le_left _ _

theorem self_mem_burst (he : 0 < d.esize) (hs : d.esize ≤ 8) (hk : k < d.elems) : k ∈ d.burst k := by
  have h8 : 32 ≤ 256 / d.esize := (Nat.le_div_iff_mul_le he).mpr (by lia)
  obtain ⟨n, hn⟩ : ∃ n, min (256 / d.esize) (d.elems - k) = n + 1 := ⟨min (256 / d.esize) (d.elems - k) - 1, by lia⟩
  unfold burst
  dsimp only
  rw [hn, List.range_succ_eq_map, List.map_cons, List.takeWhile_cons, if_pos (by simp)]
  exact List.mem_cons_self ..

end DmaDesc

/-- Settles O45: a burst is its two translations, and what they let it move. -/
theorem dmaBursts : Obligations.DmaBursts := by
  unfold Obligations.DmaBursts
  refine ⟨fun ch s => ?_, fun d k he hs hk => ⟨?_, d.self_mem_burst k he hs hk, fun i hi => (d.mem_burst k hi).1, fun i hi => (d.mem_burst k hi).2⟩⟩
  · intro c d done k sva dva first reader
    have hc : c = s.chip := rfl
    have hd : d = s.chip.dmaDesc ch 0 := rfl
    have hdone : done = (s.chip.rd (pgDma ch) 0x104).toNat := rfl
    have hk : k = s.chip.dmaNext ch := rfl
    have hsva : sva = s.chip.dmaSrcVa ch := rfl
    have hdva : dva = s.chip.dmaDstVa ch := rfl
    have hfirst : first = { s.work with chip := s.chip.dmaPrefetch ch } := rfl
    have hreader : reader = s.chip.dmaFirstReader ch := rfl
    clear_value reader first dva sva k done d c
    subst hreader hfirst hdva hsva hk hdone hd hc
    refine ⟨fun h => ?_, fun ha hd ht hp => ?_⟩
    · refine s.onMem_of_eq (f := id) (dmaBurst_idle ?_)
      show s.chip.dmaMoves ch = false
      have h' : s.chip.dmaActive ch = false ∨ (s.chip.dmaDesc ch 0).total ≤ (s.chip.rd (pgDma ch) 0x104).toNat ∨ s.chip.tripped = true ∨ s.chip.pstate = 2 := h
      unfold Chip.dmaMoves
      simp only [Bool.and_eq_false_iff, decide_eq_false_iff_not, not_lt, Bool.not_eq_false', bne_eq_false_iff_eq]
      tauto
    · have h : s.chip.dmaMoves ch = true := by
        unfold Chip.dmaMoves
        simp only [Bool.and_eq_true, decide_eq_true_eq, Bool.not_eq_true', bne_iff_ne]
        exact ⟨⟨⟨ha, hd⟩, ht⟩, hp⟩
      have hexec := (exec_dmaBurst ch s).trans (s.onMem_eq _)
      refine ⟨fun e w hw => ⟨_, hexec, ?source⟩, fun spa w1 hs => ⟨fun e w hw => ⟨_, hexec, ?dest⟩, fun dpa w hw => ⟨_, hexec, ?moves⟩⟩⟩
      case source => exact s.after_onWork (dmaBurst ch) (dmaBurst_source_faults (c := s.chip) rfl h hw)
      case dest => exact s.after_onWork (dmaBurst ch) (dmaBurst_destination_faults (c := s.chip) rfl h hs hw)
      case moves => exact s.after_computes (dmaBurst_moves (c := s.chip) rfl h hs hw)
  · exact (Nat.mul_le_mul_right _ (d.burst_length k)).trans (Nat.div_mul_le_self _ _)

end Sys2Proof.Machine
end


section
/-! Link ports (chapter 15). What sending flits changes: the queues, replay buffers and credits of the ports that send, the moments at
which transfers were sent, and nothing else; and what the chapter's messages change beside them. -/

namespace Sys2Proof.Machine

/-! A port's state. -/

/-- A port replaced changes its entry and its REPLAY_LEVEL. -/
theorem Chip.setLport_rest (c : Chip) (p : Nat) (x : LinkPort) :
    c.setLport p x = { c with link := { c.link with ports := aput c.link.ports p x }, regs := (c.setLport p x).regs } := by
  unfold Chip.setLport
  dsimp only
  split <;> rfl

theorem Chip.setLport_ports (c : Chip) (p : Nat) (x : LinkPort) : (c.setLport p x).link.ports = aput c.link.ports p x := by rw [c.setLport_rest]

theorem Chip.lport_setLport_same (c : Chip) (p : Nat) (x : LinkPort) : (c.setLport p x).lport p = x := by
  rw [Chip.lport, c.setLport_ports, aget_aput_same]
  rfl

theorem Chip.lport_setLport_ne (c : Chip) {p q : Nat} (x : LinkPort) (h : p ≠ q) : (c.setLport p x).lport q = c.lport q := by
  rw [Chip.lport, c.setLport_ports, aget_aput_ne _ _ _ _ h, Chip.lport]

theorem Chip.lport_of_ports {c d : Chip} (h : d.link.ports = c.link.ports) (q : Nat) : d.lport q = c.lport q := by
  rw [Chip.lport, Chip.lport, h]

theorem Chip.setLport_word (c : Chip) {p : Nat} (x : LinkPort) {a : Nat} (h : p < 4 → a ≠ regAddr (pgRlk p) 0x07C) :
    (c.setLport p x).wordAt a = c.wordAt a := by
  unfold Chip.setLport
  dsimp only
  split
  · exact Chip.wordAt_of_regs rfl a
  · next hn => exact (Chip.wordAt_wr_ne _ _ (h (Nat.not_le.mp (not_or.mp hn).1))).trans (Chip.wordAt_of_regs rfl a)

/-! Registers that sending changes. -/

/-- The credits and REPLAY_LEVEL of the four ports. -/
def portReg (a : Nat) : Prop := ∃ q < 4, a = regAddr (pgRlk q) 0x07C ∨ ∃ v < 5, a = regAddr (pgRlk q) (0x068 + 4 * v)

/-- The same with what the chapter's page shows of its map, its fences and its transfers. -/
def chapterReg (a : Nat) : Prop := portReg a ∨ ∃ off ∈ [0x014, 0x04C, 0x050, 0x054, 0x05C, 0x064], a = regAddr 0x0B4 off

theorem regAddr_digits {p off q o : Nat} (h : off < 0x1000) (ho : o < 0x1000) (e : regAddr p off = regAddr q o) : p = q ∧ off = o := digit_inj h ho e

theorem pgRlk_lt {q : Nat} (h : q < 4) : pgRlk q < 0x0B4 := Nat.add_lt_add_left h 0x0B0

theorem portReg_off {a : Nat} (h : portReg a) : ∃ q < 4, ∃ o, (0x068 ≤ o ∧ o ≤ 0x07C) ∧ a = regAddr (pgRlk q) o := by
  obtain ⟨q, hq, he | ⟨v, hv, he⟩⟩ := h
  · exact ⟨q, hq, 0x07C, by decide, he⟩
  · exact ⟨q, hq, _, (by decide : ∀ v < 5, 0x068 ≤ 0x068 + 4 * v ∧ 0x068 + 4 * v ≤ 0x07C) v hv, he⟩

/-- A register of a port's page that no sending changes. -/
theorem not_chapterReg_of_off {p off : Nat} (hp : p ≠ 4) (ho : off < 0x1000) (h : off < 0x068 ∨ 0x07C < off) : ¬chapterReg (regAddr (pgRlk p) off) := by
  rintro (hport | ⟨o, hmem, he⟩)
  · obtain ⟨q, -, o, ⟨hlo, hhi⟩, he⟩ := portReg_off hport
    obtain ⟨-, rfl⟩ := regAddr_digits ho (hhi.trans_lt (by decide)) he
    exact h.elim (Nat.not_lt.mpr hlo) (Nat.not_lt.mpr hhi)
  · have hpage := (regAddr_digits ho ((by decide : ∀ o ∈ [0x014, 0x04C, 0x050, 0x054, 0x05C, 0x064], o < 0x1000) o hmem) he).1
    exact hp (Nat.add_left_cancel hpage)

theorem not_chapterReg_port {p off : Nat} (hp : p < 4) (ho : off < 0x1000) (h : off < 0x068 ∨ 0x07C < off) : ¬chapterReg (regAddr (pgRlk p) off) :=
  not_chapterReg_of_off (Nat.ne_of_lt hp) ho h

/-- PORT_STATE, of every number. -/
theorem not_chapterReg_state (q : Nat) : ¬chapterReg (regAddr (pgRlk q) 0x044) := by
  rintro (hport | ⟨o, hmem, he⟩)
  · obtain ⟨k, -, o, ⟨hlo, hhi⟩, he⟩ := portReg_off hport
    exact absurd ((regAddr_digits (by decide) (hhi.trans_lt (by decide)) he).2 ▸ hlo) (by decide)
  · obtain ⟨hne, hlt⟩ := (by decide : ∀ o ∈ [0x014, 0x04C, 0x050, 0x054, 0x05C, 0x064], 0x044 ≠ o ∧ o < 0x1000) o hmem
    exact hne (regAddr_digits (by decide) hlt he).2

/-! What is told to the chapter: flits sent on ports that are UP, and the map. -/

/-- From one chip to the next, only registers of the chapter, and of ports that are not UP only the entries freed, differ. -/
structure Chip.Told (c d : Chip) : Prop where
  time : d.time = c.time
  vrg : d.vrg = c.vrg
  word : ∀ a, ¬chapterReg a → d.wordAt a = c.wordAt a
  port : ∀ q, c.portState q ≠ lpUp → ∃ f, d.lport q = { c.lport q with freed := f }

namespace Chip.Told
variable {c d e : Chip}

theorem state (h : c.Told d) (q : Nat) : d.portState q = c.portState q := Chip.fld_of_word (h.word _ (not_chapterReg_state q)) _ _

theorem refl (c : Chip) : c.Told c := ⟨rfl, rfl, fun _ _ => rfl, fun q _ => ⟨(c.lport q).freed, rfl⟩⟩

theorem trans (h : c.Told d) (k : d.Told e) : c.Told e := by
  refine ⟨k.time.trans h.time, k.vrg.trans h.vrg, fun a ha => (k.word a ha).trans (h.word a ha), fun q hq => ?_⟩
  obtain ⟨f, hf⟩ := h.port q hq
  obtain ⟨g, hg⟩ := k.port q (by rw [h.state]; exact hq)
  exact ⟨g, by rw [hg, hf]⟩

/-- A change that is in no register, port or time. -/
theorem of_same (hr : d.regs = c.regs) (ht : d.time = c.time) (hv : d.vrg = c.vrg) (hp : d.link.ports = c.link.ports) : c.Told d :=
  ⟨ht, hv, fun a _ => Chip.wordAt_of_regs hr a, fun q _ => ⟨(c.lport q).freed, Chip.lport_of_ports hp q⟩⟩

theorem wr (c : Chip) {p off : Nat} (v : Word) (h : chapterReg (regAddr p off)) : c.Told (c.wr p off v) :=
  ⟨rfl, rfl, fun _ ha => c.wordAt_wr_ne _ fun e => ha (e ▸ h), fun q _ => ⟨(c.lport q).freed, rfl⟩⟩

theorem wrChapter (c : Chip) {off : Nat} (v : Word) (h : off ∈ [0x014, 0x04C, 0x050, 0x054, 0x05C, 0x064]) : c.Told (c.wr 0x0B4 off v) :=
  wr c v (.inr ⟨off, h, rfl⟩)

theorem xfers (c : Chip) (l : List (Nat × Xfer)) : c.Told { c with link := { c.link with xfers := l } } := of_same rfl rfl rfl rfl
theorem unreach (c : Chip) (l : List (Nat × Nat)) : c.Told { c with link := { c.link with unreach := l } } := of_same rfl rfl rfl rfl

theorem countChapter (c : Chip) : c.Told (c.count 0x0B4 0x064) := wrChapter c _ (by decide)
theorem raiseChapter (c : Chip) (b : Nat) : c.Told (c.raise 0x0B4 b) := wrChapter c _ (by decide)
theorem setFldChapter (c : Chip) {off : Nat} (lo w x : Nat) (h : off ∈ [0x014, 0x04C, 0x050, 0x054, 0x05C, 0x064]) :
    c.Told (c.setFld 0x0B4 off lo w x) := wrChapter c _ h

theorem setLport (c : Chip) {p : Nat} (x : LinkPort) (h : c.portState p = lpUp ∨ ∃ f, x = { c.lport p with freed := f }) : c.Told (c.setLport p x) := by
  refine ⟨by rw [c.setLport_rest], by rw [c.setLport_rest], fun a ha => c.setLport_word x fun hp e => ha (.inl ⟨p, hp, .inl e⟩), fun q hq => ?_⟩
  by_cases hpq : p = q
  · subst hpq
    obtain ⟨f, rfl⟩ := h.resolve_left hq
    exact ⟨f, c.lport_setLport_same _ _⟩
  · exact ⟨(c.lport q).freed, c.lport_setLport_ne _ hpq⟩

theorem setCredits (c : Chip) {p : Nat} (v n : Nat) (hp : p < 4) : c.Told (c.setCredits p v n) := by
  unfold Chip.setCredits
  split
  · next hv => exact wr c _ (.inl ⟨p, hp, .inr ⟨v, hv, rfl⟩⟩)
  · exact refl c

theorem markSent (c : Chip) (f : TxFlit) : c.Told (c.markSent f) := by
  unfold Chip.markSent
  split
  · exact refl c
  · split
    · exact of_same rfl rfl rfl rfl
    · exact refl c

theorem freeEntry (c : Chip) (p vc : Nat) : c.Told (c.freeEntry p vc) := setLport c _ (.inr ⟨_, rfl⟩)

theorem foldl {α : Type} (f : Chip → α → Chip) (h : ∀ d a, Chip.Told d (f d a)) (as : List α) (c : Chip) : c.Told (as.foldl f c) :=
  List.foldlRecOn as f (motive := c.Told) (refl c) fun d hd a _ => hd.trans (h d a)

theorem freeEntries (c : Chip) (fs : List TxFlit) : c.Told (c.freeEntries fs) := foldl (fun (c : Chip) (e : Nat × Nat) => c.freeEntry e.1 e.2) (fun d e => freeEntry d e.1 e.2) _ c

theorem drainPort (c : Chip) {p : Nat} (hp : p < 4) : c.Told (c.drainPort p) := by
  unfold Chip.drainPort
  split
  · exact refl c
  · next hup =>
    have hup := not_not.mp hup
    have hgo := foldl (fun (c : Chip) f => (c.setCredits p f.vc (c.credits p f.vc - 1)).markSent f)
      (fun d f => (setCredits d f.vc _ hp).trans (markSent _ f)) (c.sendable? p).1 c
    exact (hgo.trans (setLport _ _ (.inl (by rw [hgo.state]; exact hup)))).trans (freeEntries _ _)

theorem sendOn (c : Chip) {p : Nat} (vc : Nat) (b : FlitBody) (hp : p < 4) (hup : c.portState p = lpUp) : c.Told (c.sendOn p vc b) :=
  (setLport c _ (.inl hup)).trans (drainPort _ hp)

theorem sendEach (vc : Nat) (b : Chip → Nat → FlitBody) : ∀ (ps : List Nat) (c : Chip), (∀ p ∈ ps, p < 4 ∧ c.portState p = lpUp) →
    c.Told (ps.foldl (fun c p => c.sendOn p vc (b c p)) c) := by
  intro ps
  induction ps with
  | nil => exact fun c _ => refl c
  | cons p ps ih =>
    intro c h
    obtain ⟨hp, hup⟩ := h p (List.mem_cons_self ..)
    have hsend := sendOn c vc (b c p) hp hup
    exact hsend.trans (ih _ fun q hq => ⟨(h q (List.mem_cons_of_mem _ hq)).1, by rw [hsend.state]; exact (h q (List.mem_cons_of_mem _ hq)).2⟩)

theorem sendMgmt (c : Chip) (except : Option Nat) (b : Nat → FlitBody) : c.Told (c.sendMgmt except b) :=
  sendEach 4 (fun _ => b) _ c fun p hp => by
    have := List.mem_filter.mp (List.mem_filter.mp hp).1
    exact ⟨List.mem_range.mp this.1, beq_iff_eq.mp this.2⟩

theorem sendEnums (c : Chip) {ps : List Nat} (h : ∀ p ∈ ps, p < 4) : c.Told (c.sendEnums ps) := by
  unfold Chip.sendEnums
  split
  · exact refl c
  · exact sendEach 4 Chip.enumFor _ c fun p hp => ⟨h p (List.mem_filter.mp hp).1, beq_iff_eq.mp (List.mem_filter.mp hp).2⟩

/-! The map. -/

theorem setRunning (c : Chip) (q : Nat) (r : Option Running) : c.Told (c.setRunning q r) := of_same rfl rfl rfl rfl

theorem endRunning (c : Chip) (q code : Nat) : c.Told (c.endRunning q code) := by
  unfold Chip.endRunning
  split
  · exact refl c
  · exact (setRunning c q none).trans (setRunning _ _ _)

theorem endXfers (c : Chip) (gone : Nat → Bool) : c.Told (c.endXfers gone) := by
  have hstep : ∀ (d : Chip) (l : List (Nat × Xfer)) (q : Nat),
      d.Told ((Chip.endRunning { d with link := { d.link with xfers := l } } q 0x29).count 0x0B4 0x064) := fun d l q =>
    ((xfers d l).trans (endRunning _ q 0x29)).trans (countChapter _)
  exact foldl _ (fun d q => hstep d _ q) _ c

theorem applyMap (c : Chip) (map epoch : Nat) : c.Told (c.applyMap map epoch) := by
  have hw : c.Told ((c.wr 0x0B4 0x050 (Machine.word map)).setFld 0x0B4 0x054 0 8 epoch) := (wrChapter c _ (by decide)).trans (setFldChapter _ _ _ _ (by decide))
  have hl : ∀ (d : Chip) (u : List (Nat × Nat)) (n : Nat), d.Told (Chip.setFld { d with link := { d.link with unreach := u } } 0x0B4 0x05C 4 4 n) :=
    fun d u n => (unreach d u).trans (setFldChapter _ _ _ _ (by decide))
  have hall := fun u n => hw.trans (hl _ u n)
  unfold Chip.applyMap
  dsimp only
  split
  · exact hall _ _
  · exact (((hall _ _).trans (setFldChapter _ _ _ _ (by decide))).trans (raiseChapter _ _)).trans (endXfers _ _)

theorem publishMap (c : Chip) (map : Nat) : c.Told (c.publishMap map) := by
  unfold Chip.publishMap
  split
  · exact refl c
  · exact (applyMap c _ _).trans (sendMgmt _ _ _)

theorem portChanged (c : Chip) (p : Nat) : c.Told (c.portChanged p) := by
  unfold Chip.portChanged
  split
  · exact publishMap c _
  · exact refl c

end Chip.Told

end Sys2Proof.Machine
end


section
/-! Flits sent by a port (chapter 15): which of the flits that wait go, and what their going leaves of the port's queue, replay buffer,
credits and registers. -/

namespace Sys2Proof.Machine

/-! Which flits go. -/

/-- The flits of a VC. -/
def vcCount (v : Nat) (fs : List TxFlit) : Nat := fs.countP fun f => f.vc == v

theorem vcCount_append (v : Nat) (fs gs : List TxFlit) : vcCount v (fs ++ gs) = vcCount v fs + vcCount v gs := List.countP_append

theorem vcCount_single (v : Nat) (f : TxFlit) : vcCount v [f] = if f.vc = v then 1 else 0 := by
  simp [vcCount, List.countP_cons]

/-- One flit of the queue goes, or waits. -/
def Chip.sendStep (c : Chip) (p : Nat) (a : List TxFlit × List TxFlit) (f : TxFlit) : List TxFlit × List TxFlit :=
  if c.credits p f.vc ≤ vcCount f.vc a.1 ∨ 256 ≤ (c.lport p).replay.length + a.1.length ∨ a.2.any (fun g => g.vc == f.vc) then (a.1, a.2 ++ [f])
  else (a.1 ++ [f], a.2)

theorem Chip.sendable?_eq (c : Chip) (p : Nat) : c.sendable? p = (c.lport p).txq.foldl (c.sendStep p) ([], []) := rfl

/-- Those that go hold a credit each, and find room. -/
structure Chip.MayGo (c : Chip) (p n : Nat) (a : List TxFlit × List TxFlit) : Prop where
  all : a.1.length + a.2.length = n
  credit : ∀ v, vcCount v a.1 ≤ c.credits p v
  room : a.1.length ≤ 256

theorem Chip.MayGo.step {c : Chip} {p n : Nat} {a : List TxFlit × List TxFlit} (h : c.MayGo p n a) (f : TxFlit) :
    c.MayGo p (n + 1) (c.sendStep p a f) := by
  have hall := h.all
  unfold Chip.sendStep
  split
  · exact ⟨by simp; lia, h.credit, h.room⟩
  · next hgo =>
    simp only [not_or, Nat.not_le] at hgo
    obtain ⟨hcredit, hroom, -⟩ := hgo
    refine ⟨by simp; lia, fun v => ?_, by simp; omega⟩
    rw [vcCount_append, vcCount_single]
    split
    · next hv => subst hv; lia
    · exact h.credit v

theorem Chip.sendable?_spec (c : Chip) (p : Nat) : c.MayGo p (c.lport p).txq.length (c.sendable? p) := by
  have hfold : ∀ (fs : List TxFlit) (n : Nat) (a : List TxFlit × List TxFlit), c.MayGo p n a → c.MayGo p (n + fs.length) (fs.foldl (c.sendStep p) a) :=
    fun fs => by
      induction fs with
      | nil => exact fun _ _ h => h
      | cons f fs ih =>
        intro n a h
        rw [List.length_cons, Nat.add_comm fs.length, ← Nat.add_assoc]
        exact ih _ _ (h.step f)
  rw [c.sendable?_eq]
  have := hfold (c.lport p).txq 0 ([], []) ⟨rfl, fun _ => Nat.zero_le _, Nat.zero_le _⟩
  rwa [Nat.zero_add] at this

/-! Credits. -/

theorem Chip.credits_of_regs {c d : Chip} (h : d.regs = c.regs) (p v : Nat) : d.credits p v = c.credits p v := by
  unfold Chip.credits
  split
  · exact Chip.fld_of_regs h _ _ _ _
  · rfl

theorem Chip.credits_lt (c : Chip) (p v : Nat) : c.credits p v < 256 := by
  unfold Chip.credits
  split
  · exact bits_lt _ 0 8
  · decide

theorem Chip.credits_of_words {c d : Chip} {p : Nat} (h : ∀ v < 5, d.wordAt (regAddr (pgRlk p) (0x068 + 4 * v)) = c.wordAt (regAddr (pgRlk p) (0x068 + 4 * v)))
    (v : Nat) : d.credits p v = c.credits p v := by
  unfold Chip.credits
  split
  · next hv => exact Chip.fld_of_word (h v hv) _ _
  · rfl

theorem Chip.credits_setCredits (c : Chip) (p v n w : Nat) (hn : n < 256) :
    (c.setCredits p v n).credits p w = if v = w ∧ v < 5 then n else c.credits p w := by
  unfold Chip.setCredits
  split
  · next hv =>
    unfold Chip.credits
    by_cases hw : v = w
    · subst hw
      rw [if_pos hv, if_pos ⟨rfl, hv⟩, Chip.fld_setFld_same _ _ _ _ _ _ (by decide)]
      exact Nat.mod_eq_of_lt hn
    · rw [if_neg (show ¬(v = w ∧ v < 5) from fun h => hw h.1)]
      split
      · rw [Chip.fld_setFld_ne _ _ _ _ _ _ _ _ _ _ (regAddr_off_ne _ _ _ (by lia))]
      · rfl
  · next hv => rw [if_neg (show ¬(v = w ∧ v < 5) from fun h => hv h.2)]

theorem Chip.setCredits_link (c : Chip) (p v n : Nat) : (c.setCredits p v n).link = c.link := by
  unfold Chip.setCredits
  split <;> rfl

theorem Chip.markSent_regs (c : Chip) (f : TxFlit) : (c.markSent f).regs = c.regs := by
  unfold Chip.markSent
  split
  · rfl
  · split <;> rfl

theorem Chip.markSent_ports (c : Chip) (f : TxFlit) : (c.markSent f).link.ports = c.link.ports := by
  unfold Chip.markSent
  split
  · rfl
  · split <;> rfl

/-! One flit's going takes a credit, and all of theirs do. -/

/-- The chip once one flit has gone. -/
def Chip.sendOne (p : Nat) (c : Chip) (f : TxFlit) : Chip := (c.setCredits p f.vc (c.credits p f.vc - 1)).markSent f

/-- What the going of flits leaves: the port's state, and every register but its credits. -/
structure Chip.Gone (c d : Chip) (p : Nat) (go : List TxFlit) : Prop where
  ports : d.link.ports = c.link.ports
  credits : ∀ v, d.credits p v = c.credits p v - vcCount v go
  word : ∀ a, (∀ v < 5, a ≠ regAddr (pgRlk p) (0x068 + 4 * v)) → d.wordAt a = c.wordAt a

theorem Chip.setCredits_word (c : Chip) (p v n : Nat) {a : Nat} (h : ∀ v < 5, a ≠ regAddr (pgRlk p) (0x068 + 4 * v)) :
    (c.setCredits p v n).wordAt a = c.wordAt a := by
  unfold Chip.setCredits
  split
  · next hv => exact Chip.wordAt_wr_ne _ _ (h v hv)
  · rfl

theorem Chip.sendOne_gone (c : Chip) (p : Nat) (f : TxFlit) : c.Gone (c.sendOne p f) p [f] := by
  unfold Chip.sendOne
  have hlt := c.credits_lt p f.vc
  refine ⟨(Chip.markSent_ports _ f).trans (by rw [c.setCredits_link]), fun v => ?_, fun a ha =>
    (Chip.wordAt_of_regs (Chip.markSent_regs _ f) a).trans (c.setCredits_word _ _ _ ha)⟩
  rw [Chip.credits_of_regs (Chip.markSent_regs _ f), c.credits_setCredits _ _ _ _ (by omega), vcCount_single]
  by_cases hv : f.vc = v
  · subst hv
    by_cases h5 : f.vc < 5
    · simp [h5]
    · simp [Chip.credits, h5]
  · simp [hv]

theorem Chip.sendAll_gone (p : Nat) (go : List TxFlit) (c : Chip) : c.Gone (go.foldl (Chip.sendOne p) c) p go := by
  induction go generalizing c with
  | nil => exact ⟨rfl, fun _ => rfl, fun _ _ => rfl⟩
  | cons f go ih =>
    have h1 := c.sendOne_gone p f
    have h2 := ih (c.sendOne p f)
    refine ⟨h2.ports.trans h1.ports, fun v => ?_, fun a ha => (h2.word a ha).trans (h1.word a ha)⟩
    rw [List.foldl_cons, h2.credits, h1.credits, Nat.sub_sub, ← vcCount_append, List.singleton_append]

/-! Entries freed. -/

theorem Chip.freeEntry_port (c : Chip) (p vc q : Nat) : ∃ f, (c.freeEntry p vc).lport q = { c.lport q with freed := f } := by
  unfold Chip.freeEntry
  by_cases h : p = q
  · subst h; exact ⟨_, c.lport_setLport_same _ _⟩
  · exact ⟨(c.lport q).freed, c.lport_setLport_ne _ h⟩

theorem Chip.freeEntry_word (c : Chip) (p vc : Nat) {a : Nat} (h : ∀ q < 4, a ≠ regAddr (pgRlk q) 0x07C) : (c.freeEntry p vc).wordAt a = c.wordAt a :=
  c.setLport_word _ (h p)

theorem Chip.freeEntries_spec (c : Chip) (fs : List TxFlit) : (∀ q, ∃ f, (c.freeEntries fs).lport q = { c.lport q with freed := f }) ∧
    ∀ a, (∀ q < 4, a ≠ regAddr (pgRlk q) 0x07C) → (c.freeEntries fs).wordAt a = c.wordAt a := by
  refine List.foldlRecOn (fs.filterMap TxFlit.entry) _
    (motive := fun d : Chip => (∀ q, ∃ f, d.lport q = { c.lport q with freed := f }) ∧ ∀ a, (∀ q < 4, a ≠ regAddr (pgRlk q) 0x07C) → d.wordAt a = c.wordAt a)
    ⟨fun q => ⟨(c.lport q).freed, rfl⟩, fun _ _ => rfl⟩ fun d ⟨hp, hw⟩ e _ => ⟨fun q => ?_, fun a ha => (d.freeEntry_word _ _ ha).trans (hw a ha)⟩
  obtain ⟨f, hf⟩ := hp q
  obtain ⟨g, hg⟩ := d.freeEntry_port e.1 e.2 q
  exact ⟨g, by rw [hg, hf]⟩

/-- A port replaced and entries freed leave the credits. -/
theorem Chip.credits_setLport_freed (c : Chip) (p : Nat) (x : LinkPort) (fs : List TxFlit) (v : Nat) :
    ((c.setLport p x).freeEntries fs).credits p v = c.credits p v :=
  Chip.credits_of_words (fun v hv => ((Chip.freeEntries_spec _ fs).2 _ fun q hq => by unfold regAddr pgRlk; lia).trans
    (c.setLport_word x fun _ => regAddr_off_ne _ _ _ (by lia))) v

/-! The port drained. -/

/-- Flits numbered from a sequence number on, as they stand in the replay buffer. -/
def numbered (n : Nat) (go : List TxFlit) : List TxFlit := go.zipIdx.map fun (f, i) => { f with seq := (n + i) % 1024, entry := none }

theorem numbered_length (n : Nat) (go : List TxFlit) : (numbered n go).length = go.length := by simp [numbered]

theorem vcCount_numbered (v n : Nat) (go : List TxFlit) : vcCount v (numbered n go) = vcCount v go := by
  unfold vcCount numbered
  rw [List.countP_map]
  conv_rhs => rw [← List.zipIdx_map_fst 0 go, List.countP_map]
  rfl

theorem numbered_seq {go : List TxFlit} (h : go.length ≤ 1024) : (numbered 0 go).map TxFlit.seq = List.range go.length := by
  have hseq : (numbered 0 go).map TxFlit.seq = (go.zipIdx.map Prod.snd).map (· % 1024) := by
    rw [numbered, List.map_map, List.map_map]
    exact List.map_congr_left fun x _ => by simp
  rw [hseq, List.zipIdx_map_snd, ← List.range_eq_range']
  refine (List.map_congr_left fun i hi => ?_).trans (List.map_id _)
  have := List.mem_range.mp hi
  exact Nat.mod_eq_of_lt (by omega)

/-- What a drained port holds, where `go` went. -/
structure Chip.Drained (c d : Chip) (p : Nat) (go : List TxFlit) : Prop where
  told : c.Told d
  word : ∀ a, (∀ q < 4, a ≠ regAddr (pgRlk q) 0x07C) → (∀ v < 5, a ≠ regAddr (pgRlk p) (0x068 + 4 * v)) → d.wordAt a = c.wordAt a
  port : ∃ wait f, wait.length + go.length = (c.lport p).txq.length ∧ d.lport p = { c.lport p with
    replay := (c.lport p).replay ++ numbered (c.lport p).txNext go, txNext := ((c.lport p).txNext + go.length) % 1024, txq := wait, freed := f }
  credits : ∀ v, d.credits p v + vcCount v go = c.credits p v
  room : go.length ≤ 256

theorem Chip.drainPort_spec {c : Chip} {p : Nat} (hp : p < 4) (hup : c.portState p = lpUp) : ∃ go, c.Drained (c.drainPort p) p go := by
  refine ⟨(c.sendable? p).1, .drainPort c hp, fun a hl hc => ?_, ?_, fun v => ?_, (c.sendable?_spec p).room⟩
  all_goals
    have hgo := c.sendable?_spec p
    obtain ⟨hports, hcredits, hwords⟩ := Chip.sendAll_gone p (c.sendable? p).1 c
    unfold Chip.drainPort
    rw [if_neg (not_not.mpr hup)]
  · exact ((Chip.freeEntries_spec _ _).2 a hl).trans ((Chip.setLport_word _ _ (hl p)).trans (hwords a hc))
  · obtain ⟨f, hf⟩ := (Chip.freeEntries_spec _ (c.sendable? p).1).1 p
    exact ⟨(c.sendable? p).2, f, by have := hgo.all; lia, hf.trans (by rw [Chip.lport_setLport_same]; rfl)⟩
  · have hkeep := fun x => Chip.credits_setLport_freed ((c.sendable? p).1.foldl (Chip.sendOne p) c) p x (c.sendable? p).1 v
    have := hgo.credit v
    refine (congrArg (· + vcCount v (c.sendable? p).1) ((hkeep _).trans (hcredits v))).trans ?_
    omega

end Sys2Proof.Machine
end


section
/-! Training of a link port (chapter 15): the lanes, the HELLOs, the beginning of UP and the retraining, each by what it leaves in the
port's page and state. -/

namespace Sys2Proof.Machine

theorem pgRlk_off_ne (p : Nat) {off off' : Nat} (h : off ≠ off') : regAddr (pgRlk p) off ≠ regAddr (pgRlk p) off' := regAddr_off_ne _ _ _ h

/-- What the settled chip shows of its ports and of time. -/
theorem Chip.settled_link {t d : Chip} (h : t = d.settle) : t.link = d.link ∧ t.time = d.time :=
  ⟨(congrArg Chip.link h).trans d.settle_link, (congrArg Chip.time h).trans d.settle_time⟩

/-! The lease of the credits. -/

theorem Chip.leaseGrant_same (c : Chip) (n : Nat) : (c.leaseGrant n).regs = c.regs ∧ (c.leaseGrant n).link = c.link ∧ (c.leaseGrant n).time = c.time :=
  ⟨rfl, rfl, rfl⟩

theorem Chip.renewCredit_same (c : Chip) (p : Nat) : (c.renewCredit p).regs = c.regs ∧ (c.renewCredit p).link = c.link ∧ (c.renewCredit p).time = c.time := by
  unfold Chip.renewCredit
  split
  · exact ⟨rfl, rfl, rfl⟩
  · exact ⟨rfl, rfl, rfl⟩

/-! The lanes. -/

theorem laneIndex_lt (lane : Bool) {b : Nat} (h : b < 8) : 8 * lane.toNat + b < 32 := by cases lane <;> simp <;> omega

theorem Chip.laneBit_setLane (c : Chip) (p : Nat) (lane lane' : Bool) {b b' : Nat} (v : Bool) (hb : b < 8) (hb' : b' < 8) :
    (c.setLane p lane b v).laneBit p lane' b' = if lane = lane' ∧ b = b' then v else c.laneBit p lane' b' := by
  unfold Chip.setLane Chip.laneBit
  split
  · next h =>
    obtain ⟨rfl, rfl⟩ := h
    exact Chip.bit_setBit_same _ _ _ _ _ (laneIndex_lt _ hb)
  · next h =>
    refine Chip.bit_setBit_other _ _ _ _ _ _ (laneIndex_lt _ hb) fun e => h ?_
    cases lane <;> cases lane' <;> simp at e ⊢ <;> omega

theorem Chip.laneBit_setLane_same (c : Chip) (p : Nat) (lane : Bool) {b : Nat} (v : Bool) (hb : b < 8) : (c.setLane p lane b v).laneBit p lane b = v :=
  Chip.bit_setBit_same _ _ _ _ _ (laneIndex_lt _ hb)

theorem Chip.laneBit_setLane_ne (c : Chip) (p : Nat) {lane lane' : Bool} {b b' : Nat} (v : Bool) (hb : b < 8) (hb' : b' < 8)
    (h : lane ≠ lane' ∨ b ≠ b') : (c.setLane p lane b v).laneBit p lane' b' = c.laneBit p lane' b' :=
  (c.laneBit_setLane p lane lane' v hb hb').trans (if_neg fun e => h.elim (· e.1) (· e.2))

theorem Chip.setLane_word (c : Chip) (p : Nat) (lane : Bool) (b : Nat) (v : Bool) {a : Nat} (h : a ≠ regAddr (pgRlk p) 0x048) :
    (c.setLane p lane b v).wordAt a = c.wordAt a := Chip.wordAt_wr_ne _ _ h

theorem Chip.laneBit_of_word {c d : Chip} {p : Nat} (h : d.wordAt (regAddr (pgRlk p) 0x048) = c.wordAt (regAddr (pgRlk p) 0x048)) (lane : Bool) (b : Nat) :
    d.laneBit p lane b = c.laneBit p lane b := Chip.bit_of_word h _

/-! The state. -/

theorem Chip.portState_setPortState (c : Chip) (p : Nat) {st : Nat} (h : st < 8) : (c.setPortState p st).portState p = st :=
  (Chip.fld_setFld_same _ _ _ _ _ _ (by decide)).trans (Nat.mod_eq_of_lt h)

theorem Chip.portState_of_word {c d : Chip} {p : Nat} (h : d.wordAt (regAddr (pgRlk p) 0x044) = c.wordAt (regAddr (pgRlk p) 0x044)) :
    d.portState p = c.portState p := Chip.fld_of_word h _ _

theorem Chip.setPortState_word (c : Chip) (p st : Nat) {a : Nat} (h : a ≠ regAddr (pgRlk p) 0x044) : (c.setPortState p st).wordAt a = c.wordAt a :=
  Chip.wordAt_wr_ne _ _ h

theorem Chip.portState_setLport (c : Chip) (p q : Nat) (x : LinkPort) : (c.setLport p x).portState q = c.portState q :=
  Chip.portState_of_word (c.setLport_word x fun hp => by unfold regAddr pgRlk; lia)

/-! Training begins. -/

/-- What the beginning of training leaves of a port. -/
structure Chip.TrainStarted (c d : Chip) (p : Nat) : Prop where
  word : ∀ a, a ≠ regAddr (pgRlk p) 0x044 → a ≠ regAddr (pgRlk p) 0x048 → a ≠ regAddr (pgRlk p) 0x07C → d.wordAt a = c.wordAt a
  state : d.portState p = lpLocking
  lanes : d.rd (pgRlk p) 0x048 = 0
  port : d.lport p = { c.lport p with hellos := 0, since := c.time.now }
  time : d.time = c.time

theorem Chip.trainStart_spec (c : Chip) (p : Nat) : c.TrainStarted (c.trainStart p) p := by
  unfold Chip.trainStart
  refine ⟨fun a h44 h48 h7c => ?_, ?_, ?_, Chip.lport_setLport_same _ _ _, by rw [Chip.setLport_rest]; rfl⟩
  · exact (Chip.setLport_word _ _ fun _ => h7c).trans ((Chip.setPortState_word _ _ _ h44).trans (Chip.wordAt_wr_ne _ _ h48))
  · rw [Chip.portState_setLport, Chip.portState_setPortState _ _ (by decide)]
  · rw [Chip.rd_eq_wordAt]
    exact (Chip.setLport_word _ _ fun _ => pgRlk_off_ne p (by decide)).trans ((Chip.setPortState_word _ _ _ (pgRlk_off_ne p (by decide))).trans
      ((Chip.wordAt_wr _ _ _ _ _).trans (if_pos rfl)))

/-! A port retrains. -/

/-- What retraining leaves of a port that was past LOCKING. -/
structure Chip.Retrained (c d : Chip) (p : Nat) : Prop where
  state : d.portState p = lpRetraining
  lane : ∀ lane b, b < 8 → d.laneBit p lane b = if b = 1 then false else c.laneBit p lane b
  count : d.rd (pgRlk p) 0x058 = c.rd (pgRlk p) 0x058 + 1
  cause : d.bit (pgRlk p) 0x014 2 = true
  port : ∃ f, d.lport p = { c.lport p with hellos := 0, since := c.time.now, resends := 0, naking := false, freed := f }

/-- The port's page as retraining leaves it, before the state changes. -/
def Chip.retrainPage (c : Chip) (p : Nat) : Chip :=
  ((((c.count (pgRlk p) 0x058).raise (pgRlk p) 2).logErr (pgRlk p) clsLink 0x41 0 0).setLane p false 1 false).setLane p true 1 false

theorem Chip.retrain_stays {c : Chip} {p : Nat} (h : c.portState p < lpAligning ∨ c.portState p = lpQuarantined) : c.retrain p = c := if_pos h

theorem Chip.retrain_eq {c : Chip} {p : Nat} (h : ¬(c.portState p < lpAligning ∨ c.portState p = lpQuarantined)) :
    c.retrain p = ((c.retrainPage p).leaveUp p lpRetraining).setLport p
      { ((c.retrainPage p).leaveUp p lpRetraining).lport p with
        hellos := 0, since := ((c.retrainPage p).leaveUp p lpRetraining).time.now, resends := 0, naking := false } := if_neg h

/-- A port that leaves UP for another state that is not DOWN: the chapter is told. -/
theorem Chip.leaveUp_told (c : Chip) (p : Nat) {st : Nat} (h : st ≠ lpDown) : (c.setPortState p st).Told (c.leaveUp p st) := by
  unfold Chip.leaveUp
  dsimp only
  rw [if_neg h]
  split
  · exact .portChanged _ _
  · exact .refl _

theorem Chip.logErr_page_ne (p : Nat) {off : Nat} (h : off ∉ [0x014, 0x020, 0x024]) (hp : off < 0x1000) : regAddr (pgRlk p) off ∉ logAddrs (pgRlk p) := by
  simp only [List.mem_cons, List.not_mem_nil, or_false, not_or] at h
  simp only [logAddrs, List.mem_cons, List.not_mem_nil, or_false, not_or]
  exact ⟨pgRlk_off_ne p h.1, pgRlk_off_ne p h.2.1, pgRlk_off_ne p h.2.2, by unfold regAddr pgRlk; lia⟩

theorem Chip.retrainPage_spec (c : Chip) {p : Nat} : (c.retrainPage p).link = c.link ∧ (c.retrainPage p).time = c.time ∧
    (c.retrainPage p).rd (pgRlk p) 0x058 = c.rd (pgRlk p) 0x058 + 1 ∧ (c.retrainPage p).bit (pgRlk p) 0x014 2 = true ∧
    ∀ lane b, b < 8 → (c.retrainPage p).laneBit p lane b = if b = 1 then false else c.laneBit p lane b := by
  have hlog {off : Nat} (h : off ∉ [0x014, 0x020, 0x024]) (hp : off < 0x1000) := Chip.logErr_page_ne p h hp
  unfold Chip.retrainPage
  refine ⟨Chip.logErr_link _ _ _ _ _ _, Chip.logErr_time _ _ _ _ _ _, ?_, ?_, fun lane b hb => ?_⟩
  · rw [Chip.rd_eq_wordAt, Chip.setLane_word _ _ _ _ _ (pgRlk_off_ne p (by decide)), Chip.setLane_word _ _ _ _ _ (pgRlk_off_ne p (by decide)),
      Chip.logErr_wordAt _ _ _ _ _ _ (hlog (by decide) (by decide)), ← Chip.rd_eq_wordAt, Chip.rd_raise_ne _ _ _ _ _ (pgRlk_off_ne p (by decide)), Chip.rd_count_same]
    rfl
  · unfold Chip.setLane
    rw [Chip.bit_setBit_ne _ _ _ _ _ _ _ _ (pgRlk_off_ne p (by decide)), Chip.bit_setBit_ne _ _ _ _ _ _ _ _ (pgRlk_off_ne p (by decide)),
      Chip.bit_logErr_cause _ _ _ _ _ _ _ (by unfold pgRlk; lia) (by decide), Chip.bit_raise _ _ _ _ (by decide)]
    simp
  · have hkeep : (((c.count (pgRlk p) 0x058).raise (pgRlk p) 2).logErr (pgRlk p) clsLink 0x41 0 0).laneBit p lane b = c.laneBit p lane b :=
      Chip.laneBit_of_word ((Chip.logErr_wordAt _ _ _ _ _ _ (hlog (by decide) (by decide))).trans
        ((Chip.wordAt_wr_ne _ _ (pgRlk_off_ne p (by decide))).trans (Chip.wordAt_wr_ne _ _ (pgRlk_off_ne p (by decide))))) _ _
    rw [Chip.laneBit_setLane _ _ _ _ _ (by decide) hb, Chip.laneBit_setLane _ _ _ _ _ (by decide) hb, hkeep]
    by_cases h1 : b = 1
    · subst h1; cases lane <;> simp
    · simp [h1, Ne.symm h1]

theorem Chip.retrain_spec {c : Chip} {p : Nat} (hp : p < 4) (h : ¬(c.portState p < lpAligning ∨ c.portState p = lpQuarantined)) :
    c.Retrained (c.retrain p) p := by
  obtain ⟨hlink, htime, hcount, hcause, hlane⟩ := c.retrainPage_spec (p := p)
  have htold := (c.retrainPage p).leaveUp_told p (show lpRetraining ≠ lpDown by decide)
  have hst : ((c.retrainPage p).setPortState p lpRetraining).portState p = lpRetraining := Chip.portState_setPortState _ _ (by decide)
  obtain ⟨f, hf⟩ := htold.port p (by rw [hst]; decide)
  have hport : ((c.retrainPage p).setPortState p lpRetraining).lport p = c.lport p := Chip.lport_of_ports (by rw [← hlink]; rfl) _
  have hword : ∀ {off}, off < 0x068 → off ≠ 0x044 → ∀ x, (((c.retrainPage p).leaveUp p lpRetraining).setLport p x).wordAt (regAddr (pgRlk p) off) =
      (c.retrainPage p).wordAt (regAddr (pgRlk p) off) := fun {off} ho h44 x =>
    (Chip.setLport_word _ _ fun _ => pgRlk_off_ne p (by omega)).trans ((htold.word _ (not_chapterReg_port hp (by omega) (.inl ho))).trans
      (Chip.setPortState_word _ _ _ (pgRlk_off_ne p h44)))
  rw [Chip.retrain_eq h]
  refine ⟨?_, fun lane b hb => (Chip.laneBit_of_word (hword (by decide) (by decide) _) _ _).trans (hlane lane b hb), ?_,
    (Chip.bit_of_word (hword (by decide) (by decide) _) _).trans hcause, f, ?_⟩
  · rw [Chip.portState_setLport, htold.state, hst]
  · rw [Chip.rd_eq_wordAt, hword (by decide) (by decide), ← Chip.rd_eq_wordAt, hcount]
  · rw [Chip.lport_setLport_same, hf, hport, htold.time]
    exact congrArg (fun x : TimeState => ({ c.lport p with hellos := 0, since := x.now, resends := 0, naking := false, freed := f } : LinkPort)) htime

end Sys2Proof.Machine
end


section
/-! A port that enters UP (chapter 15), and the training of ports by the commands that drive it. -/

namespace Sys2Proof.Machine

/-! The credits of a port that enters UP. -/

theorem vcBuffer_lt {v : Nat} (h : v < 5) : vcBuffer v < 256 := by
  unfold vcBuffer
  interval_cases v <;> decide

/-- The initial credits of the listed channels. -/
theorem Chip.setBuffers_spec (p : Nat) (vs : List Nat) (h : ∀ v ∈ vs, v < 5) (c : Chip) :
    (vs.foldl (fun (c : Chip) v => c.setCredits p v (vcBuffer v)) c).link = c.link ∧
    (vs.foldl (fun (c : Chip) v => c.setCredits p v (vcBuffer v)) c).vrg = c.vrg ∧
    (vs.foldl (fun (c : Chip) v => c.setCredits p v (vcBuffer v)) c).time = c.time ∧
    (∀ v, (vs.foldl (fun (c : Chip) v => c.setCredits p v (vcBuffer v)) c).credits p v = if v ∈ vs then vcBuffer v else c.credits p v) ∧
    ∀ a, (∀ v < 5, a ≠ regAddr (pgRlk p) (0x068 + 4 * v)) → (vs.foldl (fun (c : Chip) v => c.setCredits p v (vcBuffer v)) c).wordAt a = c.wordAt a := by
  induction vs generalizing c with
  | nil => exact ⟨rfl, rfl, rfl, fun _ => rfl, fun _ _ => rfl⟩
  | cons v vs ih =>
    have hv := h v (List.mem_cons_self ..)
    obtain ⟨hl, hr, ht, hc, hw⟩ := ih (fun x hx => h x (List.mem_cons_of_mem _ hx)) (c.setCredits p v (vcBuffer v))
    have hset : (c.setCredits p v (vcBuffer v)).vrg = c.vrg ∧ (c.setCredits p v (vcBuffer v)).time = c.time := by
      unfold Chip.setCredits
      split <;> exact ⟨rfl, rfl⟩
    refine ⟨hl.trans (c.setCredits_link _ _ _), hr.trans hset.1, ht.trans hset.2, fun w => ?_, fun a ha => (hw a ha).trans (c.setCredits_word _ _ _ ha)⟩
    rw [List.foldl_cons, hc, c.credits_setCredits _ _ _ _ (vcBuffer_lt hv)]
    by_cases hw : v = w
    · subst hw; simp [hv]
    · simp [hw, Ne.symm hw]

/-! The port as it enters UP, before its flits go. -/

/-- A port's state at the beginning of UP: nothing sent yet, and what no ACK covered waits first. -/
def LinkPort.fresh (x : LinkPort) (now : Nat) : LinkPort :=
  { x with hellos := 0, rxNext := 0, txNext := 0, replay := [], txq := x.replay ++ x.txq, resends := 0, naking := false, lastGood := now, freed := [] }

/-- The chip at the beginning of a port's UP. -/
def Chip.upBegun (c : Chip) (p : Nat) : Chip :=
  let d := (List.range 5).foldl (fun (c : Chip) v => c.setCredits p v (vcBuffer v)) (c.setPortState p lpUp)
  ((d.setLport p ((c.lport p).fresh d.time.now)).leaseGrant (creditSel p)).raise (pgRlk p) 0

/-- The chip once the flits that waited have gone. -/
def Chip.upDrained (c : Chip) (p peer : Nat) : Chip :=
  let d := (c.upBegun p).drainPort p
  let d := if d.link.firstUp.isNone then { d with link := { d.link with firstUp := some d.time.now } } else d
  d.setFld (pgRlk p) 0x044 8 3 (if peer < 8 then peer else 0)

theorem Chip.enterUp_eq (c : Chip) (p peer : Nat) : c.enterUp p peer =
    (if (c.upDrained p peer).chEn && (c.upDrained p peer).chPosValid then (c.upDrained p peer).sendEnums [p] else c.upDrained p peer).portChanged p := rfl

theorem Chip.upBegun_spec (c : Chip) {p : Nat} (hp : p < 4) : (c.upBegun p).portState p = lpUp ∧ (c.upBegun p).bit (pgRlk p) 0x014 0 = true ∧
    (c.upBegun p).lport p = (c.lport p).fresh c.time.now ∧ (∀ v < 5, (c.upBegun p).credits p v = vcBuffer v) ∧
    ((c.upBegun p).leaseAux (creditSel p)).state = 1 ∧ (c.upBegun p).chEn = c.chEn := by
  obtain ⟨hlink, hvrg, htime, hcredits, hwords⟩ := Chip.setBuffers_spec p (List.range 5) (fun v hv => List.mem_range.mp hv) (c.setPortState p lpUp)
  unfold Chip.upBegun
  dsimp only
  generalize (List.range 5).foldl (fun (c : Chip) v => c.setCredits p v (vcBuffer v)) (c.setPortState p lpUp) = d at hlink hvrg htime hcredits hwords
  obtain ⟨y, hy⟩ : ∃ y, y = (c.lport p).fresh d.time.now := ⟨_, rfl⟩
  rw [← hy]
  have hkeep : ∀ a, a ≠ regAddr (pgRlk p) 0x07C → a ≠ regAddr (pgRlk p) 0x014 →
      (((d.setLport p y).leaseGrant (creditSel p)).raise (pgRlk p) 0).wordAt a = d.wordAt a := fun a h7c h14 =>
    (Chip.wordAt_wr_ne _ _ h14).trans ((Chip.wordAt_of_regs rfl a).trans (d.setLport_word y fun _ => h7c))
  refine ⟨?_, ?_, ?_, fun v hv => ?_, ?_, ?_⟩
  · rw [Chip.portState_of_word (hkeep _ (pgRlk_off_ne p (by decide)) (pgRlk_off_ne p (by decide))),
      Chip.portState_of_word (hwords _ fun v hv => pgRlk_off_ne p (by omega)), Chip.portState_setPortState _ _ (by decide)]
  · rw [Chip.bit_raise _ _ _ _ (by decide)]
    simp
  · rw [show (((d.setLport p y).leaseGrant (creditSel p)).raise (pgRlk p) 0).lport p = (d.setLport p y).lport p from rfl, d.lport_setLport_same, hy, htime]
    rfl
  · rw [Chip.credits_of_words (fun w hw => hkeep _ (pgRlk_off_ne p (by omega)) (pgRlk_off_ne p (by lia))), hcredits, if_pos (List.mem_range.mpr hv)]
  · exact congrArg LeaseAux.state (congrArg (Option.getD · {}) (aget_aput_same _ _ _))
  · refine Chip.bit_of_word ((hkeep _ ?_ ?_).trans ((hwords _ fun v hv => ?_).trans (Chip.setPortState_word _ _ _ ?_))) _
    all_goals unfold regAddr pgRlk; omega

theorem Chip.Told.firstUp (c : Chip) (x : Option Nat) : c.Told { c with link := { c.link with firstUp := x } } := .of_same rfl rfl rfl rfl

theorem Chip.upDrained_told (c : Chip) {p : Nat} (peer : Nat) (hp : p < 4) :
    ∃ d, (c.upBegun p).Told d ∧ c.upDrained p peer = d.setFld (pgRlk p) 0x044 8 3 (if peer < 8 then peer else 0) ∧
      d.lport p = ((c.upBegun p).drainPort p).lport p ∧ ∀ v, d.credits p v = ((c.upBegun p).drainPort p).credits p v := by
  unfold Chip.upDrained
  dsimp only
  have htold := Chip.Told.drainPort (c.upBegun p) hp
  split
  · exact ⟨_, htold.trans (.firstUp _ _), rfl, Chip.lport_of_ports rfl p, fun v => Chip.credits_of_regs rfl p v⟩
  · exact ⟨_, htold, rfl, rfl, fun _ => rfl⟩

theorem Chip.enterUp_state (c : Chip) {p : Nat} (peer : Nat) (hp : p < 4) : (c.enterUp p peer).portState p = lpUp := by
  obtain ⟨d, htold, heq, -, -⟩ := c.upDrained_told peer hp
  have hd : (c.upDrained p peer).portState p = lpUp := by
    rw [heq, Chip.portState, Chip.fld_setFld_other _ _ _ _ _ _ _ _ (by decide) (by decide), ← Chip.portState, htold.state, (c.upBegun_spec hp).1]
  rw [c.enterUp_eq, (Chip.Told.portChanged _ p).state]
  split
  · rw [(Chip.Told.sendEnums _ fun q hq => by rw [List.mem_singleton.mp hq]; exact hp).state, hd]
  · exact hd

/-- What a port that enters UP holds, on a chip that is in no chapter. -/
structure Chip.EnteredUp (c d : Chip) (p peer : Nat) : Prop where
  state : d.portState p = lpUp
  cause : d.bit (pgRlk p) 0x014 0 = true
  rxNext : (d.lport p).rxNext = 0
  txNext : (d.lport p).txNext = (d.lport p).replay.length
  seqs : (d.lport p).replay.map TxFlit.seq = List.range (d.lport p).replay.length
  credits : ∀ v < 5, d.credits p v + vcCount v (d.lport p).replay = vcBuffer v
  all : (d.lport p).replay.length + (d.lport p).txq.length = (c.lport p).replay.length + (c.lport p).txq.length
  pos : peer < 8 → d.fld (pgRlk p) 0x044 8 3 = peer
  lease : d.selState (creditSel p) = 1

theorem Chip.selState_credit (c : Chip) {p : Nat} (hp : p < 4) : c.selState (creditSel p) = (c.leaseAux (creditSel p)).state := by
  unfold Chip.selState creditSel
  dsimp only
  rw [if_neg (by lia), if_pos (by omega)]

theorem Chip.portChanged_alone {c : Chip} (h : c.chEn = false) (p : Nat) : c.portChanged p = c := if_neg (by simp [h])

theorem Chip.enterUp_alone {c : Chip} {p : Nat} (peer : Nat) (hp : p < 4) (h : c.chEn = false) : c.EnteredUp (c.enterUp p peer) p peer := by
  obtain ⟨d, htold, heq, hport, hcredits⟩ := c.upDrained_told peer hp
  obtain ⟨hup, hcause, hfresh, hbuf, hlease, hen⟩ := c.upBegun_spec hp
  obtain ⟨go, hgo⟩ := Chip.drainPort_spec hp hup
  obtain ⟨wait, f, hall, hlport⟩ := hgo.port
  rw [← hport, hfresh] at hlport
  rw [hfresh] at hall
  have hnum : (d.lport p).replay = numbered 0 go := congrArg LinkPort.replay hlport
  have hlen : (d.lport p).replay.length = go.length := by rw [hnum, numbered_length]
  have hroom := hgo.room
  have hen' : (c.upDrained p peer).chEn = false := by
    rw [heq]
    refine (Chip.bit_setFld_ne _ _ _ _ _ _ _ _ _ (by unfold regAddr pgRlk; lia)).trans ((Chip.bit_of_word (htold.word _ ?_) _).trans (hen.trans h))
    rintro (⟨q, hq, he | ⟨v, hv, he⟩⟩ | ⟨o, hmem, he⟩)
    · unfold regAddr pgRlk at he; lia
    · unfold regAddr pgRlk at he; lia
    · simp only [List.mem_cons, List.not_mem_nil, or_false] at hmem
      unfold regAddr at he; lia
  have hend : c.enterUp p peer = d.setFld (pgRlk p) 0x044 8 3 (if peer < 8 then peer else 0) := by
    rw [c.enterUp_eq, if_neg (by simp [hen']), Chip.portChanged_alone hen', heq]
  have hst := c.enterUp_state peer hp
  rw [hend] at hst ⊢
  have hkeep : (d.setFld (pgRlk p) 0x044 8 3 (if peer < 8 then peer else 0)).lport p = d.lport p := rfl
  refine ⟨hst, ?_, ?_, ?_, ?_, fun v hv => ?_, ?_, fun hpos => ?_, ?_⟩
  · rw [Chip.bit_setFld_ne _ _ _ _ _ _ _ _ _ (pgRlk_off_ne p (by decide)),
      Chip.bit_of_word (htold.word _ (not_chapterReg_port hp (by decide) (by decide))), hcause]
  · rw [hkeep, hlport]; rfl
  · rw [hkeep, hlen, hlport]
    exact (Nat.mod_eq_of_lt (show 0 + go.length < 1024 by omega)).trans (Nat.zero_add _)
  · rw [hkeep, hlen, hnum, numbered_seq (by omega)]
  · have hcr : (d.setFld (pgRlk p) 0x044 8 3 (if peer < 8 then peer else 0)).credits p v = d.credits p v :=
      Chip.credits_of_words (fun w hw => Chip.wordAt_wr_ne _ _ (pgRlk_off_ne p (by lia))) v
    rw [hkeep, hnum, vcCount_numbered, hcr, hcredits, hgo.credits, hbuf v hv]
  · rw [hkeep, hlen, hlport]
    have : ((c.lport p).fresh c.time.now).txq.length = (c.lport p).replay.length + (c.lport p).txq.length := List.length_append
    dsimp only
    lia
  · rw [if_pos hpos, Chip.fld_setFld_same _ _ _ _ _ _ (by decide)]
    exact Nat.mod_eq_of_lt (by omega)
  · rw [Chip.selState_credit _ hp, ← hlease, Chip.leaseAux, Chip.leaseAux, ← htold.vrg]
    rfl

end Sys2Proof.Machine
end


section
/-! Received flits (chapter 15): what a good flit's ACK and credits do, NAK episodes, resends, and the order of sequenced flits. -/

namespace Sys2Proof.Machine

theorem Chip.setLport_time (c : Chip) (p : Nat) (x : LinkPort) : (c.setLport p x).time = c.time := by rw [c.setLport_rest]

/-! A good flit. -/

/-- The flits of the replay buffer that a flit's ACK covers. -/
def LinkPort.acked (x : LinkPort) (h : FlitHdr) : Nat := ((x.replay.findIdx? fun f => f.seq == h.ack.toNat).map (· + 1)).getD 0

/-- The port once the ACK is taken. -/
def LinkPort.good (x : LinkPort) (h : FlitHdr) (now : Nat) : LinkPort :=
  { x with replay := x.replay.drop (x.acked h), lastGood := now, resends := if x.acked h = 0 then x.resends else 0 }

/-- The chip once the ACK is taken and the credit lease renewed. -/
def Chip.ackTaken (c : Chip) (p : Nat) (h : FlitHdr) : Chip := (c.setLport p ((c.lport p).good h c.time.now)).leaseGrant (creditSel p)

/-- The same with the credits that the flit brings. -/
def Chip.creditTaken (c : Chip) (p : Nat) (h : FlitHdr) : Chip :=
  (c.ackTaken p h).setCredits p h.cvc.toNat (min (vcBuffer h.cvc.toNat) ((c.ackTaken p h).credits p h.cvc.toNat + h.ccnt.toNat))

theorem Chip.goodFlit_eq (c : Chip) (p : Nat) (h : FlitHdr) : c.goodFlit p h = (c.creditTaken p h).drainPort p := by
  have hacked : (match (c.lport p).replay.findIdx? fun f => f.seq == h.ack.toNat with
      | some i => i + 1
      | none => 0) = (c.lport p).acked h := by
    unfold LinkPort.acked
    cases (c.lport p).replay.findIdx? fun f => f.seq == h.ack.toNat <;> rfl
  unfold Chip.creditTaken Chip.ackTaken LinkPort.good
  rw [← hacked]
  rfl

theorem vcBuffer_le (v : Nat) : vcBuffer v < 256 := by
  by_cases h : v < 5
  · exact vcBuffer_lt h
  · unfold vcBuffer
    rw [List.getD_eq_default _ _ (by simp; omega)]
    decide

section
variable {c : Chip} {p : Nat} {h : FlitHdr}

theorem Chip.ackTaken_word {a : Nat} (ha : a ≠ regAddr (pgRlk p) 0x07C) : (c.ackTaken p h).wordAt a = c.wordAt a :=
  (Chip.wordAt_of_regs rfl a).trans (Chip.setLport_word _ _ fun _ => ha)

theorem Chip.creditTaken_word {a : Nat} (ha : a ≠ regAddr (pgRlk p) 0x07C) (hc : ∀ v < 5, a ≠ regAddr (pgRlk p) (0x068 + 4 * v)) :
    (c.creditTaken p h).wordAt a = c.wordAt a := (Chip.setCredits_word _ _ _ _ hc).trans (Chip.ackTaken_word ha)

theorem Chip.creditTaken_lport : (c.creditTaken p h).lport p = (c.lport p).good h c.time.now :=
  (Chip.lport_of_ports (congrArg LinkState.ports (Chip.setCredits_link _ _ _ _)) p).trans (Chip.lport_setLport_same _ _ _)

theorem Chip.creditTaken_time : (c.creditTaken p h).time = c.time := by
  unfold Chip.creditTaken Chip.setCredits Chip.ackTaken
  split
  · exact c.setLport_time p _
  · exact c.setLport_time p _

theorem Chip.creditTaken_state : (c.creditTaken p h).portState p = c.portState p :=
  Chip.portState_of_word (Chip.creditTaken_word (pgRlk_off_ne p (by decide)) fun v hv => pgRlk_off_ne p (by lia))

theorem Chip.creditTaken_credits {v : Nat} (hv : v < 5) : (c.creditTaken p h).credits p v =
    if h.cvc.toNat = v then min (vcBuffer v) (c.credits p v + h.ccnt.toNat) else c.credits p v := by
  have hack : ∀ w, (c.ackTaken p h).credits p w = c.credits p w := Chip.credits_of_words fun w hw => Chip.ackTaken_word (pgRlk_off_ne p (by lia))
  have hb := vcBuffer_le h.cvc.toNat
  unfold Chip.creditTaken
  rw [Chip.credits_setCredits _ _ _ _ _ ((Nat.min_le_left _ _).trans_lt hb), hack, hack]
  by_cases he : h.cvc.toNat = v
  · subst he; simp [hv]
  · simp [he]

/-- What a good flit leaves of the port that it came on. -/
structure Chip.GoodTaken (c d : Chip) (p : Nat) (h : FlitHdr) : Prop where
  time : d.time = c.time
  word : ∀ a, (∀ q < 4, a ≠ regAddr (pgRlk q) 0x07C) → (∀ v < 5, a ≠ regAddr (pgRlk p) (0x068 + 4 * v)) → d.wordAt a = c.wordAt a
  port : ∃ go wait f, wait.length + go.length = (c.lport p).txq.length ∧ d.lport p = { (c.lport p).good h c.time.now with
    replay := (c.lport p).replay.drop ((c.lport p).acked h) ++ numbered (c.lport p).txNext go, txNext := ((c.lport p).txNext + go.length) % 1024,
    txq := wait, freed := f }
  credits : ∀ v < 5, d.credits p v + vcCount v (d.lport p).replay =
    (if h.cvc.toNat = v then min (vcBuffer v) (c.credits p v + h.ccnt.toNat) else c.credits p v) +
      vcCount v ((c.lport p).replay.drop ((c.lport p).acked h))

variable (hp : p < 4) (hup : c.portState p = lpUp)
include hp hup

theorem Chip.goodFlit_spec : c.GoodTaken (c.goodFlit p h) p h := by
  obtain ⟨go, hgo⟩ := Chip.drainPort_spec hp (Chip.creditTaken_state (h := h).trans hup)
  obtain ⟨wait, f, hall, hport⟩ := hgo.port
  rw [Chip.creditTaken_lport] at hall hport
  rw [c.goodFlit_eq]
  refine ⟨hgo.told.time.trans Chip.creditTaken_time, fun a hl hc => (hgo.word a hl hc).trans (Chip.creditTaken_word (hl p hp) hc),
    ⟨go, wait, f, hall, hport⟩, fun v hv => ?_⟩
  have hreplay : (((c.creditTaken p h).drainPort p).lport p).replay = (c.lport p).replay.drop ((c.lport p).acked h) ++ numbered (c.lport p).txNext go :=
    congrArg LinkPort.replay hport
  have hcr := hgo.credits v
  rw [Chip.creditTaken_credits hv] at hcr
  rw [hreplay, vcCount_append, vcCount_numbered, ← hcr]
  lia

theorem Chip.goodFlit_word {off : Nat} (ho : off < 0x068) : (c.goodFlit p h).wordAt (regAddr (pgRlk p) off) = c.wordAt (regAddr (pgRlk p) off) :=
  (Chip.goodFlit_spec hp hup).word _ (fun q hq => by unfold regAddr pgRlk; lia) fun v hv => pgRlk_off_ne p (by lia)

theorem Chip.goodFlit_state : (c.goodFlit p h).portState p = lpUp := (Chip.portState_of_word (Chip.goodFlit_word hp hup (by decide))).trans hup

theorem Chip.goodFlit_lastGood : ((c.goodFlit p h).lport p).lastGood = c.time.now := by
  obtain ⟨go, wait, f, -, hport⟩ := (Chip.goodFlit_spec (h := h) hp hup).port
  exact congrArg LinkPort.lastGood hport

/-- The flits that are kept stand first in the replay buffer. -/
theorem Chip.goodFlit_replay : ∃ l, ((c.goodFlit p h).lport p).replay = (c.lport p).replay.drop ((c.lport p).acked h) ++ l := by
  obtain ⟨go, wait, f, -, hport⟩ := (Chip.goodFlit_spec (h := h) hp hup).port
  exact ⟨_, congrArg LinkPort.replay hport⟩

theorem Chip.goodFlit_take : ((c.goodFlit p h).lport p).replay.take ((c.lport p).replay.drop ((c.lport p).acked h)).length =
    (c.lport p).replay.drop ((c.lport p).acked h) := by
  obtain ⟨l, hl⟩ := Chip.goodFlit_replay (h := h) hp hup
  exact hl ▸ List.take_left

theorem Chip.goodFlit_some (hk : (c.lport p).replay.drop ((c.lport p).acked h) ≠ []) : ((c.goodFlit p h).lport p).replay ≠ [] := by
  obtain ⟨l, hl⟩ := Chip.goodFlit_replay (h := h) hp hup
  exact fun e => hk (List.append_eq_nil_iff.mp (hl.symm.trans e)).1

/-- No flit is lost of those that are kept and those that wait. -/
theorem Chip.goodFlit_total : ((c.goodFlit p h).lport p).replay.length + ((c.goodFlit p h).lport p).txq.length =
    ((c.lport p).replay.drop ((c.lport p).acked h)).length + (c.lport p).txq.length := by
  obtain ⟨go, wait, f, hall, hport⟩ := (Chip.goodFlit_spec (h := h) hp hup).port
  rw [hport, ← hall, Nat.add_comm wait.length, ← Nat.add_assoc]
  exact congrArg (· + wait.length) (List.length_append.trans (congrArg (_ + ·) (numbered_length _ _)))

/-- Without flits to keep or to send the replay buffer is empty. -/
theorem Chip.goodFlit_none (hk : (c.lport p).replay.drop ((c.lport p).acked h) = []) (hq : (c.lport p).txq = []) :
    ((c.goodFlit p h).lport p).replay = [] := by
  have htotal := Chip.goodFlit_total (h := h) hp hup
  rw [hk, hq] at htotal
  exact List.length_eq_zero_iff.mp (Nat.eq_zero_of_add_eq_zero_right htotal)

theorem Chip.goodFlit_rxNext : ((c.goodFlit p h).lport p).rxNext = (c.lport p).rxNext := by
  obtain ⟨go, wait, f, -, hport⟩ := (Chip.goodFlit_spec (h := h) hp hup).port
  exact (congrArg LinkPort.rxNext hport).trans rfl

theorem Chip.goodFlit_resends : ((c.goodFlit p h).lport p).resends = if (c.lport p).acked h = 0 then (c.lport p).resends else 0 := by
  obtain ⟨go, wait, f, -, hport⟩ := (Chip.goodFlit_spec (h := h) hp hup).port
  exact (congrArg LinkPort.resends hport).trans rfl

end

/-! NAK episodes. -/

section
variable (c : Chip) (p : Nat)

theorem Chip.sendNak_idle {c : Chip} {p : Nat} (h : (c.lport p).naking = true) : c.sendNak p = c := if_pos h
theorem Chip.sendNak_opens {c : Chip} {p : Nat} (h : (c.lport p).naking = false) :
    c.sendNak p = (c.setLport p { c.lport p with naking := true }).count (pgRlk p) 0x050 := if_neg (Bool.eq_false_iff.mp h)

theorem Chip.sendNak_lport : (c.sendNak p).lport p = { c.lport p with naking := true } := by
  cases h : (c.lport p).naking with
  | true => rw [Chip.sendNak_idle h, ← h]
  | false => exact (congrArg (·.lport p) (Chip.sendNak_opens h)).trans (c.lport_setLport_same p _)

theorem Chip.sendNak_count : (c.sendNak p).rd (pgRlk p) 0x050 = c.rd (pgRlk p) 0x050 + (if (c.lport p).naking then 0 else 1) := by
  cases h : (c.lport p).naking with
  | true => exact (congrArg (·.rd (pgRlk p) 0x050) (Chip.sendNak_idle h)).trans (BitVec.add_zero _).symm
  | false =>
    rw [Chip.sendNak_opens h, Chip.rd_count_same]
    exact congrArg (· + 1) (Chip.setLport_word _ _ fun _ => pgRlk_off_ne p (by decide))

theorem Chip.sendNak_word {off : Nat} (ho : off < 0x07C) (h50 : off ≠ 0x050) :
    (c.sendNak p).wordAt (regAddr (pgRlk p) off) = c.wordAt (regAddr (pgRlk p) off) :=
  iteInduction (motive := fun d : Chip => d.wordAt (regAddr (pgRlk p) off) = c.wordAt (regAddr (pgRlk p) off)) (fun _ => rfl) fun _ =>
    (Chip.wordAt_wr_ne _ _ (pgRlk_off_ne p h50)).trans (Chip.setLport_word _ _ fun _ => pgRlk_off_ne p (Nat.ne_of_lt ho))

end

theorem Chip.crcError_up {c : Chip} {p : Nat} (h : c.portState p = lpUp) : c.crcError p = (c.count (pgRlk p) 0x04C).sendNak p := if_pos h
theorem Chip.crcError_down {c : Chip} {p : Nat} (h : c.portState p ≠ lpUp) : c.crcError p = c := if_neg h

/-! Resends. -/

theorem Chip.resend_none {c : Chip} {p : Nat} (h : (c.lport p).replay = []) : c.resend p = c := if_pos h

/-- The chip once a resend is counted. -/
def Chip.resent (c : Chip) (p : Nat) : Chip := (c.count (pgRlk p) 0x054).setLport p { c.lport p with resends := (c.lport p).resends + 1 }

theorem Chip.resend_again {c : Chip} {p : Nat} (h : (c.lport p).replay ≠ []) (hn : (c.lport p).resends + 1 < 8) : c.resend p = c.resent p :=
  (if_neg h).trans (if_neg (Nat.not_le.mpr hn))

theorem Chip.resend_eighth {c : Chip} {p : Nat} (h : (c.lport p).replay ≠ []) (hn : 7 ≤ (c.lport p).resends) : c.resend p = (c.resent p).retrain p :=
  (if_neg h).trans (if_pos (Nat.succ_le_succ hn))

section
variable (c : Chip) (p : Nat)

theorem Chip.resent_lport : (c.resent p).lport p = { c.lport p with resends := (c.lport p).resends + 1 } := Chip.lport_setLport_same _ _ _

theorem Chip.resent_count : (c.resent p).rd (pgRlk p) 0x054 = c.rd (pgRlk p) 0x054 + 1 :=
  (Chip.setLport_word _ _ fun _ => pgRlk_off_ne p (by decide)).trans (Chip.rd_count_same _ _ _ _)

theorem Chip.resent_state : (c.resent p).portState p = c.portState p :=
  (Chip.portState_setLport _ _ _ _).trans (Chip.portState_of_word (Chip.wordAt_wr_ne _ _ (pgRlk_off_ne p (by decide))))

theorem Chip.resent_time : (c.resent p).time = c.time := (Chip.setLport_time _ p _).trans rfl

end

/-! The order of sequenced flits. -/

section
variable {c : Chip} {p : Nat} {h : FlitHdr}

theorem Chip.seqFlit_down (hd : c.portState p ≠ lpUp) : c.seqFlit p h = (false, c) := if_pos hd

theorem Chip.seqFlit_reserved (hup : c.portState p = lpUp) (hv : 5 ≤ h.vc.toNat) : c.seqFlit p h = (false, c.crcError p) :=
  (if_neg (not_not.mpr hup)).trans (if_pos hv)

/-- A flit that does not come in order: an old one is discarded, and one that comes too early opens a NAK episode. -/
def Chip.outOfOrder (c : Chip) (p : Nat) (h : FlitHdr) : Chip :=
  if ((c.lport p).rxNext + 1024 - h.seq.toNat) % 1024 ≤ 512 then c.goodFlit p h else (c.goodFlit p h).sendNak p

theorem Chip.seqFlit_outOfOrder (hp : p < 4) (hup : c.portState p = lpUp) (hv : h.vc.toNat < 5) (hs : h.seq.toNat ≠ (c.lport p).rxNext) :
    c.seqFlit p h = (false, c.outOfOrder p h) := by
  refine (if_neg (not_not.mpr hup)).trans ((if_neg (Nat.not_le.mpr hv)).trans ((if_neg ((Chip.goodFlit_rxNext hp hup).symm ▸ hs)).trans ?_))
  exact (apply_ite (Prod.mk false) _ _ _).symm.trans (by rw [Chip.goodFlit_rxNext hp hup, Chip.outOfOrder])

theorem Chip.seqFlit_inOrder (hp : p < 4) (hi : c.inOrder p h) : c.seqFlit p h = (true, c.flitTaken p h) := by
  obtain ⟨hup, hv, hs⟩ := hi
  exact (if_neg (not_not.mpr hup)).trans ((if_neg (Nat.not_le.mpr hv)).trans (if_pos (hs.trans (Chip.goodFlit_rxNext hp hup).symm)))

theorem Chip.onFlit_discarded {d : Chip} {g : Chip → Chip} (hd : c.seqFlit p h = (false, d)) : c.onFlit p h g = d := by
  unfold Chip.onFlit
  rw [hd]
  rfl

theorem Chip.onFlit_taken {d : Chip} {g : Chip → Chip} (hd : c.seqFlit p h = (true, d)) : c.onFlit p h g = (g d).freeEntry p h.vc.toNat := by
  unfold Chip.onFlit
  rw [hd]
  rfl

theorem arrive_discarded {src : Nat} {parity : BitVec 64} {b : FlitBody} {w : Work} {d : Chip} (hd : w.chip.seqFlit p h = (false, d)) :
    arrive p h src parity b w = ((), w.onChip fun _ => d) :=
  WM.bind_of_eq ((useChip_apply _ w).trans (congrArg (fun x : Bool × Chip => (x.1, { w with chip := x.2 })) hd)) rfl

end

/-- The flits that come in a sequence. -/
theorem exec_discarded {p : Fin 4} {h : FlitHdr} {s : State} {f : Chip → Chip} (hd : s.chip.seqFlit p h = (false, f s.chip)) {ex ey : BitVec 8} {pos : Fin 8}
    {mem : BitVec 8} {map : BitVec 32} {epoch : BitVec 8} {m : PieceHeadMsg} {src : Fin 8} {mask data : BitVec 512} {parity : BitVec 64} {sm : SignalMsg} {rm : RespMsg}
    {i : Instr} (hi : i ∈ [Instr.flitCrcError ⟨p, some h⟩, .enum p h ex ey, .join p h pos, .chapterUp p h mem, .linkMap p h map epoch, .pieceHead p h m,
      .piecePmap p h src mask, .pieceData p h src data parity, .signalFlit p h sm, .resp p h rm]) : exec i s = .next (s.onChip f) := by
  have hflit : ∀ (g : Chip → Chip) (j : Instr), exec j s = .next (s.onChip fun c => c.onFlit p h g) → exec j s = .next (s.onChip f) := fun g j hj =>
    exec_onChip_congr hj (Chip.onFlit_discarded hd)
  have harrive : ∀ (src : Nat) (par : BitVec 64) (b : FlitBody) (j : Instr), exec j s = s.onMem (arrive p h src par b) → exec j s = .next (s.onChip f) :=
    fun src par b j hj => hj.trans (s.onMem_of_eq (arrive_discarded hd))
  exact (List.forall_mem_cons (p := fun j => exec j s = .next (s.onChip f))).mpr ⟨hflit id _ rfl, List.forall_mem_cons.mpr ⟨hflit (fun c => c.enumRx p ex.toNat ey.toNat) _ rfl,
    List.forall_mem_cons.mpr ⟨hflit (fun c => c.joinRx pos) _ rfl, List.forall_mem_cons.mpr ⟨hflit (fun c => c.chapterUpRx p mem.toNat) _ rfl,
    List.forall_mem_cons.mpr ⟨hflit (fun c => c.linkMapRx p map.toNat epoch.toNat) _ rfl, List.forall_mem_cons.mpr ⟨harrive m.srcPos 0 (.head m) _ rfl,
    List.forall_mem_cons.mpr ⟨harrive src 0 (.pmap mask) _ rfl, List.forall_mem_cons.mpr ⟨harrive src parity (.data data) _ rfl,
    List.forall_mem_cons.mpr ⟨harrive sm.srcPos 0 (.signal sm) _ rfl, List.forall_mem_singleton.mpr (harrive rm.pos 0 (.resp rm) _ rfl)⟩⟩⟩⟩⟩⟩⟩⟩⟩ i hi

/-- A port that retrained from UP, once the chip is settled. -/
theorem Chip.retrained_settled {t d : Chip} {p : Nat} (hp : p < 4) (h : d.portState p = lpUp) (hc : t = (d.retrain p).settle)
    (hr : t.regs = (d.retrain p).regs) : t.portState p = lpRetraining ∧ (t.lport p).resends = 0 := by
  have hsp := Chip.retrain_spec (c := d) hp (by rw [h]; decide)
  obtain ⟨f, hf⟩ := hsp.port
  refine ⟨(Chip.fld_of_regs hr _ _ _ _).trans hsp.state, ?_⟩
  rw [Chip.lport_of_ports (congrArg LinkState.ports (Chip.settled_link hc).1), hf]

theorem Chip.advance_lport (c : Chip) (t p : Nat) : (c.advance t).lport p = c.lport p :=
  Chip.lport_of_ports (by rw [(Chip.Passed.advance c t).rest]) p

/-- The timebase's own registers are none of a port's. -/
theorem Chip.advance_port {c : Chip} {t p off : Nat} (hp : p < 4) (ho : off < 0x1000) :
    (c.advance t).wordAt (regAddr (pgRlk p) off) = c.wordAt (regAddr (pgRlk p) off) := by
  have hne : ∀ o < 0x1000, regAddr (pgRlk p) off ≠ regAddr 0x0D0 o := fun o =>
    regAddr_page_ne _ _ _ _ (Nat.ne_of_lt ((Nat.add_lt_add_left hp 0x0B0).trans (by decide))) ho
  exact (Chip.Passed.advance c t).word _ (List.not_mem_cons_of_ne_of_not_mem (hne _ (by decide)) <|
    List.not_mem_cons_of_ne_of_not_mem (hne _ (by decide)) (mt List.mem_singleton.mp (hne _ (by decide))))

/-! The commands. -/

section
variable (p : Fin 4) (h : FlitHdr) (s : State)

theorem exec_flitCrcError_eq : exec (.flitCrcError ⟨p, none⟩) s = .next (s.onChip fun c => c.crcError p) := rfl
theorem exec_flitReserved_eq : exec (.flitCrcError ⟨p, some h⟩) s = .next (s.onChip fun c => c.onFlit p h id) := rfl
theorem exec_idleFlit_eq : exec (.idleFlit p h) s = .next (s.onChip fun c => if c.portState p = lpUp then c.goodFlit p h else c.renewCredit p) := rfl
theorem exec_nak_eq : exec (.nak p h) s = .next (s.onChip fun c => if c.portState p = lpUp then (c.goodFlit p h).resend p else c) := rfl
theorem exec_replayTimeout_eq : exec (.replayTimeout p) s =
    .next (s.onChip fun c => if c.portState p = lpUp then (c.advance (c.time.now + 4000)).resend p else c) := rfl

end

/-- Settles O47: what each flit leaves of the port's replay buffer, credits and episodes. -/
theorem linkFlits : Obligations.LinkFlits := by
  unfold Obligations.LinkFlits
  intro p h s c r x acked kept resends
  have hp : p.val < 4 := p.isLt
  refine ⟨fun hup => ⟨?crc, ?idle, fun hk hn => ?nak, fun hk hn => ?nak8, fun hk hq => ?empty, fun hk => ?quiet, fun hk hn => ?replay,
    fun hk hn => ?replay8⟩, fun hi => ?taken, fun ex ey pos mem map epoch m src mask data parity sm rm i hi => ⟨fun hup hv => ?reserved,
    fun hup hv hs => ?order, fun hd => ?closed⟩, fun hd i hi => ?down, fun hd => ?renew⟩
  case crc =>
    refine Answers.of_onChip (exec_onChip_congr (g := fun c => (c.count (pgRlk p) 0x04C).sendNak p) (exec_flitCrcError_eq p s) (Chip.crcError_up hup))
      fun t hk hc hr => ?_
    have hport := (Chip.lport_of_ports (congrArg LinkState.ports (Chip.settled_link hc).1) p).trans (Chip.sendNak_lport _ _)
    refine ⟨hk, (Chip.rd_of_regs hr _ _).trans ((Chip.sendNak_word _ _ (by decide) (by decide)).trans (Chip.rd_count_same _ _ _ _)), congrArg LinkPort.naking hport,
      (Chip.rd_of_regs hr _ _).trans ((Chip.sendNak_count _ _).trans ?_), (congrArg LinkPort.replay hport).trans rfl, (Chip.fld_of_regs hr _ _ _ _).trans ?_⟩
    · exact congrArg (· + if x.naking then 0 else 1) (Chip.wordAt_wr_ne _ _ (pgRlk_off_ne p (by decide)))
    · exact (Chip.portState_of_word ((Chip.sendNak_word _ _ (by decide) (by decide)).trans (Chip.wordAt_wr_ne _ _ (pgRlk_off_ne p (by decide))))).trans hup
  case idle =>
    refine Answers.of_onChip (exec_onChip_congr (g := fun c => c.goodFlit p h) (exec_idleFlit_eq p h s) (if_pos hup)) fun t hk hc hr => ?_
    have hsp := Chip.goodFlit_spec (h := h) hp hup
    have hport := Chip.lport_of_ports (congrArg LinkState.ports (Chip.settled_link hc).1) p
    rw [hport]
    exact ⟨hk, Chip.goodFlit_take hp hup, Chip.goodFlit_lastGood hp hup, Chip.goodFlit_total hp hup,
      fun v => (congrArg (· + _) (Chip.credits_of_regs hr _ _)).trans (hsp.credits v v.isLt), Chip.goodFlit_rxNext hp hup,
      fun a hl hcr => (Chip.wordAt_of_regs hr a).trans (hsp.word a (fun q hq => hl ⟨q, hq⟩) fun v hv => hcr ⟨v, hv⟩)⟩
  case nak =>
    have hres := Chip.goodFlit_resends (h := h) hp hup
    refine Answers.of_onChip (exec_onChip_congr (g := fun c => (c.goodFlit p h).resent p) (exec_nak_eq p h s)
      ((if_pos hup).trans (Chip.resend_again (Chip.goodFlit_some hp hup hk) (hres ▸ hn)))) fun t hk hc hr => ?_
    have hport := (Chip.lport_of_ports (congrArg LinkState.ports (Chip.settled_link hc).1) p).trans (Chip.resent_lport _ _)
    exact ⟨hk, (congrArg (fun y : LinkPort => y.replay.take kept.length) hport).trans (Chip.goodFlit_take hp hup),
      (Chip.rd_of_regs hr _ _).trans ((Chip.resent_count _ _).trans (congrArg (· + 1) (Chip.goodFlit_word hp hup (by decide)))),
      (congrArg LinkPort.resends hport).trans (congrArg (· + 1) hres),
      (Chip.fld_of_regs hr _ _ _ _).trans ((Chip.resent_state _ _).trans (Chip.goodFlit_state hp hup))⟩
  case nak8 =>
    refine Answers.of_onChip (exec_onChip_congr (g := fun c => ((c.goodFlit p h).resent p).retrain p) (exec_nak_eq p h s)
      ((if_pos hup).trans (Chip.resend_eighth (Chip.goodFlit_some hp hup hk) ((Chip.goodFlit_resends hp hup).symm ▸ hn)))) fun t hk hc hr => ?_
    exact ⟨hk, Chip.retrained_settled hp ((Chip.resent_state _ _).trans (Chip.goodFlit_state hp hup)) hc hr⟩
  case empty =>
    have hrep := Chip.goodFlit_none (h := h) hp hup hk hq
    exact (exec_onChip_congr (g := fun c => c.goodFlit p h) (exec_nak_eq p h s) ((if_pos hup).trans (Chip.resend_none hrep))).trans
      (exec_onChip_congr (g := fun c => c.goodFlit p h) (exec_idleFlit_eq p h s) (if_pos hup)).symm
  case quiet =>
    exact exec_onChip_congr (exec_replayTimeout_eq p s) ((if_pos hup).trans (Chip.resend_none ((congrArg LinkPort.replay (Chip.advance_lport _ _ _)).trans hk)))
  case replay =>
    obtain ⟨d, hd⟩ : ∃ d, d = s.chip.advance (s.chip.time.now + 4000) := ⟨_, rfl⟩
    have hlp : d.lport p = s.chip.lport p := hd ▸ Chip.advance_lport _ _ _
    have hword : ∀ off < 0x1000, d.wordAt (regAddr (pgRlk p) off) = s.chip.wordAt (regAddr (pgRlk p) off) := fun off ho => hd ▸ Chip.advance_port hp ho
    have hexec := exec_onChip_congr (g := fun _ => d.resent p) (exec_replayTimeout_eq p s) ((if_pos hup).trans (hd ▸
      Chip.resend_again (by rw [hlp]; exact hk) (by rw [hlp]; exact hn)))
    refine Answers.of_onChip hexec fun t hk hc hr => ?_
    have hport := (Chip.lport_of_ports (congrArg LinkState.ports (Chip.settled_link hc).1) p).trans ((Chip.resent_lport _ _).trans
      (congrArg (fun y : LinkPort => { y with resends := y.resends + 1 }) hlp))
    refine ⟨hk, ?_, (congrArg LinkPort.replay hport).trans rfl, (Chip.rd_of_regs hr _ _).trans ((Chip.resent_count _ _).trans (congrArg (· + 1) (hword _ (by decide)))),
      (congrArg LinkPort.resends hport).trans rfl, (Chip.fld_of_regs hr _ _ _ _).trans ((Chip.resent_state _ _).trans ((Chip.portState_of_word (hword _ (by decide))).trans hup))⟩
    rw [(Chip.settled_link hc).2, Chip.resent_time, hd, Chip.advance_now]
    exact Nat.max_eq_right (Nat.le_add_right _ _)
  case replay8 =>
    obtain ⟨d, hd⟩ : ∃ d, d = s.chip.advance (s.chip.time.now + 4000) := ⟨_, rfl⟩
    have hlp : d.lport p = s.chip.lport p := hd ▸ Chip.advance_lport _ _ _
    have hst : d.portState p = lpUp := (Chip.portState_of_word (hd ▸ Chip.advance_port hp (by decide))).trans hup
    have hexec := exec_onChip_congr (g := fun _ => (d.resent p).retrain p) (exec_replayTimeout_eq p s) ((if_pos hup).trans (hd ▸
      Chip.resend_eighth (by rw [hlp]; exact hk) (by rw [hlp]; exact hn)))
    refine Answers.of_onChip hexec fun t hk hc hr => ?_
    exact ⟨hk, Chip.retrained_settled hp ((d.resent_state p).trans hst) hc hr⟩
  case taken => exact exec_onChip_congr (exec_flitReserved_eq p h s) (Chip.onFlit_taken (Chip.seqFlit_inOrder hp hi))
  case reserved =>
    exact (exec_discarded (f := fun c => c.crcError p) (Chip.seqFlit_reserved hup hv) hi).trans (exec_flitCrcError_eq p s).symm
  case order =>
    exact exec_discarded (f := fun c => if (x.rxNext + 1024 - h.seq.toNat) % 1024 ≤ 512 then c.goodFlit p h else (c.goodFlit p h).sendNak p)
      (Chip.seqFlit_outOfOrder hp hup hv hs) hi
  case closed => exact exec_discarded (f := id) (Chip.seqFlit_down hd) hi
  case down =>
    revert i
    exact List.forall_mem_cons.mpr ⟨exec_onChip_congr (exec_flitCrcError_eq p s) (Chip.crcError_down hd), List.forall_mem_cons.mpr
      ⟨exec_onChip_congr (exec_nak_eq p h s) (if_neg hd), List.forall_mem_singleton.mpr (exec_onChip_congr (exec_replayTimeout_eq p s) (if_neg hd))⟩⟩
  case renew => exact exec_onChip_congr (exec_idleFlit_eq p h s) (if_neg hd)

end Sys2Proof.Machine
end


section
/-! Flits sent, and nothing else (chapter 15): the ports' states, credits and leases, and the moments of the transfers, change; what
the chapter and the commands hold stays. -/

namespace Sys2Proof.Machine

/-- From one chip to the next only flits were sent and taken. -/
structure Chip.Sent (c d : Chip) : Prop where
  rest : d = { c with
    link := { c.link with ports := d.link.ports, xfers := d.link.xfers }, vrg := { c.vrg with leases := d.vrg.leases }, regs := d.regs }
  word : ∀ a, ¬portReg a → d.wordAt a = c.wordAt a
  owner : ∀ i, (aget d.link.xfers i).map Xfer.q = (aget c.link.xfers i).map Xfer.q

/-- A register of another page is none of a port's. -/
theorem not_portReg_page {p off : Nat} (hp : p < 0x0B0 ∨ 0x0B3 < p) (ho : off < 0x1000) : ¬portReg (regAddr p off) := by
  intro h
  obtain ⟨q, hq, o, ⟨-, hhi⟩, he⟩ := portReg_off h
  obtain ⟨rfl, -⟩ := regAddr_digits ho (hhi.trans_lt (by decide)) he
  exact hp.elim (Nat.not_lt.mpr (Nat.le_add_right _ _)) (Nat.not_lt.mpr (Nat.le_of_lt_succ (pgRlk_lt hq)))

theorem not_portReg_state (q : Nat) : ¬portReg (regAddr (pgRlk q) 0x044) := fun h => not_chapterReg_state q (.inl h)

namespace Chip.Sent
variable {c d e : Chip}

theorem refl (c : Chip) : c.Sent c := ⟨rfl, fun _ _ => rfl, fun _ => rfl⟩

theorem trans (h : c.Sent d) (k : d.Sent e) : c.Sent e :=
  ⟨by rw [k.rest, h.rest], fun a ha => (k.word a ha).trans (h.word a ha), fun i => (k.owner i).trans (h.owner i)⟩

theorem state (h : c.Sent d) (q : Nat) : d.portState q = c.portState q := Chip.portState_of_word (h.word _ (not_portReg_state q))

theorem fld (h : c.Sent d) {p off : Nat} (lo w : Nat) (hp : p < 0x0B0 ∨ 0x0B3 < p) (ho : off < 0x1000) : d.fld p off lo w = c.fld p off lo w :=
  Chip.fld_of_word (h.word _ (not_portReg_page hp ho)) _ _

theorem bit (h : c.Sent d) {p off : Nat} (b : Nat) (hp : p < 0x0B0 ∨ 0x0B3 < p) (ho : off < 0x1000) : d.bit p off b = c.bit p off b :=
  Chip.bit_of_word (h.word _ (not_portReg_page hp ho)) _

theorem setLport (c : Chip) (p : Nat) (x : LinkPort) : c.Sent (c.setLport p x) := by
  refine ⟨?_, fun a ha => c.setLport_word x fun hp e => ha ⟨p, hp, .inl e⟩, fun i => ?_⟩
  · rw [c.setLport_rest]
  · rw [c.setLport_rest]

theorem setCredits (c : Chip) {p : Nat} (v n : Nat) (hp : p < 4) : c.Sent (c.setCredits p v n) := by
  unfold Chip.setCredits
  split
  · next hv => exact ⟨rfl, fun a ha => Chip.wordAt_wr_ne _ _ fun e => ha ⟨p, hp, .inr ⟨v, hv, e⟩⟩, fun _ => rfl⟩
  · exact refl c

theorem leaseGrant (c : Chip) (n : Nat) : c.Sent (c.leaseGrant n) := ⟨rfl, fun a _ => Chip.wordAt_of_regs rfl a, fun _ => rfl⟩

theorem renewCredit (c : Chip) (p : Nat) : c.Sent (c.renewCredit p) := by
  unfold Chip.renewCredit
  split
  · exact leaseGrant c _
  · exact refl c

theorem markSent (c : Chip) (f : TxFlit) : c.Sent (c.markSent f) := by
  unfold Chip.markSent
  split
  · exact refl c
  · next id _ =>
    split
    · next x hx =>
      refine ⟨rfl, fun a _ => Chip.wordAt_of_regs rfl a, fun i => ?_⟩
      rw [aget_aput]
      split
      · next h => rw [← h, hx]; rfl
      · rfl
    · exact refl c

theorem foldl {α : Type} (f : Chip → α → Chip) (h : ∀ d a, Chip.Sent d (f d a)) (as : List α) (c : Chip) : c.Sent (as.foldl f c) :=
  List.foldlRecOn as f (motive := c.Sent) (refl c) fun d hd a _ => hd.trans (h d a)

theorem freeEntry (c : Chip) (p vc : Nat) : c.Sent (c.freeEntry p vc) := setLport c _ _

theorem freeEntries (c : Chip) (fs : List TxFlit) : c.Sent (c.freeEntries fs) :=
  foldl (fun (c : Chip) (e : Nat × Nat) => c.freeEntry e.1 e.2) (fun d e => freeEntry d e.1 e.2) _ c

theorem drainPort (c : Chip) {p : Nat} (hp : p < 4) : c.Sent (c.drainPort p) := by
  unfold Chip.drainPort
  split
  · exact refl c
  · have hgo := foldl (Chip.sendOne p) (fun d f => (setCredits d f.vc _ hp).trans (markSent _ f)) (c.sendable? p).1 c
    exact (hgo.trans (setLport _ _ _)).trans (freeEntries _ _)

theorem sendFlit (c : Chip) {p : Nat} (f : TxFlit) (hp : p < 4) : c.Sent (c.sendFlit p f) := (setLport c _ _).trans (drainPort _ hp)

theorem sendOn (c : Chip) {p : Nat} (vc : Nat) (b : FlitBody) (hp : p < 4) : c.Sent (c.sendOn p vc b) := sendFlit c _ hp

theorem sendEnums (c : Chip) {ps : List Nat} (h : ∀ p ∈ ps, p < 4) : c.Sent (c.sendEnums ps) := by
  unfold Chip.sendEnums
  split
  · exact refl c
  · exact List.foldlRecOn _ _ (motive := c.Sent) (refl c) fun d hd p hp => hd.trans (sendOn d 4 _ (h p (List.mem_filter.mp hp).1))

theorem goodFlit (c : Chip) {p : Nat} (h : FlitHdr) (hp : p < 4) : c.Sent (c.goodFlit p h) := by
  rw [c.goodFlit_eq]
  exact ((setLport c _ _).trans ((leaseGrant _ _).trans (setCredits _ _ _ hp))).trans (drainPort _ hp)

theorem flitTaken (c : Chip) {p : Nat} (h : FlitHdr) (hp : p < 4) : c.Sent (c.flitTaken p h) := (goodFlit c h hp).trans (setLport _ _ _)

end Chip.Sent

end Sys2Proof.Machine
end


section
/-! The chapter's registers (chapter 15): what forming and leaving the chapter make of them, and the graphs that fail. -/

namespace Sys2Proof.Machine

/-! The chapter's page. -/

theorem Chip.linkMap_of_word {c d : Chip} (h : d.wordAt (regAddr 0x0B4 0x050) = c.wordAt (regAddr 0x0B4 0x050)) : d.linkMap = c.linkMap :=
  congrArg BitVec.toNat h

namespace Chip.Sent
variable {c d : Chip} (h : c.Sent d)
include h

theorem page {off : Nat} (ho : off < 0x1000) : d.wordAt (regAddr 0x0B4 off) = c.wordAt (regAddr 0x0B4 off) := h.word _ (not_portReg_page (by decide) ho)
theorem enabled : d.chEn = c.chEn := Chip.bit_of_word (h.page (by decide)) _
theorem head : d.chHead = c.chHead := Chip.bit_of_word (h.page (by decide)) _
theorem torus : d.chTorus = c.chTorus := Chip.bit_of_word (h.page (by decide)) _
theorem expect : d.chExpect = c.chExpect := congrArg (· + 1) (Chip.fld_of_word (h.page (by decide)) _ _)
theorem posValid : d.chPosValid = c.chPosValid := Chip.bit_of_word (h.page (by decide)) _
theorem position : d.chPos = c.chPos := Chip.fld_of_word (h.page (by decide)) _ _
theorem chapterState : d.chState = c.chState := Chip.fld_of_word (h.page (by decide)) _ _
theorem map : d.linkMap = c.linkMap := Chip.linkMap_of_word (h.page (by decide))
theorem epoch : d.linkEpoch = c.linkEpoch := Chip.fld_of_word (h.page (by decide)) _ _

end Chip.Sent

/-! The status word. -/

/-- CH_STATUS as `setChapter` forms it. -/
def chapterWord (live members size : Nat) (valid : Bool) (pos state : Nat) : Nat :=
  live * 2 ^ 24 + members * 2 ^ 16 + size * 2 ^ 12 + valid.toNat * 2 ^ 8 + pos * 2 ^ 4 + state

theorem Chip.setChapter_word (c : Chip) (live members size : Nat) (valid : Bool) (pos state : Nat) {a : Nat} (h : a ≠ regAddr 0x0B4 0x044)
    (h' : a ≠ regAddr 0x010 0x04C) : (c.setChapter live members size valid pos state).wordAt a = c.wordAt a :=
  (Chip.wordAt_wr_ne _ _ h').trans (Chip.wordAt_wr_ne _ _ h)

theorem Chip.setChapter_status (c : Chip) (live members size : Nat) (valid : Bool) (pos state : Nat) :
    (c.setChapter live members size valid pos state).wordAt (regAddr 0x0B4 0x044) = word (chapterWord live members size valid pos state) :=
  (Chip.wordAt_wr_ne _ _ (by decide)).trans ((Chip.wordAt_wr _ _ _ _ _).trans (if_pos rfl))

/-- The fields of a status word. -/
structure Chip.Chapter (c : Chip) (live members size : Nat) (valid : Bool) (pos state : Nat) : Prop where
  live : c.chLive = live
  members : c.members = members
  size : c.fld 0x0B4 0x044 12 4 = size
  valid : c.chPosValid = valid
  pos : c.chPos = pos
  state : c.chState = state

section
variable {live members size pos state lo w : Nat} {valid : Bool}

theorem chapterWord_eq (live members size : Nat) (valid : Bool) (pos state : Nat) : chapterWord live members size valid pos state =
    live * 2 ^ 24 + (members * 2 ^ 16 + (size * 2 ^ 12 + (valid.toNat * 2 ^ 8 + (pos * 2 ^ 4 + state)))) := by
  simp only [chapterWord, Nat.add_assoc]

/-- The fields below MEMBERS, and those below the size. -/
theorem chapterWord_low16 (h : lo + w ≤ 16) : bits (chapterWord live members size valid pos state) lo w =
    bits (size * 2 ^ 12 + (valid.toNat * 2 ^ 8 + (pos * 2 ^ 4 + state))) lo w :=
  (congrArg (bits · lo w) (chapterWord_eq _ _ _ _ _ _)).trans ((bits_add_high _ _ (h.trans (by decide))).trans (bits_add_high _ _ h))

theorem chapterWord_low8 (h : lo + w ≤ 8) : bits (chapterWord live members size valid pos state) lo w = bits (pos * 2 ^ 4 + state) lo w :=
  (chapterWord_low16 (h.trans (by decide))).trans ((bits_add_high _ _ (h.trans (by decide))).trans (bits_add_high _ _ h))

theorem chapterWord_state (hst : state < 8) : bits (chapterWord live members size valid pos state) 0 3 = state :=
  (chapterWord_low8 (by decide)).trans ((bits_add_high _ _ (by decide)).trans ((congrArg (· % 8) (Nat.div_one state)).trans (Nat.mod_eq_of_lt hst)))

variable (hst : state < 8)
include hst

theorem chapterWord_pos (hp : pos < 8) : bits (chapterWord live members size valid pos state) 4 3 = pos :=
  (chapterWord_low8 (by decide)).trans ((bits_mul_add _ _ (hst.trans (by decide))).trans (Nat.mod_eq_of_lt hp))

variable (hp : pos < 8)
include hp

theorem chapterLow_lt : pos * 2 ^ 4 + state < 2 ^ 8 := (digit_lt hp (hst.trans (by decide : 8 < 2 ^ 4))).trans (by decide)

theorem chapterWord_valid : bits (chapterWord live members size valid pos state) 8 1 = valid.toNat :=
  (chapterWord_low16 (by decide)).trans ((bits_add_high _ _ (by decide)).trans ((bits_mul_add _ _ (chapterLow_lt hst hp)).trans (Nat.mod_eq_of_lt valid.toNat_lt)))

theorem chapterMid_lt : valid.toNat * 2 ^ 8 + (pos * 2 ^ 4 + state) < 2 ^ 12 := (digit_lt valid.toNat_lt (chapterLow_lt hst hp)).trans (by decide)

theorem chapterWord_size (hs : size < 16) : bits (chapterWord live members size valid pos state) 12 4 = size :=
  (chapterWord_low16 (by decide)).trans ((bits_mul_add _ _ (chapterMid_lt hst hp)).trans (Nat.mod_eq_of_lt hs))

variable (hs : size < 16)
include hs

theorem chapterBelow_lt : size * 2 ^ 12 + (valid.toNat * 2 ^ 8 + (pos * 2 ^ 4 + state)) < 2 ^ 16 := digit_lt (m := 16) hs (chapterMid_lt hst hp)

theorem chapterWord_members (hm : members < 256) : bits (chapterWord live members size valid pos state) 16 8 = members :=
  (congrArg (bits · 16 8) (chapterWord_eq _ _ _ _ _ _)).trans ((bits_add_high _ _ (by decide)).trans
    ((bits_mul_add _ _ (chapterBelow_lt hst hp hs)).trans (Nat.mod_eq_of_lt hm)))

theorem chapterWord_live (hm : members < 256) (hl : live < 256) : bits (chapterWord live members size valid pos state) 24 8 = live :=
  (congrArg (bits · 24 8) (chapterWord_eq _ _ _ _ _ _)).trans ((bits_mul_add _ _ (digit_lt (m := 256) hm (chapterBelow_lt hst hp hs))).trans
    (Nat.mod_eq_of_lt hl))

end

theorem Chip.chapter_of_status {c : Chip} {live members size pos state : Nat} {valid : Bool}
    (h : c.wordAt (regAddr 0x0B4 0x044) = word (chapterWord live members size valid pos state)) (hl : live < 256) (hm : members < 256) (hs : size < 16)
    (hp : pos < 8) (hst : state < 8) : c.Chapter live members size valid pos state := by
  have hfld : ∀ {lo w}, lo + w ≤ 32 → c.fld 0x0B4 0x044 lo w = bits (chapterWord live members size valid pos state) lo w := fun {lo w} hle =>
    (congrArg (fun x : Word => bits x.toNat lo w) h).trans (bits_word _ hle)
  refine ⟨(hfld (by decide)).trans (chapterWord_live hst hp hs hm hl), (hfld (by decide)).trans (chapterWord_members hst hp hs hm),
    (hfld (by decide)).trans (chapterWord_size hst hp hs), ?_, (hfld (by decide)).trans (chapterWord_pos hst hp), (hfld (by decide)).trans (chapterWord_state hst)⟩
  rw [Chip.chPosValid, Chip.bit, hfld (by decide), chapterWord_valid hst hp]
  cases valid <;> rfl

/-! PRC STATUS.HEAD and the graph slots. -/

theorem pgSlot_ne {p g : Nat} (hp : 0x020 ≤ p) (hg : g < 8) : p ≠ pgSlot g := (Nat.ne_of_lt ((Nat.add_lt_add_left hg 0x018).trans_le hp)).symm

theorem slotReg_ne {g k off : Nat} (h : k ≠ g) (ho : off < 0x1000) : ∀ o < 0x1000, regAddr (pgSlot g) off ≠ regAddr (pgSlot k) o := fun _ =>
  regAddr_page_ne _ _ _ _ (fun e => h (Nat.add_left_cancel e).symm) ho

/-- The registers in which the head shows. -/
def headShown : List Nat := regAddr 0x010 0x010 :: (List.range 8).map fun g => regAddr (pgSlot g) 0x080

/-- HEAD shown as it is given. -/
def Chip.headAs (c : Chip) (h : Bool) : Chip := (List.range 8).foldl (fun (c : Chip) g => c.setBit (pgSlot g) 0x080 16 h) (c.setBit 0x010 0x010 8 h)

theorem Chip.showHead_eq (c : Chip) : c.showHead = c.headAs (!c.chEn || c.chHead) := rfl

theorem Chip.headAs_words (c : Chip) (h : Bool) : c.WordsBut (c.headAs h) headShown := by
  have h0 : c.WordsBut (c.setBit 0x010 0x010 8 h) headShown := .setBit c _ _ (List.mem_cons_self ..)
  have hstep : ∀ (d : Chip) (g : Nat), g ∈ List.range 8 → d.WordsBut (d.setBit (pgSlot g) 0x080 16 h) headShown := fun d g hg =>
    .setBit d _ _ (List.mem_cons_of_mem _ (List.mem_map_of_mem hg))
  exact List.foldlRecOn (List.range 8) (fun (c : Chip) g => c.setBit (pgSlot g) 0x080 16 h) (motive := fun d : Chip => c.WordsBut d headShown) h0
    fun d hd g hg => hd.trans (hstep d g hg)

theorem Chip.showHead_words (c : Chip) : c.WordsBut c.showHead headShown := c.headAs_words _

theorem Chip.showHead_word (c : Chip) {p off : Nat} (hp : 0x020 ≤ p) (ho : off < 0x1000) : c.showHead.wordAt (regAddr p off) = c.wordAt (regAddr p off) := by
  refine c.showHead_words.word _ fun hm => ?_
  rcases List.mem_cons.mp hm with he | hm
  · exact regAddr_page_ne _ _ _ _ (fun e => absurd (e ▸ hp) (by decide)) ho (by decide) he
  · obtain ⟨g, hg, he⟩ := List.mem_map.mp hm
    exact regAddr_page_ne _ _ _ _ (pgSlot_ne hp (List.mem_range.mp hg)) ho (by decide) he.symm

/-- The slots keep their states. -/
theorem Chip.showHead_slot (c : Chip) (g : Nat) : c.showHead.fld (pgSlot g) 0x080 0 3 = c.fld (pgSlot g) 0x080 0 3 := by
  have hbit : ∀ (d : Chip) (k : Nat) (v : Bool), (d.setBit (pgSlot k) 0x080 16 v).fld (pgSlot g) 0x080 0 3 = d.fld (pgSlot g) 0x080 0 3 := fun d k v => by
    by_cases hk : k = g
    · subst hk; exact Chip.fld_setBit_other _ _ _ _ _ _ _ (by decide) (by decide)
    · exact Chip.fld_setBit_ne _ _ _ _ _ _ _ _ _ (slotReg_ne hk (by decide) _ (by decide)).symm
  have hinit : ∀ v, (c.setBit 0x010 0x010 8 v).fld (pgSlot g) 0x080 0 3 = c.fld (pgSlot g) 0x080 0 3 := fun v =>
    Chip.fld_setBit_ne _ _ _ _ _ _ _ _ _ (regAddr_page_ne _ _ _ _ (Nat.ne_of_lt (Nat.lt_add_right g (by decide))) (by decide) (by decide))
  rw [c.showHead_eq, Chip.headAs]
  exact List.foldlRecOn (List.range 8) _ (motive := fun d : Chip => d.fld (pgSlot g) 0x080 0 3 = c.fld (pgSlot g) 0x080 0 3) (hinit _)
    fun d hd k _ => (hbit d k _).trans hd

/-- A running graph of a slot fails. -/
def Chip.failGraph (c : Chip) (g : Nat) : Chip :=
  if 3 ≤ c.fld (pgSlot g) 0x080 0 3 ∧ c.fld (pgSlot g) 0x080 0 3 ≤ 5 then (c.setFld (pgSlot g) 0x080 0 3 6).raise (pgSlot g) 4 else c

theorem Chip.failGraphs_eq (c : Chip) : c.failGraphs = (List.range 8).foldl Chip.failGraph c := rfl

theorem Chip.failGraph_word (c : Chip) (g : Nat) {a : Nat} (h : a ≠ regAddr (pgSlot g) 0x080) (h' : a ≠ regAddr (pgSlot g) 0x014) :
    (c.failGraph g).wordAt a = c.wordAt a := by
  exact iteInduction (motive := fun d : Chip => d.wordAt a = c.wordAt a) (fun _ => (Chip.wordAt_wr_ne _ _ h').trans (Chip.wordAt_wr_ne _ _ h)) fun _ => rfl

theorem Chip.failGraph_rest (c : Chip) (g : Nat) : c.failGraph g = { c with regs := (c.failGraph g).regs } := by
  unfold Chip.failGraph
  split <;> rfl

theorem Chip.regsOnly_trans {c d e : Chip} (h : d = { c with regs := d.regs }) (k : e = { d with regs := e.regs }) : e = { c with regs := e.regs } := by
  rw [k, h]

theorem Chip.failGraphs_rest (c : Chip) : c.failGraphs = { c with regs := c.failGraphs.regs } := by
  rw [c.failGraphs_eq]
  exact List.foldlRecOn (List.range 8) _ (motive := fun d : Chip => d = { c with regs := d.regs }) rfl fun d hd g _ =>
    Chip.regsOnly_trans hd (d.failGraph_rest g)

theorem Chip.failGraphs_word (c : Chip) {p off : Nat} (hp : 0x020 ≤ p) (ho : off < 0x1000) : c.failGraphs.wordAt (regAddr p off) = c.wordAt (regAddr p off) := by
  rw [c.failGraphs_eq]
  refine List.foldlRecOn (List.range 8) _ (motive := fun d : Chip => d.wordAt (regAddr p off) = c.wordAt (regAddr p off)) rfl fun d hd g hg => ?_
  have hne := fun o (hlt : o < 0x1000) => regAddr_page_ne _ _ _ o (pgSlot_ne hp (List.mem_range.mp hg)) ho hlt
  exact (d.failGraph_word g (hne _ (by decide)) (hne _ (by decide))).trans hd

theorem Chip.failGraphs_slot (c : Chip) {g : Nat} (hg : g < 8) (h : 3 ≤ c.fld (pgSlot g) 0x080 0 3 ∧ c.fld (pgSlot g) 0x080 0 3 ≤ 5) :
    c.failGraphs.fld (pgSlot g) 0x080 0 3 = 6 := by
  have hother : ∀ (d : Chip) (k : Nat), k ≠ g → (d.failGraph k).fld (pgSlot g) 0x080 0 3 = d.fld (pgSlot g) 0x080 0 3 := fun d k hk =>
    Chip.fld_of_word (d.failGraph_word k (slotReg_ne hk (by decide) _ (by decide)) (slotReg_ne hk (by decide) _ (by decide))) _ _
  have hself : ∀ d : Chip, 3 ≤ d.fld (pgSlot g) 0x080 0 3 ∧ d.fld (pgSlot g) 0x080 0 3 ≤ 5 → (d.failGraph g).fld (pgSlot g) 0x080 0 3 = 6 := fun d hd => by
    unfold Chip.failGraph
    rw [if_pos hd, Chip.fld_raise_ne _ _ _ _ _ _ _ (regAddr_off_ne _ _ _ (by decide)), Chip.fld_setFld_same _ _ _ _ _ _ (by decide)]
    rfl
  have hfold : ∀ (ks : List Nat) (d : Chip), ks.Nodup → 3 ≤ d.fld (pgSlot g) 0x080 0 3 ∧ d.fld (pgSlot g) 0x080 0 3 ≤ 5 → g ∈ ks →
      (ks.foldl Chip.failGraph d).fld (pgSlot g) 0x080 0 3 = 6 := fun ks => by
    induction ks with
    | nil => exact fun _ _ _ hm => absurd hm List.not_mem_nil
    | cons k ks ih =>
      intro d hn hd hm
      obtain ⟨hnot, hn⟩ := List.nodup_cons.mp hn
      by_cases hk : k = g
      · subst hk
        exact (List.foldlRecOn ks _ (motive := fun e : Chip => e.fld (pgSlot k) 0x080 0 3 = (d.failGraph k).fld (pgSlot k) 0x080 0 3) rfl
          fun e he j hj => (hother e j fun e => hnot (e ▸ hj)).trans he).trans (hself d hd)
      · exact ih _ hn (by rw [hother d k hk]; exact hd) ((List.mem_cons.mp hm).resolve_left (Ne.symm hk))
  exact hfold _ c List.nodup_range h (List.mem_range.mpr hg)

end Sys2Proof.Machine
end


section
/-! Chapter time over the link (R370): the exchange of a child with its parent. -/

namespace Sys2Proof.Machine

/-! Time stamps of 7 ns. -/

theorem Chip.stamp_within (c : Chip) : ∃ d : Nat, d ≤ 14 ∧ (c.stamp 7).1 = (c.time.tb.toNat + d + 2 ^ 64 - 7) % 2 ^ 64 :=
  ⟨Config.stampError c.time.free % 15, Nat.le_of_lt_succ (Nat.mod_lt _ (by decide)), rfl⟩

theorem Chip.stamp_rest (c : Chip) : (c.stamp 7).2 = { c with time := { c.time with free := c.time.free + 1 } } := rfl

/-! The child's request. -/

/-- The chip at the moment of its next exchange. -/
def Chip.tsDue (c : Chip) : Chip :=
  match c.link.tsLast with
  | some t => c.advanceTb (t + 2 ^ 20)
  | none => c

/-- The request of a child sent. -/
def Chip.tsAsked (c : Chip) : Chip :=
  { (c.stamp 7).2 with link := { (c.stamp 7).2.link with tsT1 := some (c.stamp 7).1, tsLast := some c.time.tb.toNat } }

theorem exec_tsyncExchange_eq (s : State) : exec .tsyncExchange s =
    .next (s.onChip fun c => if c.chEn && !c.chHead && c.chState == chUp && (c.route 0).isSome then c.tsDue.tsAsked else c) := rfl

theorem tsyncExchange_child {s : State} (h : (s.chip.chEn && !s.chip.chHead && s.chip.chState == chUp && (s.chip.route 0).isSome) = true) :
    Answers .tsyncExchange s fun t => s.keepsMem t ∧ t.chip.link.tsLast = some t.chip.time.tb.toNat ∧
      (s.chip.link.tsLast = none → t.chip.time.now = s.chip.time.now) ∧
      (∀ e, s.chip.link.tsLast = some e → t.chip.time.tb = (s.chip.advanceTb (e + 2 ^ 20)).time.tb) ∧
      ∃ d : Nat, d ≤ 14 ∧ t.chip.link.tsT1 = some ((t.chip.time.tb.toNat + d + 2 ^ 64 - 7) % 2 ^ 64) := by
  refine Answers.of_onChip (exec_onChip_congr (exec_tsyncExchange_eq s) (g := fun c => c.tsDue.tsAsked) (if_pos h)) fun t hk hc _ => ?_
  have hlink : t.chip.link = s.chip.tsDue.tsAsked.link := (Chip.settled_link hc).1
  have htime : t.chip.time = { s.chip.tsDue.time with free := s.chip.tsDue.time.free + 1 } := (Chip.settled_link hc).2
  have htb : t.chip.time.tb = s.chip.tsDue.time.tb := (congrArg TimeState.tb htime).trans rfl
  exact ⟨hk, (congrArg LinkState.tsLast hlink).trans (congrArg (fun x : DWord => some x.toNat) htb.symm),
    fun hn => (congrArg TimeState.now htime).trans (show s.chip.tsDue.time.now = _ by rw [Chip.tsDue, hn]), fun e he => htb.trans (by rw [Chip.tsDue, he]),
    Config.stampError s.chip.tsDue.time.free % 15, Nat.le_of_lt_succ (Nat.mod_lt _ (by decide)),
    (congrArg LinkState.tsT1 hlink).trans (congrArg (fun x : DWord => some ((x.toNat + Config.stampError s.chip.tsDue.time.free % 15 + 2 ^ 64 - 7) % 2 ^ 64)) htb.symm)⟩

/-! The answer. -/

/-- The offset that an answer at a time gives the child. -/
def tsOffset (t1 t2 t3 t4 : Nat) : Int := (t1 : Int) - (t2 - (((t4 : Int) - t1) - ((t3 : Int) - t2) + 1) / 2)

/-- The child once it has taken its offset. -/
def Chip.tsTaken (c : Chip) (o : Int) : Chip :=
  Chip.tsLock (Chip.wr { (c.stamp 7).2 with link := { (c.stamp 7).2.link with tsT1 := none } } 0x0B4 0x058 (BitVec.ofInt 32 o)) (decide (o.natAbs < 100))

/-- The child's correction of its timebase. -/
def Chip.tsMoved (c : Chip) (o : Int) : Chip :=
  let moved := c.link.tsLast.map fun t => ((t : Int) - o).toNat
  if c.link.tsFirst then { c.stepBy (-o) with link := { c.link with tsFirst := false, tsLast := moved } }
  else if 1000000 ≤ o.natAbs then { c.stepBy (-o) with link := { c.link with tsLast := moved } }.setBit 0x0B4 0x05C 0 false
  else c.wr 0x0D0 0x054 (BitVec.ofInt 32 (-o))

section
variable {c : Chip} {t1 : Nat}

theorem Chip.tsyncAnswer_other (h : c.link.tsT1 ≠ some t1) (t2 t3 : Nat) : c.tsyncAnswer t1 t2 t3 = c := if_pos h

theorem Chip.tsyncAnswer_own (h : c.link.tsT1 = some t1) (t2 t3 : Nat) :
    c.tsyncAnswer t1 t2 t3 = (c.tsTaken (tsOffset t1 t2 t3 (c.stamp 7).1)).tsMoved (tsOffset t1 t2 t3 (c.stamp 7).1) :=
  if_neg (not_not.mpr h)

end

/-! TS_LOCK. -/

section
variable (c : Chip)

/-- The counts of exchanges in a row. -/
def Chip.tsCounted (c : Chip) (good : Bool) : Chip :=
  { c with link := { c.link with tsGood := min (if good then c.link.tsGood + 1 else 0) 3, tsBad := min (if good then 0 else c.link.tsBad + 1) 3 } }

theorem Chip.tsLock_eq (good : Bool) : c.tsLock good = if 3 ≤ (if good then c.link.tsGood + 1 else 0) then (c.tsCounted good).setBit 0x0B4 0x05C 0 true
    else if 3 ≤ (if good then 0 else c.link.tsBad + 1) then (c.tsCounted good).setBit 0x0B4 0x05C 0 false else c.tsCounted good := rfl

theorem Chip.tsLock_good (h : 2 ≤ c.link.tsGood) : (c.tsLock true).bit 0x0B4 0x05C 0 = true :=
  (congrArg (·.bit 0x0B4 0x05C 0) ((c.tsLock_eq true).trans (if_pos (Nat.succ_le_succ h)))).trans (Chip.bit_setBit_same _ _ _ _ _ (by decide))

theorem Chip.tsLock_bad (h : 2 ≤ c.link.tsBad) : (c.tsLock false).bit 0x0B4 0x05C 0 = false := by
  have hgood : ¬3 ≤ (if false = true then c.link.tsGood + 1 else 0) := fun h => absurd h (by decide : ¬3 ≤ 0)
  exact (congrArg (·.bit 0x0B4 0x05C 0) ((c.tsLock_eq false).trans ((if_neg hgood).trans (if_pos (Nat.succ_le_succ h))))).trans
    (Chip.bit_setBit_same _ _ _ _ _ (by decide))

theorem Chip.tsLock_induction {P : Chip → Prop} (good : Bool) (hset : ∀ v, P ((c.tsCounted good).setBit 0x0B4 0x05C 0 v)) (hkeep : P (c.tsCounted good)) :
    P (c.tsLock good) :=
  c.tsLock_eq good ▸ iteInduction (fun _ => hset _) fun _ => iteInduction (fun _ => hset _) fun _ => hkeep

theorem Chip.tsLock_time (good : Bool) : (c.tsLock good).time = c.time := c.tsLock_induction (P := fun d => d.time = c.time) good (fun _ => rfl) rfl
theorem Chip.tsLock_own (good : Bool) : (c.tsLock good).link.tsT1 = c.link.tsT1 :=
  c.tsLock_induction (P := fun d => d.link.tsT1 = c.link.tsT1) good (fun _ => rfl) rfl
theorem Chip.tsLock_first (good : Bool) : (c.tsLock good).link.tsFirst = c.link.tsFirst :=
  c.tsLock_induction (P := fun d => d.link.tsFirst = c.link.tsFirst) good (fun _ => rfl) rfl
theorem Chip.tsLock_rd (good : Bool) : (c.tsLock good).rd 0x0B4 0x058 = c.rd 0x0B4 0x058 :=
  c.tsLock_induction (P := fun d => d.rd 0x0B4 0x058 = c.rd 0x0B4 0x058) good (fun _ => Chip.rd_setBit_ne _ _ _ _ _ _ _ (by decide)) rfl

end

/-! The correction. -/

section
variable {c : Chip} {o : Int}

theorem Chip.stepBy_regs (c : Chip) (v : Int) : (c.stepBy v).regs = c.regs := by
  unfold Chip.stepBy
  split <;> rfl

theorem Chip.stepBy_step (v : Int) (h : c.time.tbStep = none) : (c.stepBy v).time.tbStep = some (BitVec.ofInt 64 ((c.time.tb.toNat : Int) + 40 + v)) := by
  rw [Chip.stepBy, h]
  rfl

/-- The link's state once a step of the timebase has been taken. -/
def Chip.tsStepped (c : Chip) (o : Int) : LinkState := { c.link with tsLast := c.link.tsLast.map fun t => ((t : Int) - o).toNat }

theorem Chip.tsMoved_first (hf : c.link.tsFirst = true) : c.tsMoved o = { c.stepBy (-o) with link := { c.tsStepped o with tsFirst := false } } := if_pos hf

section
variable (hf : c.link.tsFirst = false)
include hf

theorem Chip.tsMoved_steps (ho : 1000000 ≤ o.natAbs) :
    c.tsMoved o = Chip.setBit { c.stepBy (-o) with link := c.tsStepped o } 0x0B4 0x05C 0 false :=
  (if_neg (Bool.eq_false_iff.mp hf)).trans (if_pos ho)

theorem Chip.tsMoved_slews (ho : o.natAbs < 1000000) : c.tsMoved o = c.wr 0x0D0 0x054 (BitVec.ofInt 32 (-o)) :=
  (if_neg (Bool.eq_false_iff.mp hf)).trans (if_neg (Nat.not_le.mpr ho))

end

theorem Chip.tsMoved_induction (P : Chip → Prop)
    (hfirst : c.link.tsFirst = true → P { c.stepBy (-o) with link := { c.tsStepped o with tsFirst := false } })
    (hstep : c.link.tsFirst = false → P (Chip.setBit { c.stepBy (-o) with link := c.tsStepped o } 0x0B4 0x05C 0 false))
    (hslew : c.link.tsFirst = false → P (c.wr 0x0D0 0x054 (BitVec.ofInt 32 (-o)))) : P (c.tsMoved o) :=
  iteInduction hfirst fun hf => iteInduction (fun _ => hstep (Bool.eq_false_iff.mpr hf)) fun _ => hslew (Bool.eq_false_iff.mpr hf)

theorem Chip.tsMoved_own : (c.tsMoved o).link.tsT1 = c.link.tsT1 :=
  Chip.tsMoved_induction (fun d => d.link.tsT1 = c.link.tsT1) (fun _ => rfl) (fun _ => rfl) fun _ => rfl

theorem Chip.tsMoved_done : (c.tsMoved o).link.tsFirst = false :=
  Chip.tsMoved_induction (fun d => d.link.tsFirst = false) (fun _ => rfl) (fun hf => hf) fun hf => hf

theorem Chip.tsMoved_rd : (c.tsMoved o).rd 0x0B4 0x058 = c.rd 0x0B4 0x058 :=
  Chip.tsMoved_induction (fun d => d.rd 0x0B4 0x058 = c.rd 0x0B4 0x058) (fun _ => Chip.rd_of_regs (c.stepBy_regs (-o)) _ _)
    (fun _ => (Chip.rd_setBit_ne _ _ _ _ _ _ _ (by decide)).trans (Chip.rd_of_regs (c.stepBy_regs (-o)) _ _)) fun _ => Chip.rd_wr_ne _ _ _ _ _ _ (by decide)

theorem Chip.tsMoved_step (h : c.link.tsFirst = true ∨ 1000000 ≤ o.natAbs) (hn : c.time.tbStep = none) :
    (c.tsMoved o).time.tbStep = some (BitVec.ofInt 64 ((c.time.tb.toNat : Int) + 40 - o)) := by
  have hstep := Chip.stepBy_step (-o) hn
  cases hf : c.link.tsFirst with
  | true => exact (congrArg (·.time.tbStep) (Chip.tsMoved_first hf)).trans hstep
  | false => exact (congrArg (·.time.tbStep) (Chip.tsMoved_steps hf (h.resolve_left (Bool.eq_false_iff.mp hf)))).trans hstep

/-- A correction that is no step of a later exchange leaves TS_LOCK. -/
theorem Chip.tsMoved_lock (h : c.link.tsFirst = true ∨ o.natAbs < 1000000) : (c.tsMoved o).bit 0x0B4 0x05C 0 = c.bit 0x0B4 0x05C 0 := by
  cases hf : c.link.tsFirst with
  | true => exact (congrArg (·.bit 0x0B4 0x05C 0) (Chip.tsMoved_first hf)).trans (Chip.bit_of_regs (c.stepBy_regs (-o)) _ _ _)
  | false =>
    exact (congrArg (·.bit 0x0B4 0x05C 0) (Chip.tsMoved_slews hf (h.resolve_left (Bool.eq_false_iff.mp hf)))).trans (Chip.bit_wr_ne _ _ _ _ _ _ _ (by decide))

end

/-! An offset taken and corrected. -/

section
variable {c d : Chip} {o : Int}

theorem Chip.tsTaken_own : (c.tsTaken o).link.tsT1 = none := Chip.tsLock_own _ _
theorem Chip.tsTaken_first : (c.tsTaken o).link.tsFirst = c.link.tsFirst := Chip.tsLock_first _ _
theorem Chip.tsTaken_time : (c.tsTaken o).time = { c.time with free := c.time.free + 1 } := Chip.tsLock_time _ _
theorem Chip.tsTaken_tb : (c.tsTaken o).time.tb = c.time.tb := (congrArg TimeState.tb Chip.tsTaken_time).trans rfl
theorem Chip.tsTaken_step : (c.tsTaken o).time.tbStep = c.time.tbStep := (congrArg TimeState.tbStep Chip.tsTaken_time).trans rfl
theorem Chip.tsTaken_rd : (c.tsTaken o).rd 0x0B4 0x058 = BitVec.ofInt 32 o := (Chip.tsLock_rd _ _).trans (Chip.rd_wr_same _ _ _ _)

theorem Chip.tsTaken_good (ho : o.natAbs < 100) (h : 2 ≤ c.link.tsGood) : (c.tsTaken o).bit 0x0B4 0x05C 0 = true := by
  rw [Chip.tsTaken, decide_eq_true ho]
  exact Chip.tsLock_good _ h

theorem Chip.tsTaken_bad (ho : 100 ≤ o.natAbs) (h : 2 ≤ c.link.tsBad) : (c.tsTaken o).bit 0x0B4 0x05C 0 = false := by
  rw [Chip.tsTaken, decide_eq_false (Nat.not_lt.mpr ho)]
  exact Chip.tsLock_bad _ h

variable (hr : d.regs = ((c.tsTaken o).tsMoved o).regs)
include hr

theorem Chip.tsCorrected_rd : d.rd 0x0B4 0x058 = BitVec.ofInt 32 o := (Chip.rd_of_regs hr _ _).trans (Chip.tsMoved_rd.trans Chip.tsTaken_rd)

theorem Chip.tsCorrected_slew (hf : c.link.tsFirst = false) (ho : o.natAbs < 1000000) : d.rd 0x0D0 0x054 = BitVec.ofInt 32 (-o) := by
  rw [Chip.rd_of_regs hr, Chip.tsMoved_slews (Chip.tsTaken_first.trans hf) ho, Chip.rd_wr_same]

theorem Chip.tsCorrected_clear (hf : c.link.tsFirst = false) (ho : 1000000 ≤ o.natAbs) : d.bit 0x0B4 0x05C 0 = false := by
  rw [Chip.bit_of_regs hr, Chip.tsMoved_steps (Chip.tsTaken_first.trans hf) ho]
  exact Chip.bit_setBit_same _ _ _ _ _ (by decide)

theorem Chip.tsCorrected_lock (h : c.link.tsFirst = true ∨ o.natAbs < 1000000) : d.bit 0x0B4 0x05C 0 = (c.tsTaken o).bit 0x0B4 0x05C 0 :=
  (Chip.bit_of_regs hr _ _ _).trans (Chip.tsMoved_lock (h.imp_left Chip.tsTaken_first.trans))

theorem Chip.tsCorrected_good (ho : o.natAbs < 100) (h : 2 ≤ c.link.tsGood) : d.bit 0x0B4 0x05C 0 = true :=
  (Chip.tsCorrected_lock hr (.inr (ho.trans (by decide)))).trans (Chip.tsTaken_good ho h)

theorem Chip.tsCorrected_bad (ho : 100 ≤ o.natAbs) (h : 2 ≤ c.link.tsBad) : d.bit 0x0B4 0x05C 0 = false := by
  by_cases hs : c.link.tsFirst = true ∨ o.natAbs < 1000000
  · exact (Chip.tsCorrected_lock hr hs).trans (Chip.tsTaken_bad ho h)
  · exact Chip.tsCorrected_clear hr (Bool.eq_false_iff.mpr (not_or.mp hs).1) (Nat.not_lt.mp (not_or.mp hs).2)

end

/-! TSYNC. -/

section
variable (p : Fin 4) (h : FlitHdr) (s : State)

theorem exec_tsync_eq (m : TsyncMsg) : exec (.tsync p ⟨h, m⟩) s =
    .next (s.onChip fun c => if c.portState p = lpUp then (c.goodFlit p h).tsyncRx m else c) := rfl

end

section
variable {p : Fin 4} {h : FlitHdr} {s : State}

theorem exec_tsync (hup : s.chip.portState p = lpUp) (m : TsyncMsg) : exec (.tsync p ⟨h, m⟩) s = .next (s.onChip fun c => (c.goodFlit p h).tsyncRx m) :=
  exec_onChip_congr (exec_tsync_eq p h s m) (if_pos hup)

/-- The parent answers with its times. -/
def Chip.tsReplied (c : Chip) (t1 : Nat) : Chip :=
  let d := (c.stamp 7).2
  { (d.stamp 7).2 with link := { (d.stamp 7).2.link with tsReply := [t1, (c.stamp 7).1, (d.stamp 7).1] } }

theorem Chip.tsReplied_reply (c : Chip) (t1 : Nat) : (c.tsReplied t1).link.tsReply = [t1, (c.time.tb.toNat + Config.stampError c.time.free % 15 + 2 ^ 64 - 7) % 2 ^ 64,
    (c.time.tb.toNat + Config.stampError (c.time.free + 1) % 15 + 2 ^ 64 - 7) % 2 ^ 64] := rfl

theorem tsync_request (hup : s.chip.portState p = lpUp) (t1 : DWord) : Answers (.tsync p ⟨h, .request t1⟩) s fun t => s.keepsMem t ∧
    ∃ d : Nat, ∃ e : Nat, d ≤ 14 ∧ e ≤ 14 ∧ t.chip.link.tsReply =
      [t1.toNat, (s.chip.time.tb.toNat + d + 2 ^ 64 - 7) % 2 ^ 64, (s.chip.time.tb.toNat + e + 2 ^ 64 - 7) % 2 ^ 64] := by
  have htime : (s.chip.goodFlit p h).time = s.chip.time := (Chip.goodFlit_spec p.isLt hup).time
  refine Answers.of_onChip (exec_onChip_congr (exec_tsync hup _) (g := fun c => (c.goodFlit p h).tsReplied t1.toNat) rfl) fun t hk hc _ => ?_
  refine ⟨hk, Config.stampError (s.chip.goodFlit p h).time.free % 15, Config.stampError ((s.chip.goodFlit p h).time.free + 1) % 15,
    Nat.le_of_lt_succ (Nat.mod_lt _ (by decide)), Nat.le_of_lt_succ (Nat.mod_lt _ (by decide)), (congrArg LinkState.tsReply (Chip.settled_link hc).1).trans
    ((Chip.tsReplied_reply _ _).trans ?_)⟩
  exact congrArg (fun x : TimeState => [t1.toNat, (x.tb.toNat + Config.stampError (s.chip.goodFlit p h).time.free % 15 + 2 ^ 64 - 7) % 2 ^ 64,
    (x.tb.toNat + Config.stampError ((s.chip.goodFlit p h).time.free + 1) % 15 + 2 ^ 64 - 7) % 2 ^ 64]) htime

theorem tsync_other (hup : s.chip.portState p = lpUp) {t1 : DWord} (hown : s.chip.link.tsT1 ≠ some t1.toNat) (t2 t3 : DWord) :
    exec (.tsync p ⟨h, .answer t1 t2 t3⟩) s = .next (s.onChip fun c => c.goodFlit p h) := by
  refine exec_onChip_congr (exec_tsync hup _) (Chip.tsyncAnswer_other ?_ _ _)
  rw [(Chip.Sent.goodFlit s.chip h p.isLt).rest]
  exact hown

theorem tsync_answer (hup : s.chip.portState p = lpUp) {t1 : DWord} (hown : s.chip.link.tsT1 = some t1.toNat) (t2 t3 : DWord) :
    Answers (.tsync p ⟨h, .answer t1 t2 t3⟩) s fun t =>
      s.keepsMem t ∧ t.chip.link.tsT1 = none ∧ t.chip.link.tsFirst = false ∧ ∃ d : Nat, d ≤ 14 ∧
        let t4 : Nat := (s.chip.time.tb.toNat + d + 2 ^ 64 - 7) % 2 ^ 64
        let o := (t1.toNat : Int) - (t2.toNat - (((t4 : Int) - t1.toNat) - ((t3.toNat : Int) - t2.toNat) + 1) / 2)
        t.chip.rd 0x0B4 0x058 = BitVec.ofInt 32 o ∧
        (s.chip.link.tsFirst = false → o.natAbs < 1000000 →
          t.chip.rd 0x0D0 0x054 = BitVec.ofInt 32 (-o) ∧ t.chip.time.tbStep = s.chip.time.tbStep) ∧
        (s.chip.link.tsFirst = true ∨ 1000000 ≤ o.natAbs → s.chip.time.tbStep = none →
          t.chip.time.tbStep = some (BitVec.ofInt 64 ((s.chip.time.tb.toNat : Int) + 40 - o))) ∧
        (s.chip.link.tsFirst = false → 1000000 ≤ o.natAbs → t.chip.bit 0x0B4 0x05C 0 = false) ∧
        (o.natAbs < 100 → 2 ≤ s.chip.link.tsGood → t.chip.bit 0x0B4 0x05C 0 = true) ∧
        (100 ≤ o.natAbs → 2 ≤ s.chip.link.tsBad → t.chip.bit 0x0B4 0x05C 0 = false) := by
  have htime : (s.chip.goodFlit p h).time = s.chip.time := (Chip.goodFlit_spec p.isLt hup).time
  have hlink : (s.chip.goodFlit p h).link = { s.chip.link with ports := (s.chip.goodFlit p h).link.ports, xfers := (s.chip.goodFlit p h).link.xfers } :=
    congrArg Chip.link (Chip.Sent.goodFlit s.chip h p.isLt).rest
  obtain ⟨g, hg⟩ : ∃ g, g = s.chip.goodFlit p h := ⟨_, rfl⟩
  rw [← hg] at htime hlink
  have hgf : g.link.tsFirst = s.chip.link.tsFirst := (congrArg LinkState.tsFirst hlink).trans rfl
  have hrun : (s.chip.goodFlit p h).tsyncRx (.answer t1 t2 t3) = (g.tsTaken (tsOffset t1.toNat t2.toNat t3.toNat
      ((s.chip.time.tb.toNat + Config.stampError g.time.free % 15 + 2 ^ 64 - 7) % 2 ^ 64))).tsMoved (tsOffset t1.toNat t2.toNat t3.toNat
      ((s.chip.time.tb.toNat + Config.stampError g.time.free % 15 + 2 ^ 64 - 7) % 2 ^ 64)) := by
    rw [← hg, ← htime]
    exact Chip.tsyncAnswer_own ((congrArg LinkState.tsT1 hlink).trans hown) _ _
  refine Answers.of_onChip (exec_onChip_congr (exec_tsync hup _) (g := fun _ => _) hrun) fun t hk hc hr => ?_
  have hl := (Chip.settled_link hc).1
  have ht : t.chip.time.tbStep = _ := congrArg TimeState.tbStep (Chip.settled_link hc).2
  have htb : g.time.tbStep = s.chip.time.tbStep := congrArg TimeState.tbStep htime
  exact ⟨hk, (congrArg LinkState.tsT1 hl).trans (Chip.tsMoved_own.trans Chip.tsTaken_own), (congrArg LinkState.tsFirst hl).trans Chip.tsMoved_done,
    Config.stampError g.time.free % 15, Nat.le_of_lt_succ (Nat.mod_lt _ (by decide)), Chip.tsCorrected_rd hr,
    fun hf ho => ⟨Chip.tsCorrected_slew hr (hgf.trans hf) ho, ht.trans ((congrArg (·.time.tbStep) (Chip.tsMoved_slews (Chip.tsTaken_first.trans (hgf.trans hf)) ho)).trans
      (Chip.tsTaken_step.trans htb))⟩,
    fun hf hn => ht.trans ((Chip.tsMoved_step (hf.imp_left (Chip.tsTaken_first.trans hgf).trans)
      (Chip.tsTaken_step.trans (htb.trans hn))).trans
      (congrArg (fun x : DWord => some (BitVec.ofInt 64 ((x.toNat : Int) + 40 - _))) (Chip.tsTaken_tb.trans (congrArg TimeState.tb htime)))),
    fun hf ho => Chip.tsCorrected_clear hr (hgf.trans hf) ho,
    fun ho h2 => Chip.tsCorrected_good hr ho (h2.trans_eq (congrArg LinkState.tsGood hlink).symm),
    fun ho h2 => Chip.tsCorrected_bad hr ho (h2.trans_eq (congrArg LinkState.tsBad hlink).symm)⟩

end

/-- Settles O50: the exchanges of a child and its parent. -/
theorem chapterTime : Obligations.ChapterTime := by
  intro s c child
  have hchild : (c.chEn && !c.chHead && c.chState == chUp && (c.route 0).isSome) = true ↔ child := by simp [child, and_assoc]
  exact ⟨fun h => tsyncExchange_child (hchild.mpr h), fun h => exec_onChip_congr (exec_tsyncExchange_eq s) (if_neg fun hn => h (hchild.mp hn)),
    fun p h => ⟨fun hd m => exec_onChip_congr (exec_tsync_eq p h s m) (if_neg hd),
      fun hup => ⟨tsync_request hup, fun _ t2 t3 hn => tsync_other hup hn t2 t3, fun _ t2 t3 hown => tsync_answer hup hown t2 t3⟩⟩⟩

end Sys2Proof.Machine
end
